-- ==== Sys2Proof/Word.lean ====
section
/-! DEFINITION. Words of the host links and the fixed-size tables of the part (spec/12_message_formats.md). -/

namespace Sys2Proof

/-- One byte of a frame. -/
abbrev Byte := BitVec 8
/-- A two-byte field. -/
abbrev Half := BitVec 16
/-- A four-byte field. -/
abbrev Long := BitVec 32
/-- A six-byte rig time. -/
abbrev Time := BitVec 48

/-- A table of `n` records of one kind. -/
abbrev Table (α : Type) (n : Nat) := Vector α n

/-- The record at `i`. -/
def Table.get {α : Type} {n : Nat} (t : Table α n) (i : Fin n) : α := t[i]
/-- The table with the record at `i` replaced. -/
def Table.put {α : Type} {n : Nat} (t : Table α n) (i : Fin n) (x : α) : Table α n := t.set i x
/-- The table whose record at `i` is `f i`. -/
def Table.tab {α : Type} {n : Nat} (f : Fin n → α) : Table α n :=
  ⟨((List.finRange n).map f).toArray, by simp⟩
/-- The table with the record at `i` changed by `f`. -/
def Table.update {α : Type} {n : Nat} (t : Table α n) (i : Fin n) (f : α → α) : Table α n :=
  t.put i (f (t.get i))
/-- The table whose every record is `x`. -/
def Table.const {α : Type} {n : Nat} (x : α) : Table α n := Vector.replicate n x

@[simp] theorem Table.get_put {α : Type} {n : Nat} (t : Table α n) (i j : Fin n) (x : α) :
    (t.put i x).get j = if i = j then x else t.get j := by
  simp only [Table.get, Table.put, Fin.getElem_fin, Vector.getElem_set, Fin.ext_iff]

@[simp] theorem Table.get_tab {α : Type} {n : Nat} (f : Fin n → α) (i : Fin n) :
    (Table.tab f).get i = f i := by
  simp [Table.get, Table.tab]

@[simp] theorem Table.get_const {α : Type} {n : Nat} (x : α) (i : Fin n) :
    (Table.const x : Table α n).get i = x := by
  simp [Table.get, Table.const]

@[simp] theorem Table.get_update {α : Type} {n : Nat} (t : Table α n) (i j : Fin n) (f : α → α) :
    (t.update i f).get j = if i = j then f (t.get i) else t.get j := by
  simp [Table.update]

theorem Table.ext_get {α : Type} {n : Nat} {t u : Table α n} (h : ∀ i, t.get i = u.get i) : t = u := by
  apply Vector.ext
  intro i hi
  simpa [Table.get] using h ⟨i, hi⟩

end Sys2Proof
end

