-- ==== Sys2Proof/Syntax.lean ====
section
/-! DEFINITION. The commands of the LS-432: one constructor of `Instr` for each row of
spec/opcode_table.json, with the operands the row's rule gives it. Fields of requests stand as they do
on the wire (spec/12_message_formats.md), so that the checks of R186 have something to look at. -/

namespace Sys2Proof

/-- The two host links (R163). -/
inductive LinkId
  | a
  | b
deriving DecidableEq, Repr

/-- A session record; session number n of the spec is index n − 1 (R148). -/
abbrev SessionIx := Fin 4
/-- A slot, 0 to 3. -/
abbrev SlotIx := Fin 4
/-- A channel number, 0 to 31. -/
abbrev ChanIx := Fin 32

/-- The two trigger inputs (R101). -/
inductive TrigLine
  | trig0
  | trig1
deriving DecidableEq, Repr

/-- The level of a line. -/
inductive Level
  | low
  | high
deriving DecidableEq, Repr

/-- The sense lines of a slot; true is grounded (R116). -/
structure Sense where
  snsA : Bool
  snsB : Bool
  key : Bool
deriving DecidableEq, Repr

/-- The levels of the input lines when a reset ends (R101, R108, R114, R132, R133, R163). -/
structure Pins where
  /-- LINKRATE grounded -/
  strapGrounded : Bool
  trig0 : Level
  trig1 : Level
  haltAsserted : Bool
  /-- receive line of Link A at the spacing level -/
  spacingA : Bool
  spacingB : Bool
  sense : Table Sense 4
  powerGood : Table Bool 4
  overcurrent : Table Bool 4
deriving DecidableEq, Repr

/-- What names a request: the link it stands on, and the frame's session field and sequence (R183). -/
structure Header where
  link : LinkId
  session : Byte
  seq : Half
deriving DecidableEq, Repr

/-- An optional field of a body: the presence byte and the bytes that follow (R184). -/
structure Opt (α : Type) where
  presence : Byte
  value : α
deriving DecidableEq, Repr

/-- A name field: its length byte and its eight characters. -/
structure RawName where
  len : Byte
  chars : Table Byte 8
deriving DecidableEq, Repr

/-- The optional settings of SESSION_OPEN and SESSION_CONFIG, in the order of the body. -/
structure RawSettings where
  name : Opt RawName
  lease : Opt Half
  quota : Opt Half
  lowMark : Opt Byte
  retry : Opt Half
  slotChange : Opt Byte
  haltChange : Opt Byte
  sessionLost : Opt Byte
  deviation : Opt Byte
deriving DecidableEq, Repr

/-- An item of a SET_ADD: channel, target, ramp time. -/
structure RawItem where
  channel : Byte
  target : Half
  ramp : Half
deriving DecidableEq, Repr

/-- A request body, field by field (the tables of 12_message_formats.md). -/
inductive Request
  | sessionOpen (role : Byte) (settings : RawSettings)
  | sessionClose
  | sessionConfig (settings : RawSettings)
  | deviceStatus
  | deviceConfig (margin : Half)
  | deviceReset (kind : Byte)
  | linkStatus (link clear : Byte)
  | timeGet
  | timeSet (time : Time)
  | claim (first last policy : Byte) (wait : Half)
  | release (first last toSafe force : Byte)
  | channelRead (first last : Byte)
  | channelConfig (channel : Byte) (lower upper safe : Half)
  | readback (first last : Byte)
  | setOpen (dueKind late capture sync : Byte) (dueTime : Time) (predecessor : Half) (delay offset : Long)
  | setAdd (sealFlag : Byte) (items : List RawItem)
  | setDiscard
  | setCancel (setId : Half)
  | setList (mode session : Byte) (firstSeal : Long) (setId : Half)
  | cycleBegin (first : Time) (period repeats : Long)
  | cycleEnd
  | cycleStop (kind : Byte)
  | cycleStatus (session position : Byte)
  | triggerConfig (line enabled edge debounce clear : Byte)
  | syncConfig (polarity : Byte) (width : Half)
  | triggerStatus
  | haltNow
  | resume
  | slotStatus (slot : Byte)
  | slotDisable (slot : Byte)
  | slotEnable (slot : Byte)
  | slotReset (slot : Byte)
deriving DecidableEq, Repr

/-- The blocks that answer the Session Table in a teardown (R156). -/
inductive AnswerBlock
  | setAssembler
  | schedule
  | applyEngine
deriving DecidableEq, Repr

/-- The blocks that hand reports over. Reports of one line reach the Report Unit in the order in which
they were handed over, reports of different lines in any order (11_reports.md, before R175; assumption 2). -/
inductive ReportLine
  | claimUnit
  | schedule
  | cycleUnit
  | applyEngine
  | triggerUnit
  | slotController
  | sessionTable
deriving DecidableEq, Repr

/-- The blocks that hand requests to the Module Bus Controller (R135). -/
inductive Requester
  | applyEngine
  | slotController (slot : SlotIx)
  | claimUnit
deriving DecidableEq, Repr

/-- The commands: one constructor for each row of the table, in its order. -/
inductive Instr
  | sessionOpen (h : Header) (role : Byte) (settings : RawSettings)
  | sessionClose (h : Header)
  | sessionConfig (h : Header) (settings : RawSettings)
  | deviceStatus (h : Header)
  | deviceConfig (h : Header) (margin : Half)
  | deviceReset (h : Header) (kind : Byte)
  | linkStatus (h : Header) (link clear : Byte)
  | timeGet (h : Header)
  | timeSet (h : Header) (time : Time)
  | claim (h : Header) (first last policy : Byte) (wait : Half)
  | release (h : Header) (first last toSafe force : Byte)
  | channelRead (h : Header) (first last : Byte)
  | channelConfig (h : Header) (channel : Byte) (lower upper safe : Half)
  | readback (h : Header) (first last : Byte)
  | setOpen (h : Header) (dueKind late capture sync : Byte) (dueTime : Time) (predecessor : Half)
      (delay offset : Long)
  | setAdd (h : Header) (sealFlag : Byte) (items : List RawItem)
  | setDiscard (h : Header)
  | setCancel (h : Header) (setId : Half)
  | setList (h : Header) (mode session : Byte) (firstSeal : Long) (setId : Half)
  | cycleBegin (h : Header) (first : Time) (period repeats : Long)
  | cycleEnd (h : Header)
  | cycleStop (h : Header) (kind : Byte)
  | cycleStatus (h : Header) (session position : Byte)
  | triggerConfig (h : Header) (line enabled edge debounce clear : Byte)
  | syncConfig (h : Header) (polarity : Byte) (width : Half)
  | triggerStatus (h : Header)
  | haltNow (h : Header)
  | resume (h : Header)
  | slotStatus (h : Header) (slot : Byte)
  | slotDisable (h : Header) (slot : Byte)
  | slotEnable (h : Header) (slot : Byte)
  | slotReset (h : Header) (slot : Byte)
  /-- the bytes from the length byte to the second CRC byte -/
  | frameReceived (l : LinkId) (bytes : List Byte)
  | gapDeadlineExpiry (l : LinkId)
  | linkBreak (l : LinkId)
  | lineReturnsToMarking (l : LinkId)
  | dispatch (l : LinkId)
  | frameSent (l : LinkId)
  | resetPerformed (pins : Pins)
  | powerOnReset (pins : Pins)
  | lineReset (pins : Pins)
  | heldReset (pins : Pins)
  | leaseExpiry (n : SessionIx)
  | reportRetriesExhausted (n : SessionIx)
  | linkBreakNotice (l : LinkId)
  | teardownAnswer (n : SessionIx) (b : AnswerBlock)
  | sessionRecordClose (n : SessionIx)
  | sessionEndLinkPort (n : SessionIx)
  | sessionEndSetAssembler (n : SessionIx)
  | sessionEndSchedule (n : SessionIx)
  | sessionEndCycleUnit (n : SessionIx)
  | sessionEndApplyEngine (n : SessionIx)
  | sessionEndWaitEntries (n : SessionIx)
  | sessionEndClaimUnit (n : SessionIx)
  | teardownNotice (n : SessionIx)
  | reportHandover (line : ReportLine)
  | endOfTransmissionNotice (l : LinkId)
  | retryExpiry (n : SessionIx) (seq : Half)
  | ack (l : LinkId)
  | sealTaken (n : SessionIx)
  | dueTimeExpiry (setId : Half)
  | triggerEdge (line : TrigLine)
  | take
  | outcome
  | lostChannelsSchedule
  | haltEntrySchedule
  | itemsReturn (n : SessionIx)
  | lostChannelsSetAssembler
  | memberParkedNotice (n : SessionIx)
  | haltEntryCycleUnit
  | stageAcceptance (slot : SlotIx)
  | stageFailure (slot : SlotIx)
  | stageSlotLost (slot : SlotIx)
  | slotLostNotice (slot : SlotIx)
  | haltEntryApplyEngine
  | strobeAnswer
  | withdrawnAnswer
  | commitRecordsTaken
  | captureExpiry (entry : Nat)
  | captureReadbackEnd (entry : Nat) (slot : SlotIx)
  | commitRecords
  | captureItems (entry : Nat)
  | slotReady (slot : SlotIx)
  | slotLeftReady (slot : SlotIx)
  | haltEntryClaimUnit
  | safeAllValues
  | rampExpiry (channel : ChanIx)
  /-- the position of the entry in the Claim Wait List, oldest 0 -/
  | claimWaitDeadline (position : Nat)
  | trigTransition (line : TrigLine) (level : Level)
  | qualificationTimerExpiry (line : TrigLine)
  | syncCommitNotice
  | pulseEnd
  | haltLineAssert
  | haltLineDeassert
  | haltMonitorTimerExpiry
  | readingChange (slot : SlotIx) (sense : Sense)
  | settleTimerExpiry (slot : SlotIx)
  | powerGoodAssert (slot : SlotIx)
  | powerGoodTimerExpiry (slot : SlotIx)
  | powerGoodDeassert (slot : SlotIx)
  | overcurrent (slot : SlotIx) (asserted : Bool)
  | busFailureNotice (slot : SlotIx)
  | describeReply (slot : SlotIx)
  | heldReadbackReply (slot : SlotIx)
  | busRequest (requester : Requester)
  | commitRequest
  | withdrawal
  /-- the attempt the reply answers, counted as `Bus.attempts` counts them, and the reply's bytes -/
  | moduleReply (attempt : Nat) (bytes : List Byte)
  | replyTimeout
  | broadcastEnd
  | slotPoweredNotice (slot : SlotIx)
  | leftPoweredNotice (slot : SlotIx)
  | haltEntryBusController
  | characterReceived (l : LinkId) (byte : Byte) (stopBitMarking : Bool)
  | lineGoesToSpacing (l : LinkId)
deriving DecidableEq, Repr

end Sys2Proof
end

