-- ==== Sys2Proof/Decode.lean ====
section
/-! DEFINITION. The table's rows give no bits: a command of this block is an operation or an event, not
an instruction word. (The frames that carry requests are decoded by the Link Port, Machine/Operands.lean.) -/

namespace Sys2Proof

/-- No row of spec/opcode_table.json gives bits, so no word spells a command (assumption 28). -/
def decodeTableWord (_nbits _w : Nat) : Option Instr := none

end Sys2Proof
end

