-- ==== Sys2Proof/Config.lean ====
section
/-! DEFINITION. Sizes the manual fixes, and the free values: constants without a body, of which nothing
can be proved. -/

namespace Sys2Proof.Config

/-- R59: the greatest rig time. -/
def maxTime : Nat := 2 ^ 48 - 1
/-- R40: the most sealed sets. -/
def maxSets : Nat := 64
/-- R36: the entries of the Item Pool. -/
def poolSize : Nat := 512
/-- The ceiling of the 16-bit counts that are held (R134, R173, R174). -/
def heldCount : Nat := 65535
/-- The ceiling of the 32-bit values that are held (R52, R91). -/
def heldLong : Nat := 4294967295
/-- R11: the most entries of the Claim Wait List. -/
def maxWaits : Nat := 8
/-- R78: the most entries of the Capture List. -/
def maxCaptures : Nat := 16
/-- R168: the most frames of an input queue. -/
def maxInput : Nat := 4
/-- 10_links_and_frames.md: the most frames of a reply queue. -/
def maxReplies : Nat := 8
/-- R174: the most reports outstanding. -/
def maxOutstanding : Nat := 8
/-- R174: the most reports held. -/
def maxHeld : Nat := 32

/-- FREE VALUE (assumption 17): whether the module in a slot received intact the request of a given
attempt or broadcast (R142 lets a module ignore a request whose check byte does not agree). The first
argument counts attempts and broadcasts. -/
opaque requestHeard : Nat → SlotIx → Bool

/-- FREE VALUE (assumption 18): which of a power-good and an overcurrent input that are both already
asserted when a rail is switched on is taken first (R122 allows either order). The argument is the
free-value counter. -/
opaque overcurrentFirst : Nat → Bool

end Sys2Proof.Config
end

