-- ==== Sys2Proof/Machine/State.lean ====
section
/-! DEFINITION. Everything the spec gives the LS-432 to hold, block by block, as plain data; the queue of
commands; and the machine after a power-on reset. Times called rig times are counts of `Clock.rig`;
times called instants are counts of `Clock.uptime`, which TIME_SET does not move (assumption 4). -/

namespace Sys2Proof.Machine

/-- No command of this block stops the machine: what the spec calls a failure is an outcome, a reply or
a slot state. So there is no fault to raise, and that is safe: nothing is cut short. -/
inductive Fault
deriving DecidableEq, Repr

/-- Why a command has no meaning. -/
inductive Refusal
  /-- Raised by `exec` for a row without a meaning. Safe: the run stops. No arm of this model raises it. -/
  | notModelled (mnemonic : String)
  /-- Raised by SET_ADD and FRAME_RECEIVED for operands no frame can carry (`Instr.wellFormed`,
  assumption 34). Safe: the run stops on something the part cannot meet. -/
  | illFormed
deriving DecidableEq, Repr

/-! ### Time Base -/

/-- R59, R49: the part's clock and the late margin; `uptime` is the model's own count. -/
structure Clock where
  rig : Nat
  uptime : Nat
  lateMargin : Nat
deriving DecidableEq, Repr

/-! ### Claim Unit -/

inductive LossPolicy
  | hold
  | safe
deriving DecidableEq, Repr

inductive ChannelKind
  | voltage
  | current
  | digital
deriving DecidableEq, Repr

/-- R6: a ramp the part believes to be in flight; rig times. -/
structure Ramp where
  start : Int
  target : Int
  startTime : Nat
  endTime : Nat
deriving DecidableEq, Repr

/-- Owner and loss policy of an OWNED channel. -/
structure Ownership where
  owner : SessionIx
  policy : LossPolicy
deriving DecidableEq, Repr

/-- R1: the record of a present channel. FREE when `owned` is none, OWNED otherwise. -/
structure Channel where
  owned : Option Ownership
  kind : ChannelKind
  descLower : Int
  descUpper : Int
  descSafe : Int
  tolerance : Nat
  settle : Nat
  lower : Int
  upper : Int
  safe : Int
  commanded : Int
  ramp : Option Ramp
  appliedBy : Option Nat
  /-- value and rig time -/
  lastReadback : Option (Int × Nat)
  deviation : Bool
deriving DecidableEq, Repr

/-- R11: an entry of the Claim Wait List. -/
structure WaitEntry where
  session : SessionIx
  first : ChanIx
  last : ChanIx
  policy : LossPolicy
  deadline : Nat
  seq : Nat
deriving DecidableEq, Repr

structure Claims where
  /-- none is ABSENT -/
  channels : Table (Option Channel) 32
  waits : List WaitEntry
  /-- R76: the rig time of the latest halt entry taken -/
  haltEntry : Option Nat
deriving DecidableEq, Repr

/-! ### Set Assembler and Schedule -/

structure Item where
  channel : ChanIx
  target : Int
  ramp : Nat
deriving DecidableEq, Repr

/-- Due kind with the fields that belong to it. -/
inductive Due
  | now
  | atTime (time : Nat)
  | after (predecessor delay : Nat)
  | trigger (line : TrigLine)
  | offset (offset : Nat)
deriving DecidableEq, Repr

inductive LatePolicy
  | apply
  | discard
deriving DecidableEq, Repr

/-- R22, R34: an open set; `spoiled` is the spoiling channel, none when the flag is clear. -/
structure OpenSet where
  due : Due
  late : LatePolicy
  capture : Bool
  sync : Bool
  items : List Item
  spoiled : Option ChanIx
deriving DecidableEq, Repr

structure Assembler where
  openSets : Table (Option OpenSet) 4
  poolFree : Nat
deriving DecidableEq, Repr

inductive SetState
  | pending
  | due
  | applying
  | parked
deriving DecidableEq, Repr

/-- R40: a sealed set. `pass` is the model's own: the pass a detached member was taken in (R94). -/
structure SealedSet where
  id : Nat
  owner : SessionIx
  due : Due
  dueTime : Option Nat
  late : LatePolicy
  capture : Bool
  sync : Bool
  items : List Item
  sealNo : Nat
  sealTime : Nat
  state : SetState
  member : Bool
  pass : Nat
deriving DecidableEq, Repr

structure Schedule where
  /-- in the order in which seal numbers were given (R32) -/
  sets : List SealedSet
  /-- R47: the ids on the Ready List, head first -/
  ready : List Nat
  nextId : Nat
  lastSeal : Nat
  armed : Table Bool 4
deriving DecidableEq, Repr

/-! ### Cycle Unit -/

inductive StopKind
  | afterPass
  | now
deriving DecidableEq, Repr

inductive CyclePhase
  | building
  | running
  | stopping (kind : StopKind)
deriving DecidableEq, Repr

/-- R87: a cycle that is not NONE. -/
structure Cycle where
  phase : CyclePhase
  firstStart : Nat
  period : Nat
  repeats : Nat
  begun : Nat
  current : Option Nat
  /-- set ids in seal-number order -/
  members : List Nat
deriving DecidableEq, Repr

/-! ### Apply Engine -/

inductive Cause
  | moduleNoReply
  | slotLost
  | halted
  | sessionEnd
deriving DecidableEq, Repr

inductive SlotMark
  | queued
  | inProgress
  | accepted
deriving DecidableEq, Repr

/-- A touched slot: its mark, and whether a loss notice is pending on its STAGE (R68). -/
structure Touched where
  slot : SlotIx
  mark : SlotMark
  lossPending : Bool
deriving DecidableEq, Repr

/-- An item with the settle time recorded at the take (R64). -/
structure WorkItem where
  item : Item
  settle : Nat
deriving DecidableEq, Repr

inductive EnginePhase
  | staging
  | committing
  | withdrawing
  | recording
deriving DecidableEq, Repr

/-- R63: the working record. `take` is the model's own name for the take (assumption 27); `ended` notes the
owner session's end (R71, R75). -/
structure Work where
  take : Nat
  phase : EnginePhase
  setId : Nat
  owner : SessionIx
  capture : Bool
  sync : Bool
  items : List WorkItem
  slots : List Touched
  cause : Option Cause
  commitTime : Option Nat
  abandon : Bool
  ended : Bool
deriving DecidableEq, Repr

inductive CaptureResult
  | value
  | superseded
  | absent
  | halted
  | full
deriving DecidableEq, Repr

/-- R78: an item of a capture entry; `read` is the value the module answered. -/
structure CaptureItem where
  channel : ChanIx
  target : Option Int
  read : Option Int
  result : Option CaptureResult
deriving DecidableEq, Repr

/-- A slot given a READBACK; `ended` is the rig time at which its end was taken. -/
structure SlotRead where
  slot : SlotIx
  ended : Option Nat
deriving DecidableEq, Repr

/-- R78: a capture entry; `entry` is the model's own name for it, and `take` that of the take whose commit it
captures, 0 for a READBACK (assumption 27). -/
structure CaptureEntry where
  entry : Nat
  take : Nat
  owner : SessionIx
  setId : Nat
  tag : Nat
  refTime : Nat
  captureTime : Nat
  /-- READING (else WAITING) -/
  reading : Bool
  items : List CaptureItem
  slots : List SlotRead
deriving DecidableEq, Repr

structure Engine where
  /-- none is IDLE -/
  work : Option Work
  captures : List CaptureEntry
  takes : Nat
  entries : Nat
deriving DecidableEq, Repr

/-! ### Trigger Unit -/

inductive Edge
  | rising
  | falling
  | both
deriving DecidableEq, Repr

inductive Debounce
  | off
  | us5
  | us50
  | us500
  | ms5
deriving DecidableEq, Repr

/-- R101: a trigger line's record; `candidate` is a rig time, `timer` an instant. -/
structure TrigRec where
  enabled : Bool
  edge : Edge
  debounce : Debounce
  qualified : Level
  candidate : Option Nat
  timer : Option Nat
  count : Nat
  lastStamp : Option Nat
deriving DecidableEq, Repr

inductive Polarity
  | activeHigh
  | activeLow
deriving DecidableEq, Repr

/-- R106: a pulse in progress. -/
structure Pulse where
  width : Nat
  pulseEnd : Nat
deriving DecidableEq, Repr

/-- R106: SYNC_OUT; INACTIVE when there is no pulse; `level` is the line's level (assumption 35). -/
structure SyncOut where
  polarity : Polarity
  width : Nat
  pulse : Option Pulse
  count : Nat
  level : Level
deriving DecidableEq, Repr

inductive HaltCause
  | line
  | request (n : SessionIx)
  | reset
deriving DecidableEq, Repr

/-- Cause and entry time, present while HALTED. -/
structure Halted where
  cause : HaltCause
  time : Nat
deriving DecidableEq, Repr

/-- R108; the timer is an instant. -/
inductive Monitor
  | released
  | qualifying (timer : Nat)
  | asserted
deriving DecidableEq, Repr

structure Trigger where
  trig0 : TrigRec
  trig1 : TrigRec
  sync : SyncOut
  /-- none is RUNNING -/
  halted : Option Halted
  monitor : Monitor
deriving DecidableEq, Repr

/-! ### Slot Controller -/

inductive Reading
  | vacant
  | partialSeat
  | seatedLow
  | seatedHigh
deriving DecidableEq, Repr

inductive SlotState
  | empty
  | settling
  | powering
  | identifying
  | ready
  | fault
  | disabled
deriving DecidableEq, Repr

inductive Rail
  | v12
  | v24
deriving DecidableEq, Repr

inductive FaultReason
  | misseated
  | noPower
  | overcurrent
  | badDescriptor
  | noReply
deriving DecidableEq, Repr

/-- R145: a channel entry of a descriptor as read. -/
structure DescEntry where
  kind : Byte
  lower : Int
  upper : Int
  safe : Int
  tolerance : Nat
  settle : Nat
deriving DecidableEq, Repr

/-- R145: a descriptor as read, its entries up to its count and no more than 8, with its mark. -/
structure Descriptor where
  railCode : Byte
  model : Nat
  serial : Nat
  count : Nat
  entries : List DescEntry
  valid : Bool
deriving DecidableEq, Repr

/-- The slot record of chapter 7, the slot's lines, and its timers (instants). `ident` is the model's own
name for an identification (R123: a reply of an earlier one is ignored; assumption 27). -/
structure Slot where
  state : SlotState
  reading : Reading
  sense : Sense
  stateTime : Nat
  rail : Option Rail
  descriptor : Option Descriptor
  fault : Option FaultReason
  held : Bool
  /-- the rail enable output that is on -/
  enable : Option Rail
  powerGood : Bool
  overcurrent : Bool
  settleTimer : Option Nat
  powerTimer : Option Nat
  ident : Nat
deriving DecidableEq, Repr

/-! ### Module bus and modules -/

structure StageItem where
  index : Nat
  target : Int
  ramp : Nat
deriving DecidableEq, Repr

/-- What a READBACK is for. -/
inductive ReadFor
  | capture (entry : Nat)
  | held (ident : Nat)
deriving DecidableEq, Repr

/-- The six transactions (R145), an addressed one with its slot and what its requester knows it by. -/
inductive Txn
  | describe (slot : SlotIx) (ident : Nat)
  | stage (slot : SlotIx) (take : Nat) (items : List StageItem)
  | readback (slot : SlotIx) (why : ReadFor) (indices : List Nat)
  | driveSafe (slot : SlotIx) (values : List (Nat × Int))
  | abandon
  | safeAll
deriving DecidableEq, Repr

/-- The transaction in progress: its attempt, the count of that attempt, the instant it began, the bytes
sent, and for a SAFE_ALL its values once the Claim Unit has given them (R138). -/
structure InProgress where
  txn : Txn
  attempt : Nat
  attemptNo : Nat
  began : Nat
  wire : List Byte
  safeValues : Option (List (Option Int))
deriving DecidableEq, Repr

structure CommitReq where
  take : Nat
  slots : List SlotIx
  sync : Bool
deriving DecidableEq, Repr

/-- R134. -/
structure Bus where
  /-- none is IDLE -/
  current : Option InProgress
  safeQ : List Txn
  applyQ : List Txn
  identifyQ : List Txn
  readbackQ : List Txn
  commit : Option CommitReq
  live : Table Bool 4
  retries : Table Nat 4
  failures : Table Nat 4
  attempts : Nat
deriving DecidableEq, Repr

/-- What one output of a module does: unpowered, driving the safe value the module itself stores, driving
a value, or moving in a straight line from what it did before to a target between two instants (R73). -/
inductive Drive
  | off
  | stored
  | value (v : Int)
  | ramp (start : Drive) (target : Int) (startAt endAt : Nat)
deriving DecidableEq, Repr

/-- A module as the part expects it to be (R65, R73, R142 to R144). -/
structure Module where
  powered : Bool
  staged : List StageItem
  drives : Table Drive 8
deriving DecidableEq, Repr

/-! ### Session Table -/

inductive Role
  | control
  | observe
deriving DecidableEq, Repr

inductive EndingCause
  | close
  | lease
  | reportTimeout
  | linkBreak
deriving DecidableEq, Repr

/-- A teardown in progress: its cause, the rig time it began, and the answers taken (R155, R156). -/
structure Ending where
  cause : EndingCause
  time : Nat
  assembler : Bool
  schedule : Bool
  engine : Bool
deriving DecidableEq, Repr

structure Subscriptions where
  slotChange : Bool
  haltChange : Bool
  sessionLost : Bool
  deviation : Bool
deriving DecidableEq, Repr

/-- R148: an OPEN record. `incarnation` is the model's own name for this opening (R149). -/
structure Session where
  ending : Option Ending
  link : LinkId
  role : Role
  name : List Byte
  lease : Nat
  deadline : Option Nat
  quota : Nat
  inUse : Nat
  lowMark : Nat
  retry : Nat
  subs : Subscriptions
  openTime : Nat
  incarnation : Nat
deriving DecidableEq, Repr

inductive ResetKind
  | hold
  | drop
deriving DecidableEq, Repr

structure SessionTable where
  /-- none is CLOSED -/
  records : Table (Option Session) 4
  opened : Nat
  /-- R161: the reset a DEVICE_RESET has armed -/
  resetPending : Option ResetKind
  /-- R161: the reply of that DEVICE_RESET has been sent -/
  resetDue : Bool
deriving DecidableEq, Repr

/-! ### Replies and reports -/

inductive ReplyOutcome
  | done
  | refused
  | busy
deriving DecidableEq, Repr

/-- The reasons of a REFUSED reply. -/
inductive Reason
  | unknownKind | badLength | badField | noSession | role | tableFull
  | absent | held | waitListFull | notOwned | inUse
  | noOpenSet | setAlreadyOpen | duplicateChannel | outOfLimits | poolFull | quota | scheduleFull
  | emptySet | spoiled | predecessor | noSuchSet | tooLate
  | halted | lineAsserted | cycleState | timeInUse | slotState | lineInUse | captureFull
deriving DecidableEq, Repr

/-- The reasons of a SET_RESULT (R51). -/
inductive ResultReason
  | moduleNoReply | slotLost | byRequest | channelReleased | channelAbsent | chainBroken
  | cycleStopped | late | halted
deriving DecidableEq, Repr

/-- A reply frame; `resetReply` marks the reply whose sending performs a reset (R161). -/
structure Reply where
  kind : Byte
  session : Byte
  seq : Half
  outcome : ReplyOutcome
  reason : Option Reason
  body : List Byte
  resetReply : Bool
deriving DecidableEq, Repr

inductive SetOutcome
  | applied
  | failed
  | cancelled
  | discarded
deriving DecidableEq, Repr

inductive ClaimOutcome
  | granted
  | waiting
  | timeout
  | absent
deriving DecidableEq, Repr

inductive CycleEndReason
  | complete
  | stopped
  | memberFailed
  | memberCancelled
  | halted
deriving DecidableEq, Repr

/-- R52. -/
structure SetResult where
  setId : Nat
  sealNo : Nat
  outcome : SetOutcome
  reason : Option ResultReason
  pass : Nat
  parked : Bool
  dueTime : Option Nat
  commitTime : Option Nat
  lateness : Option Nat
  eventTime : Nat
deriving DecidableEq, Repr

/-- An item of a CAPTURE report: channel, result, and the value when the result is VALUE. -/
structure CapturedItem where
  channel : ChanIx
  result : CaptureResult
  value : Int
deriving DecidableEq, Repr

/-- R83. -/
structure CaptureReport where
  setId : Nat
  tag : Nat
  refTime : Nat
  captureTime : Nat
  items : List CapturedItem
deriving DecidableEq, Repr

/-- CLAIM_RESULT (R3, R12, R13). -/
structure ClaimResult where
  outcome : ClaimOutcome
  first : ChanIx
  last : ChanIx
  seq : Nat
  lost : Option ChanIx
deriving DecidableEq, Repr

/-- R99. -/
structure CycleChange where
  reason : CycleEndReason
  member : Option (Nat × ResultReason)
  firstStart : Nat
  period : Nat
  repeats : Nat
  begun : Nat
  lastStart : Option Nat
  members : Nat
  eventTime : Nat
deriving DecidableEq, Repr

/-- R131. -/
structure SlotChange where
  slot : SlotIx
  state : SlotState
  previous : SlotState
  reading : Reading
  fault : Option FaultReason
  rail : Option Rail
  held : Option Bool
  /-- model code, serial number, channel count -/
  summary : Option (Nat × Nat × Nat)
  eventTime : Nat
deriving DecidableEq, Repr

/-- R113; LEFT when `cause` is none. -/
structure HaltChange where
  cause : Option HaltCause
  session : Option SessionIx
  eventTime : Nat
deriving DecidableEq, Repr

/-- R157. -/
structure SessionLost where
  session : SessionIx
  cause : EndingCause
  link : LinkId
  role : Role
  name : List Byte
  eventTime : Nat
deriving DecidableEq, Repr

/-- R82. -/
structure Deviation where
  channel : ChanIx
  setId : Nat
  target : Int
  read : Int
  tolerance : Nat
  readTime : Nat
deriving DecidableEq, Repr

/-- The ten report kinds. -/
inductive Report
  | setResult (r : SetResult)
  | capture (r : CaptureReport)
  | claimResult (r : ClaimResult)
  | cycleChange (r : CycleChange)
  | queueLow (count mark : Nat)
  | slotChange (r : SlotChange)
  | haltChange (r : HaltChange)
  | sessionLost (r : SessionLost)
  | deviation (r : Deviation)
  | overrun (dropped time : Nat)
deriving DecidableEq, Repr

/-- Retry timer; the expiry is an instant (R178). -/
inductive RetryTimer
  | sending
  | running (expiry : Nat)
  | expired
deriving DecidableEq, Repr

/-- R174: an outstanding report; `uid` is the model's own name for it (assumption 27). -/
structure Outstanding where
  uid : Nat
  seq : Nat
  report : Report
  retransmissions : Nat
  timer : RetryTimer
deriving DecidableEq, Repr

/-- R174: the Report Unit's state of one session; `torn`: the teardown notice has been taken (R175). -/
structure ReportLists where
  nextSeq : Nat
  held : List Report
  outstanding : List Outstanding
  dropped : Nat
  torn : Bool
deriving DecidableEq, Repr

structure Reports where
  lists : Table ReportLists 4
  nextUid : Nat
deriving DecidableEq, Repr

/-! ### Link Ports -/

inductive LinkRate
  | baud921600
  | baud460800
deriving DecidableEq, Repr

/-- R164, R165; `frame` holds the bytes since the start byte and the gap deadline (an instant). -/
inductive Receiver
  | hunt
  | frame (bytes : List Byte) (gap : Nat)
  | lineBreak
deriving DecidableEq, Repr

/-- A frame received: its header and body (R183). -/
structure InFrame where
  cls : Byte
  kind : Byte
  session : Byte
  seq : Half
  body : List Byte
deriving DecidableEq, Repr

structure ReportFrame where
  uid : Nat
  session : SessionIx
  seq : Nat
  report : Report
deriving DecidableEq, Repr

inductive OutFrame
  | reply (r : Reply)
  | report (f : ReportFrame)
deriving DecidableEq, Repr

/-- The frame in transmission and the bytes on the line. -/
structure Transmission where
  frame : OutFrame
  wire : List Byte
deriving DecidableEq, Repr

/-- R169; a STOPPED dispatch may hold a reply for room (R161). -/
inductive DispatchState
  | ready
  | waiting (reply : Reply)
  | stopped (reply : Option Reply)
deriving DecidableEq, Repr

/-- R170. -/
structure CacheEntry where
  seq : Half
  reply : Reply
deriving DecidableEq, Repr

/-- R171. -/
structure OpenCache where
  seq : Half
  reply : Reply
  session : Option SessionIx
deriving DecidableEq, Repr

structure Link where
  rate : LinkRate
  receiver : Receiver
  /-- instant at which the line went to spacing -/
  spacingSince : Option Nat
  /-- complete frames the Link Port has not yet taken under R167 -/
  complete : List (List Byte)
  input : List InFrame
  dispatch : DispatchState
  /-- the request handed to its block and not yet answered (step 7 of R169) -/
  inHand : Option (Header × Request)
  replies : List Reply
  reports : List ReportFrame
  transmission : Option Transmission
  cache : Table (Option CacheEntry) 4
  openCache : Option OpenCache
  crcErrors : Nat
  gapErrors : Nat
  busyReplies : Nat
  breaks : Nat
deriving DecidableEq, Repr

/-! ### What blocks hand over to one another -/

/-- The blocks the Trigger Unit tells of a halt entry (R109). -/
inductive HaltBlock
  | schedule
  | cycleUnit
  | applyEngine
  | claimUnit
  | busController
deriving DecidableEq, Repr

/-- The blocks the Session Table tells of a session's end (R155). -/
inductive EndBlock
  | reportUnit
  | linkPort
  | setAssembler
  | schedule
  | cycleUnit
  | applyEngine
  | claimUnit
deriving DecidableEq, Repr

/-- How the engine says the APPLYING set ended (R50). -/
inductive EngineOutcome
  | applied (commitTime : Nat)
  | failed (cause : Cause)
  | removed
deriving DecidableEq, Repr

inductive StageEnd
  | accepted
  | failed
  | slotLost
deriving DecidableEq, Repr

/-- R72. -/
inductive CommitAnswer
  | strobe (time : Nat) (safeAllQueued : Bool)
  | byRequest
  | slotLost
  | safeDrive
deriving DecidableEq, Repr

/-- R75. -/
structure CommitRecord where
  channel : ChanIx
  target : Int
  ramp : Nat
  setId : Nat
  commitTime : Nat
deriving DecidableEq, Repr

/-- R81; an answer carries the values in the order named. -/
inductive ReadEnd
  | answered (values : List Int)
  | failed
  | removed
deriving DecidableEq, Repr

/-- A channel lost and the owner it had (R3, R16). -/
structure LostChannel where
  channel : ChanIx
  owner : SessionIx
deriving DecidableEq, Repr

/-- What the Apply Engine withdraws (R140). -/
inductive Withdrawn
  | stages (take : Nat)
  | readbacks (entries : List Nat)
  | commit (take : Nat)
deriving DecidableEq, Repr

/-- Values read back by a held identification, with the time of the read (R125). -/
structure HeldValues where
  values : List Int
  time : Nat
deriving DecidableEq, Repr

/-- Everything one block hands to another and the other takes as an event of its own. -/
inductive Notice
  | haltEntry (b : HaltBlock) (time : Option Nat)
  | sessionEnd (b : EndBlock) (n : SessionIx)
  | teardownAnswer (b : AnswerBlock) (n : SessionIx)
  | claimSessionEnd (n : SessionIx)
  | recordClose (n : SessionIx)
  /-- for a session and its incarnation, or a system report -/
  | report (line : ReportLine) (recipient : Option (SessionIx × Nat)) (r : Report)
  | frameEnd (l : LinkId) (n : SessionIx) (uid : Nat)
  | retriesExhausted (n : SessionIx) (incarnation : Nat)
  | linkBroken (l : LinkId)
  | ack (l : LinkId) (n : SessionIx) (incarnation : Nat) (seq : Nat)
  | sealAsked (n : SessionIx) (incarnation : Nat) (h : Header) (taken : Nat)
  /-- `halted`: the Trigger Unit took the edge while the part was HALTED (R103) -/
  | edge (line : TrigLine) (stamp : Nat) (halted : Bool)
  | outcome (take : Nat) (setId : Nat) (o : EngineOutcome)
  | lostToSchedule (lost : List LostChannel)
  | lostToAssembler (lost : List LostChannel)
  | itemsReturn (n : SessionIx) (count : Nat)
  | memberParked (n : SessionIx) (setId : Nat)
  | stageEnd (slot : SlotIx) (take : Nat) (e : StageEnd)
  | engineSlotLost (slot : SlotIx) (take : Nat)
  | commitAnswer (a : CommitAnswer)
  | commitRecords (records : List CommitRecord) (safeAllQueued : Bool)
  | recordsTaken
  | readEnd (entry : Nat) (slot : SlotIx) (e : ReadEnd)
  | captureComplete (entry : Nat)
  | slotReady (slot : SlotIx) (d : Descriptor) (held : Option HeldValues)
  | slotLeftReady (slot : SlotIx)
  | safeAllValues
  | syncCommit (time : Nat)
  | busFailure (slot : SlotIx)
  | describeReply (slot : SlotIx) (ident : Nat) (bytes : List Byte)
  | heldReply (slot : SlotIx) (ident : Nat) (values : List Int)
  | busRequest (r : Requester) (t : Txn)
  | commitRequest (c : CommitReq)
  | withdraw (w : Withdrawn)
  | slotPowered (slot : SlotIx)
  | slotLeftPowered (slot : SlotIx)
deriving DecidableEq, Repr

/-- The lanes along which notices keep their order (assumption 9). -/
inductive Lane
  | halt (b : HaltBlock)
  | sessionEnd (b : EndBlock) (n : SessionIx)
  | teardownAnswer (b : AnswerBlock) (n : SessionIx)
  | claimSessionEnd (n : SessionIx)
  | recordClose (n : SessionIx)
  | report (line : ReportLine)
  | frameEnd (l : LinkId)
  | retriesExhausted (n : SessionIx)
  | linkBroken (l : LinkId)
  | ack (l : LinkId)
  | sealAsked (n : SessionIx)
  | edge (line : TrigLine)
  | outcome
  | lostToSchedule
  | lostToAssembler
  | itemsReturn (n : SessionIx)
  | memberParked (n : SessionIx)
  | stageEnd (slot : SlotIx)
  | engineSlotLost (slot : SlotIx)
  | commitAnswer
  | commitRecords
  | recordsTaken
  | readEnd (entry : Nat) (slot : SlotIx)
  | captureComplete (entry : Nat)
  | slotToClaim (slot : SlotIx)
  | safeAllValues
  | syncCommit
  | busToSlot (slot : SlotIx)
  | engineToBus
  | claimToBus
  | slotToBus (slot : SlotIx)
deriving DecidableEq, Repr

/-! ### The state -/

structure State where
  clock : Clock
  claims : Claims
  assembler : Assembler
  schedule : Schedule
  /-- none is NONE -/
  cycles : Table (Option Cycle) 4
  engine : Engine
  trigger : Trigger
  slots : Table Slot 4
  bus : Bus
  modules : Table Module 4
  sessions : SessionTable
  reports : Reports
  linkA : Link
  linkB : Link
  notices : List Notice
  /-- the free-value counter -/
  free : Nat
  /-- the commands that wait, first in, first out -/
  pending : List Instr
deriving DecidableEq, Repr

/-! ### After a power-on reset -/

/-- R101, with the line LOW (assumption 5). -/
def TrigRec.reset (level : Level) : TrigRec :=
  { enabled := false, edge := .rising, debounce := .off, qualified := level, candidate := none,
    timer := none, count := 0, lastStamp := none }

/-- R132: a slot with no module. -/
def Slot.reset : Slot :=
  { state := .empty, reading := .vacant, sense := ⟨false, false, false⟩, stateTime := 0, rail := none,
    descriptor := none, fault := none, held := false, enable := none, powerGood := false,
    overcurrent := false, settleTimer := none, powerTimer := none, ident := 0 }

/-- R134: the controller with every rail off. -/
def Bus.reset : Bus :=
  { current := none, safeQ := [], applyQ := [], identifyQ := [], readbackQ := [], commit := none,
    live := Table.const false, retries := Table.const 0, failures := Table.const 0, attempts := 0 }

/-- A module without power. -/
def Module.off : Module := { powered := false, staged := [], drives := Table.const .off }

/-- R163: a Link Port with its line marking and the strap open (assumption 5). -/
def Link.reset : Link :=
  { rate := .baud921600, receiver := .hunt, spacingSince := none, complete := [], input := [],
    dispatch := .ready, inHand := none, replies := [], reports := [], transmission := none,
    cache := Table.const none, openCache := none, crcErrors := 0, gapErrors := 0, busyReplies := 0,
    breaks := 0 }

/-- R174: no list, count or timer; the sequence a session opens with is 1. -/
def ReportLists.reset : ReportLists :=
  { nextSeq := 1, held := [], outstanding := [], dropped := 0, torn := false }

/-- The machine after a power-on reset with no module fitted, the trigger lines LOW, HALT released, both
links marking and LINKRATE open (R21, R39, R62, R86, R87, R101, R106, R108, R114, R132, R134, R162, R163,
R174; the lines: assumption 5). -/
def State.reset : State :=
  { clock := { rig := 0, uptime := 0, lateMargin := 500 }
    claims := { channels := Table.const none, waits := [], haltEntry := none }
    assembler := { openSets := Table.const none, poolFree := 512 }
    schedule := { sets := [], ready := [], nextId := 1, lastSeal := 0, armed := Table.const false }
    cycles := Table.const none
    engine := { work := none, captures := [], takes := 0, entries := 0 }
    trigger :=
      { trig0 := TrigRec.reset .low, trig1 := TrigRec.reset .low
        sync := { polarity := .activeHigh, width := 10, pulse := none, count := 0, level := .low }
        halted := none, monitor := .released }
    slots := Table.const Slot.reset
    bus := Bus.reset
    modules := Table.const Module.off
    sessions := { records := Table.const none, opened := 0, resetPending := none, resetDue := false }
    reports := { lists := Table.const ReportLists.reset, nextUid := 0 }
    linkA := Link.reset
    linkB := Link.reset
    notices := []
    free := 0
    pending := [] }

end Sys2Proof.Machine
end

