-- ==== Sys2Proof/Machine/Operands.lean ====
section
/-! DEFINITION. Operand forms: from the bytes of a frame body to the values of the spec
(spec/12_message_formats.md: field encodings, enumerations, R185, R186). -/

namespace Sys2Proof.Machine

/-! ### Fields -/

/-- A flag byte: 0 no, 1 yes. -/
def flagOf (b : Byte) : Option Bool :=
  if b = 0 then some false else if b = 1 then some true else none

/-- A flag byte that R186 has already checked. -/
def flagSet (b : Byte) : Bool := b = 1

/-- A channel number, 0 to 31. -/
def chanOf (b : Byte) : Option ChanIx :=
  if h : b.toNat < 32 then some ⟨b.toNat, h⟩ else none

/-- A slot number, 0 to 3. -/
def slotOf (b : Byte) : Option SlotIx :=
  if h : b.toNat < 4 then some ⟨b.toNat, h⟩ else none

/-- A session number, 1 to 4, as a record's index. -/
def sessionOf (b : Byte) : Option SessionIx :=
  if h : b.toNat - 1 < 4 then if b = 0 then none else some ⟨b.toNat - 1, h⟩ else none

/-- The session number of a record. -/
def sessionNumber (n : SessionIx) : Nat := n.val + 1

/-- A signed 16-bit count. -/
def signed (h : Half) : Int := h.toInt

/-- The slot of a channel: n div 8. -/
def slotOfChan (c : ChanIx) : SlotIx := ⟨c.val / 8, by omega⟩

/-- The index of a channel on its slot's module: n mod 8. -/
def indexOfChan (c : ChanIx) : Nat := c.val % 8

/-- The channel at an index of a slot. -/
def chanAt (k : SlotIx) (i : Fin 8) : ChanIx := ⟨k.val * 8 + i.val, by omega⟩

/-! ### Enumerations -/

def roleOf (b : Byte) : Option Role :=
  match b.toNat with
  | 0 => some .control
  | 1 => some .observe
  | _ => none

def linkOf (b : Byte) : Option LinkId :=
  match b.toNat with
  | 0 => some .a
  | 1 => some .b
  | _ => none

def lossPolicyOf (b : Byte) : Option LossPolicy :=
  match b.toNat with
  | 0 => some .hold
  | 1 => some .safe
  | _ => none

def latePolicyOf (b : Byte) : Option LatePolicy :=
  match b.toNat with
  | 0 => some .apply
  | 1 => some .discard
  | _ => none

def channelKindOf (b : Byte) : Option ChannelKind :=
  match b.toNat with
  | 0 => some .voltage
  | 1 => some .current
  | 2 => some .digital
  | _ => none

def stopKindOf (b : Byte) : Option StopKind :=
  match b.toNat with
  | 0 => some .afterPass
  | 1 => some .now
  | _ => none

def trigLineOf (b : Byte) : Option TrigLine :=
  match b.toNat with
  | 0 => some .trig0
  | 1 => some .trig1
  | _ => none

def edgeOf (b : Byte) : Option Edge :=
  match b.toNat with
  | 0 => some .rising
  | 1 => some .falling
  | 2 => some .both
  | _ => none

def debounceOf (b : Byte) : Option Debounce :=
  match b.toNat with
  | 0 => some .off
  | 1 => some .us5
  | 2 => some .us50
  | 3 => some .us500
  | 4 => some .ms5
  | _ => none

def polarityOf (b : Byte) : Option Polarity :=
  match b.toNat with
  | 0 => some .activeHigh
  | 1 => some .activeLow
  | _ => none

def resetKindOf (b : Byte) : Option ResetKind :=
  match b.toNat with
  | 0 => some .hold
  | 1 => some .drop
  | _ => none

/-- The modes of SET_LIST (R58). -/
inductive ListMode
  | summary
  | one
  | openSet
deriving DecidableEq, Repr

def listModeOf (b : Byte) : Option ListMode :=
  match b.toNat with
  | 0 => some .summary
  | 1 => some .one
  | 2 => some .openSet
  | _ => none

/-- R23: the due kind code with the fields that belong to it; the other fields are ignored. -/
def dueOf (kind : Byte) (time : Time) (predecessor : Half) (delay offset : Long) : Option Due :=
  match kind.toNat with
  | 0 => some .now
  | 1 => some (.atTime time.toNat)
  | 2 => some (.after predecessor.toNat delay.toNat)
  | 3 => some (.trigger .trig0)
  | 4 => some (.trigger .trig1)
  | 5 => some (.offset offset.toNat)
  | _ => none

/-! ### Settings of a session -/

/-- The settings a SESSION_OPEN or SESSION_CONFIG gives; none is absent. -/
structure Settings where
  name : Option (List Byte)
  lease : Option Nat
  quota : Option Nat
  lowMark : Option Nat
  retry : Option Nat
  slotChange : Option Bool
  haltChange : Option Bool
  sessionLost : Option Bool
  deviation : Option Bool
deriving DecidableEq, Repr

/-- The characters of a name field. -/
def nameOf (n : RawName) : List Byte := n.chars.toList.take n.len.toNat

/-- An optional field that R186 has already checked. -/
def present {α β : Type} (o : Opt α) (f : α → β) : Option β :=
  if o.presence = 1 then some (f o.value) else none

def settingsOf (r : RawSettings) : Settings :=
  { name := present r.name nameOf
    lease := present r.lease BitVec.toNat
    quota := present r.quota BitVec.toNat
    lowMark := present r.lowMark BitVec.toNat
    retry := present r.retry BitVec.toNat
    slotChange := present r.slotChange flagSet
    haltChange := present r.haltChange flagSet
    sessionLost := present r.sessionLost flagSet
    deviation := present r.deviation flagSet }

/-- The ranges of the session record (09_sessions.md) for every setting present. -/
def settingsInRange (t : Settings) : Bool :=
  t.lease.all (fun v => 100 ≤ v && v ≤ 60000) &&
  t.quota.all (fun v => v ≤ 512) &&
  t.lowMark.all (fun v => v ≤ 64) &&
  t.retry.all (fun v => 20 ≤ v && v ≤ 2000)

/-! ### R186: the encoding check -/

/-- A presence byte is 0 or 1, and the field, when present, passes its own check. -/
def optOk {α : Type} (o : Opt α) (ok : α → Bool) : Bool :=
  o.presence = 0 || (o.presence = 1 && ok o.value)

/-- R186: a name's length byte is at most 8 and its characters lie in 0x20 to 0x7E. -/
def nameOk (n : RawName) : Bool :=
  n.len.toNat ≤ 8 && (nameOf n).all (fun c => 0x20 ≤ c.toNat && c.toNat ≤ 0x7E)

def settingsOk (r : RawSettings) : Bool :=
  optOk r.name nameOk && optOk r.lease (fun _ => true) && optOk r.quota (fun _ => true) &&
  optOk r.lowMark (fun _ => true) && optOk r.retry (fun _ => true) &&
  optOk r.slotChange (fun b => (flagOf b).isSome) && optOk r.haltChange (fun b => (flagOf b).isSome) &&
  optOk r.sessionLost (fun b => (flagOf b).isSome) && optOk r.deviation (fun b => (flagOf b).isSome)

/-- R186: every presence byte, flag, enumeration and name the request uses holds a value of its kind. -/
def encodingOk (r : Request) : Bool :=
  match r with
  | .sessionOpen role st => (roleOf role).isSome && settingsOk st
  | .sessionConfig st => settingsOk st
  | .deviceReset kind => (resetKindOf kind).isSome
  | .linkStatus link clear => (linkOf link).isSome && (flagOf clear).isSome
  | .claim _ _ policy _ => (lossPolicyOf policy).isSome
  | .release _ _ toSafe force => (flagOf toSafe).isSome && (flagOf force).isSome
  | .setOpen kind late capture sync _ _ _ _ =>
      decide (kind.toNat ≤ 5) && (latePolicyOf late).isSome && (flagOf capture).isSome && (flagOf sync).isSome
  | .setAdd sealFlag _ => (flagOf sealFlag).isSome
  | .setList mode _ _ _ => (listModeOf mode).isSome
  | .cycleStop kind => (stopKindOf kind).isSome
  | .triggerConfig line enabled edge debounce clear =>
      (trigLineOf line).isSome && (flagOf enabled).isSome && (edgeOf edge).isSome &&
      (debounceOf debounce).isSome && (flagOf clear).isSome
  | .syncConfig polarity _ => (polarityOf polarity).isSome
  | .sessionClose | .deviceStatus | .deviceConfig _ | .timeGet | .timeSet _ | .channelRead _ _
  | .channelConfig _ _ _ _ | .readback _ _ | .setDiscard | .setCancel _ | .cycleBegin _ _ _ | .cycleEnd
  | .cycleStatus _ _ | .triggerStatus | .haltNow | .resume | .slotStatus _ | .slotDisable _
  | .slotEnable _ | .slotReset _ => true

/-! ### Kinds, roles and parsing -/

/-- The kind code of a request (12_message_formats.md). -/
def kindOf (r : Request) : Byte :=
  match r with
  | .sessionOpen _ _ => 0x01
  | .sessionClose => 0x02
  | .sessionConfig _ => 0x03
  | .deviceStatus => 0x04
  | .deviceConfig _ => 0x05
  | .deviceReset _ => 0x06
  | .linkStatus _ _ => 0x07
  | .timeGet => 0x08
  | .timeSet _ => 0x09
  | .claim _ _ _ _ => 0x10
  | .release _ _ _ _ => 0x11
  | .channelRead _ _ => 0x12
  | .channelConfig _ _ _ _ => 0x13
  | .readback _ _ => 0x14
  | .setOpen _ _ _ _ _ _ _ _ => 0x20
  | .setAdd _ _ => 0x21
  | .setDiscard => 0x22
  | .setCancel _ => 0x23
  | .setList _ _ _ _ => 0x24
  | .cycleBegin _ _ _ => 0x28
  | .cycleEnd => 0x29
  | .cycleStop _ => 0x2A
  | .cycleStatus _ _ => 0x2B
  | .triggerConfig _ _ _ _ _ => 0x30
  | .syncConfig _ _ => 0x31
  | .triggerStatus => 0x32
  | .haltNow => 0x33
  | .resume => 0x34
  | .slotStatus _ => 0x38
  | .slotDisable _ => 0x39
  | .slotEnable _ => 0x3A
  | .slotReset _ => 0x3B

/-- R150: the kinds an OBSERVE session may send (SESSION_OPEN comes before there is a role). -/
def observeMaySend (r : Request) : Bool :=
  match r with
  | .sessionOpen _ _ | .sessionClose | .sessionConfig _ | .deviceStatus | .linkStatus _ _ | .timeGet
  | .channelRead _ _ | .readback _ _ | .setList _ _ _ _ | .cycleStatus _ _ | .triggerStatus
  | .slotStatus _ => true
  | .deviceConfig _ | .deviceReset _ | .timeSet _ | .claim _ _ _ _ | .release _ _ _ _
  | .channelConfig _ _ _ _ | .setOpen _ _ _ _ _ _ _ _ | .setAdd _ _ | .setDiscard | .setCancel _
  | .cycleBegin _ _ _ | .cycleEnd | .cycleStop _ | .triggerConfig _ _ _ _ _ | .syncConfig _ _
  | .haltNow | .resume | .slotDisable _ | .slotEnable _ | .slotReset _ => false

/-- The byte at an offset. -/
def rd8 (b : List Byte) (i : Nat) : Byte := b.getD i 0
/-- Two bytes, high byte first. -/
def rd16 (b : List Byte) (i : Nat) : Half := rd8 b i ++ rd8 b (i + 1)
/-- Four bytes, high byte first. -/
def rd32 (b : List Byte) (i : Nat) : Long := rd16 b i ++ rd16 b (i + 2)
/-- Six bytes, high byte first. -/
def rd48 (b : List Byte) (i : Nat) : Time := rd16 b i ++ rd32 b (i + 2)

/-- The settings of a body from an offset on (29 bytes). -/
def rdSettings (b : List Byte) (i : Nat) : RawSettings :=
  { name := ⟨rd8 b i, { len := rd8 b (i + 1), chars := Table.tab fun k => rd8 b (i + 2 + k.val) }⟩
    lease := ⟨rd8 b (i + 10), rd16 b (i + 11)⟩
    quota := ⟨rd8 b (i + 13), rd16 b (i + 14)⟩
    lowMark := ⟨rd8 b (i + 16), rd8 b (i + 17)⟩
    retry := ⟨rd8 b (i + 18), rd16 b (i + 19)⟩
    slotChange := ⟨rd8 b (i + 21), rd8 b (i + 22)⟩
    haltChange := ⟨rd8 b (i + 23), rd8 b (i + 24)⟩
    sessionLost := ⟨rd8 b (i + 25), rd8 b (i + 26)⟩
    deviation := ⟨rd8 b (i + 27), rd8 b (i + 28)⟩ }

/-- `n` items of five bytes from an offset on. -/
def rdItems (b : List Byte) (n : Nat) (i : Nat) : List RawItem :=
  (List.range n).map fun k =>
    { channel := rd8 b (i + 5 * k), target := rd16 b (i + 5 * k + 1), ramp := rd16 b (i + 5 * k + 3) }

/-- What steps 1 and 2 of R169 make of a kind and a body. -/
inductive Parsed
  | unknownKind
  | badLength
  | request (r : Request)
deriving DecidableEq, Repr

/-- R185: a body of the required length is the request, any other length is refused. -/
def ofLength (b : List Byte) (n : Nat) (r : Request) : Parsed :=
  if b.length = n then .request r else .badLength

/-- R169 steps 1 and 2 with R185. -/
def parseRequest (kind : Byte) (b : List Byte) : Parsed :=
  match kind.toNat with
  | 0x01 => ofLength b 30 (.sessionOpen (rd8 b 0) (rdSettings b 1))
  | 0x02 => ofLength b 0 .sessionClose
  | 0x03 => ofLength b 29 (.sessionConfig (rdSettings b 0))
  | 0x04 => ofLength b 0 .deviceStatus
  | 0x05 => ofLength b 2 (.deviceConfig (rd16 b 0))
  | 0x06 => ofLength b 1 (.deviceReset (rd8 b 0))
  | 0x07 => ofLength b 2 (.linkStatus (rd8 b 0) (rd8 b 1))
  | 0x08 => ofLength b 0 .timeGet
  | 0x09 => ofLength b 6 (.timeSet (rd48 b 0))
  | 0x10 => ofLength b 5 (.claim (rd8 b 0) (rd8 b 1) (rd8 b 2) (rd16 b 3))
  | 0x11 => ofLength b 4 (.release (rd8 b 0) (rd8 b 1) (rd8 b 2) (rd8 b 3))
  | 0x12 => ofLength b 2 (.channelRead (rd8 b 0) (rd8 b 1))
  | 0x13 => ofLength b 7 (.channelConfig (rd8 b 0) (rd16 b 1) (rd16 b 3) (rd16 b 5))
  | 0x14 => ofLength b 2 (.readback (rd8 b 0) (rd8 b 1))
  | 0x20 => ofLength b 20 (.setOpen (rd8 b 0) (rd8 b 1) (rd8 b 2) (rd8 b 3) (rd48 b 4) (rd16 b 10)
      (rd32 b 12) (rd32 b 16))
  | 0x21 =>
      if b = [] then .badLength
      else ofLength b (2 + 5 * (rd8 b 0).toNat) (.setAdd (rd8 b 1) (rdItems b (rd8 b 0).toNat 2))
  | 0x22 => ofLength b 0 .setDiscard
  | 0x23 => ofLength b 2 (.setCancel (rd16 b 0))
  | 0x24 => ofLength b 8 (.setList (rd8 b 0) (rd8 b 1) (rd32 b 2) (rd16 b 6))
  | 0x28 => ofLength b 14 (.cycleBegin (rd48 b 0) (rd32 b 6) (rd32 b 10))
  | 0x29 => ofLength b 0 .cycleEnd
  | 0x2A => ofLength b 1 (.cycleStop (rd8 b 0))
  | 0x2B => ofLength b 2 (.cycleStatus (rd8 b 0) (rd8 b 1))
  | 0x30 => ofLength b 5 (.triggerConfig (rd8 b 0) (rd8 b 1) (rd8 b 2) (rd8 b 3) (rd8 b 4))
  | 0x31 => ofLength b 3 (.syncConfig (rd8 b 0) (rd16 b 1))
  | 0x32 => ofLength b 0 .triggerStatus
  | 0x33 => ofLength b 0 .haltNow
  | 0x34 => ofLength b 0 .resume
  | 0x38 => ofLength b 1 (.slotStatus (rd8 b 0))
  | 0x39 => ofLength b 1 (.slotDisable (rd8 b 0))
  | 0x3A => ofLength b 1 (.slotEnable (rd8 b 0))
  | 0x3B => ofLength b 1 (.slotReset (rd8 b 0))
  | _ => .unknownKind

/-! ### Descriptors (R145, R124) -/

/-- Whether bytes sum to 0 modulo 256 (R137, R124). -/
def sumsToZero (b : List Byte) : Bool := b.foldl (· + ·) 0 == 0

/-- Channel entry i of a descriptor as sent. -/
def rdEntry (b : List Byte) (i : Nat) : DescEntry :=
  { kind := rd8 b (8 + 11 * i), lower := signed (rd16 b (9 + 11 * i)),
    upper := signed (rd16 b (11 + 11 * i)), safe := signed (rd16 b (13 + 11 * i)),
    tolerance := (rd16 b (15 + 11 * i)).toNat, settle := (rd16 b (17 + 11 * i)).toNat }

/-- R124: kind known, lower ≤ safe ≤ upper, a DIGITAL channel limited to 0 and 1, tolerance 0 to 32767. -/
def entryOk (e : DescEntry) : Bool :=
  (channelKindOf e.kind).isSome && decide (e.lower ≤ e.safe) && decide (e.safe ≤ e.upper) &&
  (e.kind.toNat != 2 || (decide (e.lower = 0) && decide (e.upper = 1))) && decide (e.tolerance ≤ 32767)

/-- R145: the rail a family rail code stands for. -/
def railOfCode (b : Byte) : Option Rail :=
  match b.toNat with
  | 0 => some .v12
  | 1 => some .v24
  | _ => none

/-- R145, R124: the descriptor read from its 97 bytes on a rail, with its mark. Entries at or above the
count are not kept, and no more than 8 are (R124, R130). -/
def readDescriptor (b : List Byte) (rail : Option Rail) : Descriptor :=
  let count := (rd8 b 7).toNat
  let entries := (List.range (min count 8)).map (rdEntry b)
  { railCode := rd8 b 0, model := (rd16 b 1).toNat, serial := (rd32 b 3).toNat, count := count
    entries := entries
    valid := sumsToZero b && decide (1 ≤ count) && decide (count ≤ 8) &&
      decide (railOfCode (rd8 b 0) = rail ∧ rail ≠ none) && entries.all entryOk }

end Sys2Proof.Machine
end

