-- ==== Sys2Proof/Machine/Wire.lean ====
section
/-! DEFINITION. From values to bytes: field encodings, codes, frames with their CRC, report bodies and
module-bus requests (spec/12_message_formats.md R183, R184, R187; spec/08_the_module_bus.md R145). -/

namespace Sys2Proof.Machine

/-! ### Fields -/

/-- One byte. -/
def u8 (n : Nat) : List Byte := [BitVec.ofNat 8 n]
/-- Two bytes, high byte first. -/
def u16 (n : Nat) : List Byte := u8 (n / 256) ++ u8 n
/-- Four bytes. -/
def u32 (n : Nat) : List Byte := u16 (n / 65536) ++ u16 n
/-- Six bytes. -/
def u48 (n : Nat) : List Byte := u16 (n / 4294967296) ++ u32 n
/-- A signed 16-bit count in two's complement. -/
def i16 (v : Int) : List Byte := u16 (BitVec.ofInt 16 v).toNat
/-- A flag byte. -/
def wFlag (b : Bool) : List Byte := u8 (if b then 1 else 0)
/-- R184: an optional field keeps its place; its bytes are 0 when it is absent. -/
def wOpt {α : Type} (size : Nat) (enc : α → List Byte) (o : Option α) : List Byte :=
  match o with
  | some x => u8 1 ++ enc x
  | none => u8 0 ++ List.replicate size 0
/-- R184: a list is a count byte and its entries; no filler follows them (assumption 55). -/
def wList {α : Type} (enc : α → List Byte) (xs : List α) : List Byte :=
  u8 xs.length ++ xs.flatMap enc
/-- A name: its length and eight characters, 0 beyond the length (R187). -/
def wName (n : List Byte) : List Byte := u8 n.length ++ n ++ List.replicate (8 - n.length) 0

/-! ### Codes of the enumerations -/

def linkCode (l : LinkId) : Nat := match l with | .a => 0 | .b => 1
def roleCode (r : Role) : Nat := match r with | .control => 0 | .observe => 1
def lossPolicyCode (p : LossPolicy) : Nat := match p with | .hold => 0 | .safe => 1
def channelKindCode (k : ChannelKind) : Nat :=
  match k with | .voltage => 0 | .current => 1 | .digital => 2
def dueKindCode (d : Due) : Nat :=
  match d with
  | .now => 0 | .atTime _ => 1 | .after _ _ => 2 | .trigger .trig0 => 3 | .trigger .trig1 => 4
  | .offset _ => 5
def latePolicyCode (p : LatePolicy) : Nat := match p with | .apply => 0 | .discard => 1
def setStateCode (s : SetState) : Nat :=
  match s with | .pending => 0 | .due => 1 | .applying => 2 | .parked => 3
def setOutcomeCode (o : SetOutcome) : Nat :=
  match o with | .applied => 0 | .failed => 1 | .cancelled => 2 | .discarded => 3
def captureResultCode (r : CaptureResult) : Nat :=
  match r with | .value => 0 | .superseded => 1 | .absent => 2 | .halted => 3 | .full => 4
def claimOutcomeCode (o : ClaimOutcome) : Nat :=
  match o with | .granted => 0 | .waiting => 1 | .timeout => 2 | .absent => 3
def cycleStateCode (c : Option Cycle) : Nat :=
  match c with
  | none => 0
  | some k => match k.phase with | .building => 1 | .running => 2 | .stopping _ => 3
def stopKindCode (k : StopKind) : Nat := match k with | .afterPass => 0 | .now => 1
def cycleEndCode (r : CycleEndReason) : Nat :=
  match r with
  | .complete => 0 | .stopped => 1 | .memberFailed => 2 | .memberCancelled => 3 | .halted => 4
def edgeCode (e : Edge) : Nat := match e with | .rising => 0 | .falling => 1 | .both => 2
def debounceCode (d : Debounce) : Nat :=
  match d with | .off => 0 | .us5 => 1 | .us50 => 2 | .us500 => 3 | .ms5 => 4
def polarityCode (p : Polarity) : Nat := match p with | .activeHigh => 0 | .activeLow => 1
def levelCode (l : Level) : Nat := match l with | .low => 0 | .high => 1
def haltCauseCode (c : HaltCause) : Nat := match c with | .line => 0 | .request _ => 1 | .reset => 2
def monitorCode (m : Monitor) : Nat :=
  match m with | .released => 0 | .qualifying _ => 1 | .asserted => 2
def resetKindCode (k : ResetKind) : Nat := match k with | .hold => 0 | .drop => 1
def slotStateCode (s : SlotState) : Nat :=
  match s with
  | .empty => 0 | .settling => 1 | .powering => 2 | .identifying => 3 | .ready => 4 | .fault => 5
  | .disabled => 6
def readingCode (r : Reading) : Nat :=
  match r with | .vacant => 0 | .partialSeat => 1 | .seatedLow => 2 | .seatedHigh => 3
def railCode (r : Rail) : Nat := match r with | .v12 => 0 | .v24 => 1
def faultCode (f : FaultReason) : Nat :=
  match f with
  | .misseated => 0 | .noPower => 1 | .overcurrent => 2 | .badDescriptor => 3 | .noReply => 4
def endingCode (c : EndingCause) : Nat :=
  match c with | .close => 0 | .lease => 1 | .reportTimeout => 2 | .linkBreak => 3
def engineCode (w : Option Work) : Nat :=
  match w with
  | none => 0
  | some k => match k.phase with | .staging => 1 | .committing => 2 | .withdrawing => 3 | .recording => 4
def receiverCode (r : Receiver) : Nat := match r with | .hunt => 0 | .frame _ _ => 1 | .lineBreak => 2
def txnCode (t : Txn) : Nat :=
  match t with
  | .describe _ _ => 1 | .stage _ _ _ => 2 | .readback _ _ _ => 3 | .driveSafe _ _ => 4
  | .abandon => 5 | .safeAll => 6

/-- The reason codes of REFUSED replies. -/
def reasonCode (r : Reason) : Nat :=
  match r with
  | .unknownKind => 0x01 | .badLength => 0x02 | .badField => 0x03 | .noSession => 0x04 | .role => 0x05
  | .tableFull => 0x07 | .absent => 0x10 | .held => 0x11 | .waitListFull => 0x12 | .notOwned => 0x13
  | .inUse => 0x14 | .noOpenSet => 0x20 | .setAlreadyOpen => 0x21 | .duplicateChannel => 0x22
  | .outOfLimits => 0x23 | .poolFull => 0x24 | .quota => 0x25 | .scheduleFull => 0x26
  | .emptySet => 0x27 | .spoiled => 0x28 | .predecessor => 0x29 | .noSuchSet => 0x2A
  | .tooLate => 0x2B | .halted => 0x30 | .lineAsserted => 0x31 | .cycleState => 0x32
  | .timeInUse => 0x33 | .slotState => 0x34 | .lineInUse => 0x35 | .captureFull => 0x36

/-- The result reason codes. -/
def resultReasonCode (r : ResultReason) : Nat :=
  match r with
  | .halted => 0x30 | .moduleNoReply => 0x40 | .slotLost => 0x41 | .byRequest => 0x42
  | .channelReleased => 0x43 | .channelAbsent => 0x44 | .chainBroken => 0x45 | .cycleStopped => 0x46
  | .late => 0x47

/-! ### Frames -/

/-- R183: one bit of the CRC, polynomial x^16 + x^12 + x^5 + 1. -/
def crcBit (c : Half) : Half := if c.msb then (c <<< 1) ^^^ 0x1021 else c <<< 1

/-- R183: one byte enters the CRC, most significant bit first. -/
def crcByte (c : Half) (b : Byte) : Half :=
  crcBit (crcBit (crcBit (crcBit (crcBit (crcBit (crcBit (crcBit (c ^^^ (b ++ (0 : Byte))))))))))

/-- R183: the CRC of bytes, initial value 0xFFFF. -/
def crc16 (b : List Byte) : Half := b.foldl crcByte 0xFFFF

/-- R183: a whole frame of a class, kind, session and sequence around a body. -/
def frameBytes (cls : Nat) (kind : Byte) (session : Byte) (seq : Nat) (body : List Byte) : List Byte :=
  let inner := u8 (5 + body.length) ++ u8 cls ++ [kind, session] ++ u16 seq ++ body
  u8 0xD5 ++ inner ++ u16 (crc16 inner).toNat

/-- The reply envelope: outcome, reason, result body. -/
def replyBody (r : Reply) : List Byte :=
  u8 (match r.outcome with | .done => 0 | .refused => 1 | .busy => 2) ++
  u8 (match r.reason with | some x => reasonCode x | none => 0) ++ r.body

/-- The kind code of a report. -/
def reportKind (r : Report) : Byte :=
  match r with
  | .setResult _ => 0x41 | .capture _ => 0x42 | .claimResult _ => 0x43 | .cycleChange _ => 0x44
  | .queueLow _ _ => 0x45 | .slotChange _ => 0x50 | .haltChange _ => 0x51 | .sessionLost _ => 0x52
  | .deviation _ => 0x53 | .overrun _ _ => 0x5F

/-- The session a halt cause names, 0 when it names none. -/
def haltSession (c : HaltCause) : Nat :=
  match c with | .request n => sessionNumber n | .line => 0 | .reset => 0

/-- The report bodies of 12_message_formats.md. -/
def reportBody (r : Report) : List Byte :=
  match r with
  | .setResult x =>
      u16 x.setId ++ u32 x.sealNo ++ u8 (setOutcomeCode x.outcome) ++
      wOpt 1 (fun v => u8 (resultReasonCode v)) x.reason ++ u32 x.pass ++ wFlag x.parked ++
      wOpt 6 u48 x.dueTime ++ wOpt 6 u48 x.commitTime ++ wOpt 4 u32 x.lateness ++ u48 x.eventTime
  | .capture x =>
      u16 x.setId ++ u16 x.tag ++ u48 x.refTime ++ u48 x.captureTime ++
      wList (fun i => u8 i.channel.val ++ u8 (captureResultCode i.result) ++
        (if i.result = .value then i16 i.value else u16 0)) x.items
  | .claimResult x =>
      u8 (claimOutcomeCode x.outcome) ++ u8 x.first.val ++ u8 x.last.val ++ u16 x.seq ++
      wOpt 1 (fun c : ChanIx => u8 c.val) x.lost
  | .cycleChange x =>
      u8 0 ++ u8 (cycleEndCode x.reason) ++ wOpt 2 (fun m : Nat × ResultReason => u16 m.1) x.member ++
      wOpt 1 (fun m : Nat × ResultReason => u8 (resultReasonCode m.2)) x.member ++ u48 x.firstStart ++
      u32 x.period ++ u32 x.repeats ++ u32 x.begun ++ wOpt 6 u48 x.lastStart ++ u8 x.members ++
      u48 x.eventTime
  | .queueLow count mark => u8 count ++ u8 mark
  | .slotChange x =>
      u8 x.slot.val ++ u8 (slotStateCode x.state) ++ u8 (slotStateCode x.previous) ++
      u8 (readingCode x.reading) ++ wOpt 1 (fun f => u8 (faultCode f)) x.fault ++
      wOpt 1 (fun f => u8 (railCode f)) x.rail ++ wOpt 1 wFlag x.held ++
      wOpt 7 (fun m : Nat × Nat × Nat => u16 m.1 ++ u32 m.2.1 ++ u8 m.2.2) x.summary ++ u48 x.eventTime
  | .haltChange x =>
      u8 (if x.cause.isSome then 0 else 1) ++ wOpt 1 (fun c => u8 (haltCauseCode c)) x.cause ++
      u8 (match x.session with | some n => sessionNumber n | none => 0) ++ u48 x.eventTime
  | .sessionLost x =>
      u8 (sessionNumber x.session) ++ u8 (endingCode x.cause) ++ u8 (linkCode x.link) ++
      u8 (roleCode x.role) ++ wName x.name ++ u48 x.eventTime
  | .deviation x =>
      u8 x.channel.val ++ u16 x.setId ++ i16 x.target ++ i16 x.read ++ u16 x.tolerance ++ u48 x.readTime
  | .overrun dropped time => u16 dropped ++ u48 time

/-- The bytes of a frame the part sends (R183). -/
def outBytes (f : OutFrame) : List Byte :=
  match f with
  | .reply r => frameBytes 2 r.kind r.session r.seq.toNat (replyBody r)
  | .report r =>
      frameBytes 3 (reportKind r.report) (BitVec.ofNat 8 (sessionNumber r.session)) r.seq
        (reportBody r.report)

/-! ### Request bodies -/

/-- A two-byte field as bytes. -/
def wHalf (h : Half) : List Byte := [h.extractLsb' 8 8, h.extractLsb' 0 8]
/-- A four-byte field as bytes. -/
def wLong (v : Long) : List Byte := wHalf (v.extractLsb' 16 16) ++ wHalf (v.extractLsb' 0 16)
/-- A rig time as bytes. -/
def wTime (v : Time) : List Byte := wHalf (v.extractLsb' 32 16) ++ wLong (v.extractLsb' 0 32)

/-- R184: an optional field of a request, with whatever bytes it carries. -/
def wOptRaw {α : Type} (enc : α → List Byte) (o : Opt α) : List Byte := o.presence :: enc o.value

/-- A name field as bytes. -/
def wRawName (n : RawName) : List Byte := n.len :: n.chars.toList

/-- The settings of a SESSION_OPEN or SESSION_CONFIG as bytes. -/
def wSettings (t : RawSettings) : List Byte :=
  wOptRaw wRawName t.name ++ wOptRaw wHalf t.lease ++ wOptRaw wHalf t.quota ++
  wOptRaw (fun b => [b]) t.lowMark ++ wOptRaw wHalf t.retry ++ wOptRaw (fun b => [b]) t.slotChange ++
  wOptRaw (fun b => [b]) t.haltChange ++ wOptRaw (fun b => [b]) t.sessionLost ++
  wOptRaw (fun b => [b]) t.deviation

/-- An item as bytes. -/
def wItem (i : RawItem) : List Byte := i.channel :: (wHalf i.target ++ wHalf i.ramp)

/-- The body of a request (the request tables of 12_message_formats.md): what a host sends. -/
def requestBody (r : Request) : List Byte :=
  match r with
  | .sessionOpen role t => role :: wSettings t
  | .sessionClose => []
  | .sessionConfig t => wSettings t
  | .deviceStatus => []
  | .deviceConfig margin => wHalf margin
  | .deviceReset kind => [kind]
  | .linkStatus link clear => [link, clear]
  | .timeGet => []
  | .timeSet time => wTime time
  | .claim first last policy wait => [first, last, policy] ++ wHalf wait
  | .release first last toSafe force => [first, last, toSafe, force]
  | .channelRead first last => [first, last]
  | .channelConfig channel lower upper safe => channel :: (wHalf lower ++ wHalf upper ++ wHalf safe)
  | .readback first last => [first, last]
  | .setOpen kind late capture sync time predecessor delay offset =>
      [kind, late, capture, sync] ++ wTime time ++ wHalf predecessor ++ wLong delay ++ wLong offset
  | .setAdd sealFlag items => BitVec.ofNat 8 items.length :: sealFlag :: items.flatMap wItem
  | .setDiscard => []
  | .setCancel setId => wHalf setId
  | .setList mode session firstSeal setId => [mode, session] ++ wLong firstSeal ++ wHalf setId
  | .cycleBegin first period repeats => wTime first ++ wLong period ++ wLong repeats
  | .cycleEnd => []
  | .cycleStop kind => [kind]
  | .cycleStatus session position => [session, position]
  | .triggerConfig line enabled edge debounce clear => [line, enabled, edge, debounce, clear]
  | .syncConfig polarity width => polarity :: wHalf width
  | .triggerStatus => []
  | .haltNow => []
  | .resume => []
  | .slotStatus slot => [slot]
  | .slotDisable slot => [slot]
  | .slotEnable slot => [slot]
  | .slotReset slot => [slot]

/-- The frame of a request as it goes on the line (R183). -/
def requestFrame (session : Byte) (seq : Half) (r : Request) : List Byte :=
  frameBytes 1 (kindOf r) session seq.toNat (requestBody r)

/-! ### Received frames -/

/-- R164: whether the two CRC bytes of a complete frame agree with the bytes before them. -/
def crcAgrees (b : List Byte) : Bool :=
  crc16 (b.take (b.length - 2)) == rd16 b (b.length - 2)

/-- The header and body of a complete frame, from its length byte on. -/
def readFrame (b : List Byte) : InFrame :=
  { cls := rd8 b 1, kind := rd8 b 2, session := rd8 b 3, seq := rd16 b 4
    body := (b.drop 6).take (b.length - 8) }

/-! ### Module-bus requests (R145) -/

/-- R137: bytes followed by the byte that makes their sum 0 modulo 256. -/
def withCheck (b : List Byte) : List Byte := b ++ [0 - b.foldl (· + ·) 0]

/-- The 32 entries of a SAFE_ALL. -/
def safeAllBytes (vs : List (Option Int)) : List Byte :=
  vs.flatMap fun v => match v with | some x => u8 0 ++ i16 x | none => u8 1 ++ u16 0

/-- The bytes of a request on the module bus; those of a SAFE_ALL are known once its values are. -/
def txnBytes (t : Txn) (vs : Option (List (Option Int))) : List Byte :=
  match t with
  | .describe _ _ => withCheck (u8 0x01)
  | .stage _ _ items =>
      withCheck (u8 0x02 ++ wList (fun i => u8 i.index ++ i16 i.target ++ u16 i.ramp) items)
  | .readback _ _ idx => withCheck (u8 0x03 ++ wList u8 idx)
  | .driveSafe _ vals =>
      withCheck (u8 0x04 ++ wList (fun v : Nat × Int => u8 v.1 ++ i16 v.2) vals)
  | .abandon => withCheck (u8 0x05)
  | .safeAll =>
      match vs with
      | some l => withCheck (u8 0x06 ++ safeAllBytes l)
      | none => []

end Sys2Proof.Machine
end

