-- ==== Sys2Proof/Machine/Ops.lean ====
section
/-! DEFINITION. The operations the blocks share: changing one block's state, clocks, what blocks hand over
to one another, the transmitters, and reports handed over. -/

namespace Sys2Proof.Machine

/-! ### The state with one block's part replaced -/

def State.withClock (s : State) (x : Clock) : State := { s with clock := x }
def State.withClaims (s : State) (x : Claims) : State := { s with claims := x }
def State.withAssembler (s : State) (x : Assembler) : State := { s with assembler := x }
def State.withSchedule (s : State) (x : Schedule) : State := { s with schedule := x }
def State.withCycles (s : State) (x : Table (Option Cycle) 4) : State := { s with cycles := x }
def State.withEngine (s : State) (x : Engine) : State := { s with engine := x }
def State.withTrigger (s : State) (x : Trigger) : State := { s with trigger := x }
def State.withSlots (s : State) (x : Table Slot 4) : State := { s with slots := x }
def State.withBus (s : State) (x : Bus) : State := { s with bus := x }
def State.withModules (s : State) (x : Table Module 4) : State := { s with modules := x }
def State.withSessions (s : State) (x : SessionTable) : State := { s with sessions := x }
def State.withReports (s : State) (x : Reports) : State := { s with reports := x }
def State.withLinkA (s : State) (x : Link) : State := { s with linkA := x }
def State.withLinkB (s : State) (x : Link) : State := { s with linkB := x }
def State.withNotices (s : State) (x : List Notice) : State := { s with notices := x }
def State.withFree (s : State) (x : Nat) : State := { s with free := x }
def State.withPending (s : State) (x : List Instr) : State := { s with pending := x }

/-! ### Records of tables -/

/-- The Link Port of a link. -/
def State.link (s : State) (l : LinkId) : Link :=
  match l with
  | .a => s.linkA
  | .b => s.linkB

/-- The state with the Link Port of a link replaced. -/
def State.withLink (s : State) (l : LinkId) (k : Link) : State :=
  match l with
  | .a => s.withLinkA k
  | .b => s.withLinkB k

/-- A session record, none when CLOSED. -/
def State.session (s : State) (n : SessionIx) : Option Session := s.sessions.records.get n

def State.withSession (s : State) (n : SessionIx) (r : Option Session) : State :=
  s.withSessions { s.sessions with records := s.sessions.records.put n r }

/-- A channel record, none when ABSENT. -/
def State.channel (s : State) (c : ChanIx) : Option Channel := s.claims.channels.get c

def State.withChannels (s : State) (t : Table (Option Channel) 32) : State :=
  s.withClaims { s.claims with channels := t }

def State.withWaits (s : State) (w : List WaitEntry) : State :=
  s.withClaims { s.claims with waits := w }

def State.openSet (s : State) (n : SessionIx) : Option OpenSet := s.assembler.openSets.get n

def State.withOpenSet (s : State) (n : SessionIx) (o : Option OpenSet) : State :=
  s.withAssembler { s.assembler with openSets := s.assembler.openSets.put n o }

def State.cycle (s : State) (n : SessionIx) : Option Cycle := s.cycles.get n

def State.withCycle (s : State) (n : SessionIx) (c : Option Cycle) : State :=
  s.withCycles (s.cycles.put n c)

def State.slot (s : State) (k : SlotIx) : Slot := s.slots.get k

def State.withSlot (s : State) (k : SlotIx) (x : Slot) : State := s.withSlots (s.slots.put k x)

def State.module (s : State) (k : SlotIx) : Module := s.modules.get k

def State.withModule (s : State) (k : SlotIx) (m : Module) : State := s.withModules (s.modules.put k m)

def State.lists (s : State) (n : SessionIx) : ReportLists := s.reports.lists.get n

def State.withLists (s : State) (n : SessionIx) (x : ReportLists) : State :=
  s.withReports { s.reports with lists := s.reports.lists.put n x }

/-- A trigger line's record. -/
def State.trig (s : State) (l : TrigLine) : TrigRec :=
  match l with
  | .trig0 => s.trigger.trig0
  | .trig1 => s.trigger.trig1

def State.withTrig (s : State) (l : TrigLine) (x : TrigRec) : State :=
  match l with
  | .trig0 => s.withTrigger { s.trigger with trig0 := x }
  | .trig1 => s.withTrigger { s.trigger with trig1 := x }

/-- The session numbers in order. -/
def allSessions : List SessionIx := List.finRange 4
/-- The slots in order. -/
def allSlots : List SlotIx := List.finRange 4
/-- The channel numbers in order. -/
def allChannels : List ChanIx := List.finRange 32

/-- Whether a channel lies in a range. -/
def inRange (first last c : ChanIx) : Bool := decide (first ≤ c) && decide (c ≤ last)

/-- Adds one to a 16-bit count that is held at 65535 (R134, R173, R174). -/
def bump (n : Nat) : Nat := min (n + 1) Config.heldCount

/-! ### Time (R59) -/

/-- R59: a computed rig time is held at 2^48 − 1. -/
def capTime (t : Nat) : Nat := min t Config.maxTime

/-- The rig time `us` µs from now. -/
def State.after (s : State) (us : Nat) : Nat := capTime (s.clock.rig + us)

/-- A rig time moved by a TIME_SET's difference; below 0 it is taken as 0, above 2^48 − 1 it is held there
(R59; assumption 33). -/
def shiftTime (d : Int) (t : Nat) : Nat := capTime (Int.toNat (t + d))

/-- Whether rig time has reached a rig time. A timed event given before its time changes nothing
(assumption 32). -/
def State.reached (s : State) (t : Nat) : Bool := t ≤ s.clock.rig

/-- The instant `us` µs from now, on the count TIME_SET does not move (assumption 4). -/
def State.instant (s : State) (us : Nat) : Nat := s.clock.uptime + us

/-- Whether an instant has been reached. -/
def State.elapsed (s : State) (t : Nat) : Bool := t ≤ s.clock.uptime

/-- What passes in one step on an empty queue: 1 µs (assumption 3; R59: rig time stays at 2^48 − 1). -/
def tick (s : State) : State :=
  s.withClock { s.clock with rig := capTime (s.clock.rig + 1), uptime := s.clock.uptime + 1 }

/-! ### What blocks hand over (assumptions 1, 9) -/

/-- The lane along which a notice keeps its place. -/
def noticeLane (n : Notice) : Lane :=
  match n with
  | .haltEntry b _ => .halt b
  | .sessionEnd b n => .sessionEnd b n
  | .teardownAnswer b n => .teardownAnswer b n
  | .claimSessionEnd n => .claimSessionEnd n
  | .recordClose n => .recordClose n
  | .report line _ _ => .report line
  | .frameEnd l _ _ => .frameEnd l
  | .retriesExhausted n _ => .retriesExhausted n
  | .linkBroken l => .linkBroken l
  | .ack l _ _ _ => .ack l
  | .sealAsked n _ _ _ => .sealAsked n
  | .edge line _ _ => .edge line
  | .outcome _ _ _ => .outcome
  | .lostToSchedule _ => .lostToSchedule
  | .lostToAssembler _ => .lostToAssembler
  | .itemsReturn n _ => .itemsReturn n
  | .memberParked n _ => .memberParked n
  | .stageEnd k _ _ => .stageEnd k
  | .engineSlotLost k _ => .engineSlotLost k
  | .commitAnswer _ => .commitAnswer
  | .commitRecords _ _ => .commitRecords
  | .recordsTaken => .recordsTaken
  | .readEnd e k _ => .readEnd e k
  | .captureComplete e => .captureComplete e
  | .slotReady k _ _ => .slotToClaim k
  | .slotLeftReady k => .slotToClaim k
  | .safeAllValues => .safeAllValues
  | .syncCommit _ => .syncCommit
  | .busFailure k => .busToSlot k
  | .describeReply k _ _ => .busToSlot k
  | .heldReply k _ _ => .busToSlot k
  | .busRequest r _ =>
      match r with
      | .applyEngine => .engineToBus
      | .claimUnit => .claimToBus
      | .slotController k => .slotToBus k
  | .commitRequest _ => .engineToBus
  | .withdraw _ => .engineToBus
  | .slotPowered k => .slotToBus k
  | .slotLeftPowered k => .slotToBus k

/-- A notice is handed over. -/
def post (n : Notice) (s : State) : State := s.withNotices (s.notices ++ [n])

/-- Notices are handed over one after the other. -/
def postAll (ns : List Notice) (s : State) : State := s.withNotices (s.notices ++ ns)

/-- The oldest notice of a lane. -/
def headNotice (lane : Lane) (s : State) : Option Notice :=
  s.notices.find? (fun n => noticeLane n = lane)

/-- The oldest notice of a lane is taken away. -/
def dropNotice (lane : Lane) (s : State) : State :=
  s.withNotices (s.notices.eraseP (fun n => noticeLane n = lane))

/-- A block takes the oldest notice of a lane. `f` answers none when that notice is not one this event
takes, or may not be taken yet; then, as when the lane is empty, nothing changes (assumption 1). -/
def onNotice (lane : Lane) (f : Notice → State → Option State) (s : State) : State :=
  match headNotice lane s with
  | none => s
  | some n => (f n (dropNotice lane s)).getD s

/-- Whether a notice has been handed over and not yet taken. -/
def waits (n : Notice) (s : State) : Bool := s.notices.contains n

/-- A report is handed over for a session that is OPEN (R51, R181). -/
def sessionReport (line : ReportLine) (n : SessionIx) (r : Report) (s : State) : State :=
  match s.session n with
  | some k => post (.report line (some (n, k.incarnation)) r) s
  | none => s

/-- A system report is handed over once (R181). -/
def systemReport (line : ReportLine) (r : Report) (s : State) : State :=
  post (.report line none r) s

/-! ### Transmitters (R172) -/

/-- R172: an idle transmitter takes the oldest reply, or, if there is none, the oldest report. -/
def startSending (l : LinkId) (s : State) : State :=
  let k := s.link l
  match k.transmission with
  | some _ => s
  | none =>
    match k.replies with
    | r :: rest =>
        s.withLink l { k with replies := rest, transmission := some ⟨.reply r, outBytes (.reply r)⟩ }
    | [] =>
      match k.reports with
      | f :: rest =>
          s.withLink l { k with reports := rest, transmission := some ⟨.report f, outBytes (.report f)⟩ }
      | [] => s

/-- R169: a reply is placed in the reply queue; with 8 frames there, dispatch waits with it (R161: a
STOPPED dispatch holds it). -/
def placeReply (l : LinkId) (r : Reply) (s : State) : State :=
  let k := s.link l
  if k.replies.length < Config.maxReplies then
    startSending l (s.withLink l { k with replies := k.replies ++ [r] })
  else
    s.withLink l { k with dispatch :=
      match k.dispatch with
      | .stopped _ => .stopped (some r)
      | .ready => .waiting r
      | .waiting _ => .waiting r }

/-- R167, R168: a reply made at reception is placed, or, with 8 frames there, is not made. -/
def placeOrDiscard (l : LinkId) (r : Reply) (s : State) : State :=
  let k := s.link l
  if k.replies.length < Config.maxReplies then
    startSending l (s.withLink l { k with replies := k.replies ++ [r] })
  else s

/-- R169: a held reply moves into the queue once there is room; WAITING becomes READY again (R161: STOPPED stays
STOPPED; assumption 23). -/
def moveHeldReply (l : LinkId) (s : State) : State :=
  let k := s.link l
  if k.replies.length < Config.maxReplies then
    match k.dispatch with
    | .waiting r =>
        startSending l (s.withLink l { k with replies := k.replies ++ [r], dispatch := .ready })
    | .stopped (some r) =>
        startSending l (s.withLink l { k with replies := k.replies ++ [r], dispatch := .stopped none })
    | .ready => s
    | .stopped none => s
  else s

end Sys2Proof.Machine
end

