-- ==== Sys2Proof/Machine/Flags.lean ====
section
/-! DEFINITION. The conditions several blocks look at: the halt state, what a block has been told, and
whether a session is open. -/

namespace Sys2Proof.Machine

/-- The part is HALTED (R109). -/
def State.isHalted (s : State) : Bool := s.trigger.halted.isSome

/-- A halt entry for a block has been handed over and not yet taken. -/
def State.haltWaits (s : State) (b : HaltBlock) : Bool :=
  s.notices.any fun n => noticeLane n = .halt b

/-- The part is HALTED as a block that takes halt entry as an event of its own knows it: it has taken the
entry and has not been told of RESUME (R33, R50, R88; assumption 7). -/
def State.haltedFor (s : State) (b : HaltBlock) : Bool := s.isHalted && !s.haltWaits b

/-- The session is OPEN and its teardown is in progress (R148). -/
def State.isEnding (s : State) (n : SessionIx) : Bool :=
  match s.session n with
  | some r => r.ending.isSome
  | none => false

/-- The session is OPEN and not ending. -/
def State.isServed (s : State) (n : SessionIx) : Bool :=
  match s.session n with
  | some r => r.ending.isNone
  | none => false

/-- The Claim Unit has taken the session's end (R156), and the record is still to be closed. -/
def State.claimsEnded (s : State) (b : EndBlock) (n : SessionIx) : Bool :=
  b = .claimUnit && waits (.recordClose n) s

/-- The session has ended as a block knows it: the block has taken the notice of its end (R155), or, at the
Claim Unit, the session end itself (R156), whichever comes first: from then on nothing is granted to the session
(R1). -/
def State.endedFor (s : State) (b : EndBlock) (n : SessionIx) : Bool :=
  s.isEnding n && (!waits (.sessionEnd b n) s || s.claimsEnded b n)

/-- Some session is OPEN. -/
def State.anyOpen (s : State) : Bool := allSessions.any fun n => (s.session n).isSome

/-- The role of an OPEN session is CONTROL. -/
def State.isControl (s : State) (n : SessionIx) : Bool :=
  match s.session n with
  | some r => r.role = .control
  | none => false

/-- The items in use of a session, 0 when it is CLOSED (R36). -/
def State.itemsInUse (s : State) (n : SessionIx) : Nat :=
  match s.session n with
  | some r => r.inUse
  | none => 0

/-- The items in use of an OPEN session become `f` of what they were. -/
def changeInUse (n : SessionIx) (f : Nat → Nat) (s : State) : State :=
  match s.session n with
  | some r => s.withSession n (some { r with inUse := f r.inUse })
  | none => s

/-- The pool's free count becomes `f` of what it was. -/
def changePool (f : Nat → Nat) (s : State) : State :=
  s.withAssembler { s.assembler with poolFree := f s.assembler.poolFree }

end Sys2Proof.Machine
end

