-- ==== Sys2Proof/Machine/Modules.lean ====
section
/-! DEFINITION. What the part expects a module to do with what reaches it (R65, R73, R142 to R144;
assumption 17). -/

namespace Sys2Proof.Machine

/-- A freshly powered module drives its own stored safe values and holds nothing staged (R2, R65). -/
def Module.fresh : Module := { powered := true, staged := [], drives := Table.const .stored }

/-- R65: a STAGE replaces everything staged. -/
def Module.stage (m : Module) (items : List StageItem) : Module := { m with staged := items }

/-- The output a staged item calls for at the strobe, from what the output does then (R73); instants. -/
def Drive.latch (d : Drive) (i : StageItem) (now : Nat) : Drive :=
  if i.ramp = 0 then .value i.target else .ramp d i.target now (now + i.ramp * 1000)

/-- R73: at the strobe the module latches what it holds staged. -/
def Module.strobe (m : Module) (now : Nat) : Module :=
  { m with
    staged := []
    drives := Table.tab fun j =>
      match m.staged.find? fun i => i.index = j.val with
      | some i => (m.drives.get j).latch i now
      | none => m.drives.get j }

/-- R143: the named channels are driven to the values sent and lose their staged values. -/
def Module.driveSafe (m : Module) (values : List (Nat × Int)) : Module :=
  { m with
    staged := m.staged.filter fun i => !values.any fun v => v.1 = i.index
    drives := Table.tab fun j =>
      match values.find? fun v => v.1 = j.val with
      | some v => .value v.2
      | none => m.drives.get j }

/-- R144. -/
def Module.abandon (m : Module) : Module := { m with staged := [] }

/-- R144: every channel is driven to the value sent for it or to the module's own stored safe value. -/
def Module.safeAll (m : Module) (k : SlotIx) (values : List (Option Int)) : Module :=
  { m with
    staged := []
    drives := Table.tab fun j =>
      match values.getD (k.val * 8 + j.val) none with
      | some v => .value v
      | none => .stored }

/-- R142: a powered module that received the request of an attempt intact carries it out. -/
def moduleCarriesOut (k : SlotIx) (attemptNo : Nat) (f : Module → Module) (s : State) : State :=
  let m := s.module k
  if m.powered && Config.requestHeard attemptNo k then s.withModule k (f m) else s

/-- A broadcast reaches every powered module (R144). -/
def modulesCarryOut (attemptNo : Nat) (f : SlotIx → Module → Module) (s : State) : State :=
  allSlots.foldl (fun t k => moduleCarriesOut k attemptNo (f k) t) s

/-- What the modules do with a transaction as it is sent; a SAFE_ALL is carried out once its values are
known (R138). -/
def transactionReaches (t : Txn) (attemptNo : Nat) (s : State) : State :=
  match t with
  | .stage k _ items => moduleCarriesOut k attemptNo (fun m => m.stage items) s
  | .driveSafe k values => moduleCarriesOut k attemptNo (fun m => m.driveSafe values) s
  | .abandon => modulesCarryOut attemptNo (fun _ m => m.abandon) s
  | .describe _ _ | .readback _ _ _ | .safeAll => s

/-- The COMMIT line is pulsed to every slot (R141, R73). -/
def strobeModules (s : State) : State :=
  s.withModules (Table.tab fun k =>
    if (s.module k).powered then (s.module k).strobe s.clock.uptime else s.module k)

end Sys2Proof.Machine
end

