-- ==== Sys2Proof/Machine/Gate.lean ====
section
/-! DEFINITION. How a request reaches its block and is answered: the steps of R169 with both caches (R170,
R171), the checks made as a block takes a request (R186), and the reply (10_links_and_frames.md). -/

namespace Sys2Proof.Machine

/-! ### Answers -/

/-- What a block answers; `resetReply` marks the answer to the DEVICE_RESET that will be performed (R161). -/
structure Answer where
  outcome : ReplyOutcome
  reason : Option Reason
  body : List Byte
  resetReply : Bool
deriving DecidableEq, Repr

/-- DONE with a result body. -/
def doneWith (body : List Byte) : Answer :=
  { outcome := .done, reason := none, body := body, resetReply := false }

/-- The reply frame: it echoes the request's kind, session field and sequence (R169, R183). -/
def replyTo (h : Header) (kind : Byte) (a : Answer) : Reply :=
  { kind := kind, session := h.session, seq := h.seq, outcome := a.outcome, reason := a.reason
    body := a.body, resetReply := a.resetReply }

/-- The 10-byte refusal detail of SET_ADD. -/
def setAddDetail (n : Option SessionIx) (position : Option Nat) (channel : Option Byte) (taken : Nat)
    (s : State) : List Byte :=
  let held := match n with
    | some i => match s.openSet i with
      | some o => o.items.length
      | none => 0
    | none => 0
  let used := match n with
    | some i => s.itemsInUse i
    | none => 0
  wOpt 1 u8 position ++ wOpt 1 (fun c : Byte => [c]) channel ++ u8 taken ++ u8 held ++ u16 used ++
    u16 s.assembler.poolFree

/-- The session a request names, if it is OPEN on the request's link. -/
def boundSession (h : Header) (s : State) : Option SessionIx :=
  match sessionOf h.session with
  | none => none
  | some n =>
    match s.session n with
    | some r => if r.link = h.link then some n else none
    | none => none

/-- REFUSED, with the detail every refused SET_ADD carries (12_message_formats.md; assumption 21). Refused by the steps
of R169 for a session that is not OPEN on the link, it carries 0 for the session's counts (assumption 54). -/
def refusal (h : Header) (kind : Byte) (reason : Reason) (s : State) : Answer :=
  { outcome := .refused, reason := some reason
    body := if kind = 0x21 then setAddDetail (boundSession h s) none none 0 s else []
    resetReply := false }

/-! ### Steps of R169 -/

/-- R170, R171: the reply is cached: a SESSION_OPEN's in the open cache with the id it gave, any other's as
its session's last request, if the session is OPEN on the link and the Link Port has not yet been told of
its end. -/
def cacheReply (h : Header) (r : Request) (reply : Reply) (opened : Option SessionIx) (s : State) : State :=
  let k := s.link h.link
  let kept := { reply with resetReply := false }
  match r with
  | .sessionOpen _ _ => s.withLink h.link { k with openCache := some ⟨h.seq, kept, opened⟩ }
  | _ =>
    match boundSession h s with
    | none => s
    | some n =>
      if s.endedFor .linkPort n then s
      else s.withLink h.link { k with cache := k.cache.put n (some ⟨h.seq, kept⟩) }

/-- A block's reply at step 7 (or the Session Table's at step 6): the request is no longer in its hands,
and the reply is cached and placed in the reply queue (R169). `opened` is the session a SESSION_OPEN gave. -/
def answerOpened (h : Header) (r : Request) (a : Answer) (opened : Option SessionIx) (s : State) : State :=
  let reply := replyTo h (kindOf r) a
  let s := s.withLink h.link { s.link h.link with inHand := none }
  placeReply h.link reply (cacheReply h r reply opened s)

/-- A block's reply to any request but a SESSION_OPEN. -/
def answer (h : Header) (r : Request) (a : Answer) (s : State) : State := answerOpened h r a none s

/-- A block's refusal. -/
def refuse (h : Header) (r : Request) (reason : Reason) (s : State) : State :=
  answer h r (refusal h (kindOf r) reason s) s

/-- A refusal of steps 1, 2 and 4 of R169, which is not cached. -/
def refuseUncached (h : Header) (kind : Byte) (reason : Reason) (s : State) : State :=
  placeReply h.link (replyTo h kind (refusal h kind reason s)) s

/-- The request is handed to its block, which takes it as an event of its own (step 7). -/
def handOver (h : Header) (r : Request) (s : State) : State :=
  s.withLink h.link { s.link h.link with inHand := some (h, r) }

/-- R171: a SESSION_OPEN is taken through the open cache. -/
def dispatchOpen (h : Header) (r : Request) (s : State) : State :=
  match (s.link h.link).openCache with
  | some e => if e.seq = h.seq then placeReply h.link e.reply s else handOver h r s
  | none => handOver h r s

/-- Steps 4 to 7 of R169. -/
def dispatchBound (h : Header) (r : Request) (s : State) : State :=
  match boundSession h s with
  | none => refuseUncached h (kindOf r) .noSession s
  | some n =>
    if s.isEnding n then refuseUncached h (kindOf r) .noSession s
    else
      let cached := match (s.link h.link).cache.get n with
        | some e => if e.seq = h.seq then some e.reply else none
        | none => none
      match cached with
      | some reply => placeReply h.link reply s
      | none => if s.isControl n || observeMaySend r then handOver h r s else refuse h r .role s

/-- Steps 3 to 7 of R169. -/
def dispatchRequest (h : Header) (r : Request) (s : State) : State :=
  match r with
  | .sessionOpen _ _ => dispatchOpen h r s
  | _ => dispatchBound h r s

/-- The header of a frame received on a link. -/
def headerOf (l : LinkId) (f : InFrame) : Header := { link := l, session := f.session, seq := f.seq }

/-- R169: a frame goes through the steps. -/
def dispatchFrame (l : LinkId) (f : InFrame) (s : State) : State :=
  match parseRequest f.kind f.body with
  | .unknownKind => refuseUncached (headerOf l f) f.kind .unknownKind s
  | .badLength => refuseUncached (headerOf l f) f.kind .badLength s
  | .request r => dispatchRequest (headerOf l f) r s

/-- R169: with dispatch READY and no request in a block's hands, the oldest frame of the input queue is
taken (assumption 8). -/
def dispatchOldest (l : LinkId) (s : State) : State :=
  let k := s.link l
  match k.dispatch, k.inHand, k.input with
  | .ready, none, f :: rest => dispatchFrame l f (s.withLink l { k with input := rest })
  | _, _, _ => s

/-! ### A request at its block -/

/-- R152: the lease of a session that is OPEN, not ending and bound to the link is refreshed. The new deadline counts
from the command that takes the frame, also for a frame that waited complete (assumption 22). -/
def refreshLease (l : LinkId) (session : Byte) (s : State) : State :=
  match sessionOf session with
  | none => s
  | some n =>
    match s.session n with
    | none => s
    | some r =>
      if r.link = l && r.ending.isNone then
        s.withSession n (some { r with deadline := some (s.after (r.lease * 1000)) })
      else s

/-- Whether a frame of the input queue is a given request. -/
def frameIs (f : InFrame) (h : Header) (r : Request) : Bool :=
  f.session = h.session && f.seq = h.seq && decide (parseRequest f.kind f.body = .request r)

/-- A request command whose request is not yet in its block's hands first goes through the steps of R169:
as the oldest frame of its link's input queue, or, with that queue empty, as a request that has just
arrived, whose frame refreshes the lease of the session it names (R152), whatever the receiver holds (assumption 8). -/
def bringIn (h : Header) (r : Request) (s : State) : State :=
  let k := s.link h.link
  match k.dispatch, k.inHand, k.input with
  | .ready, none, [] => dispatchRequest h r (refreshLease h.link h.session s)
  | .ready, none, f :: _ => if frameIs f h r then dispatchOldest h.link s else s
  | _, _, _ => s

/-- The block takes the request if the steps have put it in the block's hands. -/
def runRequest (h : Header) (r : Request) (body : State → State) (s : State) : State :=
  let t := bringIn h r s
  if (t.link h.link).inHand = some (h, r) then body t else t

/-- How a block that takes requests learns that a session has ended (assumption 8). -/
inductive Server
  /-- the Session Table itself -/
  | sessionTable
  /-- a block that is told (R155) -/
  | told (b : EndBlock)
  /-- a block that is not told -/
  | notTold
deriving DecidableEq, Repr

/-- The session has ended as the block knows it (assumption 8). -/
def endedAt (v : Server) (n : SessionIx) (s : State) : Bool :=
  match v with
  | .sessionTable => s.isEnding n
  | .told b => s.endedFor b n
  | .notTold => false

/-- A block takes a request of a session: before any check of its own the body's encoding is checked (R186), the
session must still be there as the block knows it (assumption 8), and then the request's own rule applies. -/
def takeRequest (v : Server) (h : Header) (r : Request) (body : SessionIx → State → State) (s : State) :
    State :=
  if encodingOk r then
    match boundSession h s with
    | none => refuse h r .noSession s
    | some n => if endedAt v n s then refuse h r .noSession s else body n s
  else refuse h r .badField s

/-- The meaning of a request of a session. -/
def serve (v : Server) (h : Header) (r : Request) (body : SessionIx → State → State) (s : State) :
    Host.Outcome State Fault Refusal :=
  .next (runRequest h r (takeRequest v h r body) s)

end Sys2Proof.Machine
end

