-- ==== Sys2Proof/Machine/SetOps.lean ====
section
/-! DEFINITION. Sealed sets and cycles as the Schedule and the Cycle Unit change them: the Ready List, how
sets leave, chains, the end of a cycle, passes and QUEUE_LOW (spec/03_the_schedule.md,
spec/05_cycles.md). -/

namespace Sys2Proof.Machine

/-! ### The sets -/

def State.sets (s : State) : List SealedSet := s.schedule.sets

def State.withSets (s : State) (x : List SealedSet) : State :=
  s.withSchedule { s.schedule with sets := x }

def State.withReady (s : State) (x : List Nat) : State :=
  s.withSchedule { s.schedule with ready := x }

/-- The live set of an id. -/
def State.findSet (s : State) (id : Nat) : Option SealedSet := s.sets.find? fun x => x.id = id

/-- The set of an id is changed. -/
def changeSet (id : Nat) (f : SealedSet → SealedSet) (s : State) : State :=
  s.withSets (s.sets.map fun x => if x.id = id then f x else x)

/-- PENDING, DUE or PARKED. -/
def SealedSet.waiting (x : SealedSet) : Bool := x.state ≠ .applying

/-- Whether the set writes a channel of a list. -/
def SealedSet.writesAny (x : SealedSet) (cs : List ChanIx) : Bool :=
  x.items.any fun i => cs.contains i.channel

/-- Whether the set writes a channel. -/
def SealedSet.writes (x : SealedSet) (c : ChanIx) : Bool := x.items.any fun i => i.channel = c

/-! ### The Ready List (R47) -/

/-- The place of a set in the order in which seal numbers were given (R32). -/
def sealRank (sets : List SealedSet) (id : Nat) : Nat := sets.findIdx fun x => x.id = id

/-- The due time of a live set. -/
def dueTimeOf (sets : List SealedSet) (id : Nat) : Nat :=
  match sets.find? fun x => x.id = id with
  | some x => x.dueTime.getD 0
  | none => 0

/-- R47: by due time, earliest first, and among equal due times by seal number. -/
def goesBefore (sets : List SealedSet) (a b : Nat) : Bool :=
  decide (dueTimeOf sets a < dueTimeOf sets b) ||
    (dueTimeOf sets a == dueTimeOf sets b && decide (sealRank sets a < sealRank sets b))

/-- R47: a set is placed on the Ready List in its order. Where a TIME_SET has left due times equal that were not,
the sets already there keep their order (R61), and the set goes before the first that does not precede it
(assumption 52). -/
def joinReady (id : Nat) (s : State) : State :=
  let r := s.schedule.ready
  s.withReady (r.takeWhile (fun a => goesBefore s.sets a id) ++ [id] ++
    r.dropWhile (fun a => goesBefore s.sets a id))

/-- The set becomes DUE with a due time and joins the Ready List. -/
def makeDue (id : Nat) (due : Nat) (s : State) : State :=
  joinReady id (changeSet id (fun x => { x with state := .due, dueTime := some due }) s)

/-- R42, R43, R46: with its due time at or before rig time the set becomes DUE, otherwise it is PENDING. -/
def fallDueAt (id : Nat) (due : Nat) (s : State) : State :=
  if s.reached due then makeDue id due s
  else changeSet id (fun x => { x with state := .pending, dueTime := some due }) s

/-! ### Cycle records -/

/-- A member's id is taken off its owner's member list. -/
def dropMember (n : SessionIx) (id : Nat) (s : State) : State :=
  match s.cycle n with
  | some c => s.withCycle n (some { c with members := c.members.erase id })
  | none => s

/-- R99: the report of a cycle's end, from the record as the cycle ended. -/
def cycleChangeOf (c : Cycle) (reason : CycleEndReason) (member : Option (Nat × ResultReason)) (now : Nat) :
    Report :=
  .cycleChange
    { reason := reason, member := member, firstStart := c.firstStart, period := c.period
      repeats := c.repeats, begun := c.begun, lastStart := if c.begun = 0 then none else c.current
      members := c.members.length, eventTime := now }

/-- The record becomes NONE and CYCLE_CHANGE is handed over. -/
def closeCycle (line : ReportLine) (n : SessionIx) (c : Cycle) (reason : CycleEndReason)
    (member : Option (Nat × ResultReason)) (s : State) : State :=
  sessionReport line n (cycleChangeOf c reason member s.clock.rig) (s.withCycle n none)

/-- R92: the cycle a set is a member of: its owner's, if that is not NONE and lists it. A member whose cycle
the Cycle Unit has ended at halt entry is a member of none, whatever cycle the session has begun since (R97). -/
def State.cycleOf (s : State) (x : SealedSet) : Option Cycle :=
  match s.cycle x.owner with
  | some c => if x.member && c.members.contains x.id then some c else none
  | none => none

/-! ### Leaving the Schedule (R51, R52) -/

/-- R52: the pass of a SET_RESULT: the passes begun for a member of a cycle, 0 for a set that never was one, and
for a set that a cycle left behind the pass it was in then (R94, R97; assumption 15). A member whose cycle its
session's end has taken away carries 0 (assumption 43). -/
def passOf (x : SealedSet) (s : State) : Nat :=
  match s.cycleOf x with
  | some c => c.begun
  | none => x.pass

/-- R52. -/
def setResultOf (x : SealedSet) (outcome : SetOutcome) (reason : Option ResultReason) (parked : Bool)
    (commit : Option Nat) (s : State) : SetResult :=
  { setId := x.id, sealNo := x.sealNo, outcome := outcome, reason := reason, pass := passOf x s
    parked := parked, dueTime := x.dueTime, commitTime := commit
    lateness := commit.map fun t => min (t - x.dueTime.getD t) Config.heldLong
    eventTime := s.clock.rig }

/-- A SET_RESULT is handed over for the owner. -/
def handResult (x : SealedSet) (outcome : SetOutcome) (reason : Option ResultReason) (parked : Bool)
    (commit : Option Nat) (s : State) : State :=
  sessionReport .schedule x.owner (.setResult (setResultOf x outcome reason parked commit s)) s

/-- R51 steps 1 and 2: the set is off the Schedule and the Ready List, and its items are handed back. -/
def removeSet (x : SealedSet) (s : State) : State :=
  post (.itemsReturn x.owner x.items.length)
    ((s.withSets (s.sets.filter fun y => y.id ≠ x.id)).withReady (s.schedule.ready.erase x.id))

/-- R51 steps 1 to 3. The member list is left as it is. -/
def leaveSet (x : SealedSet) (outcome : SetOutcome) (reason : Option ResultReason) (commit : Option Nat)
    (s : State) : State :=
  handResult x outcome reason false commit (removeSet x s)

/-- R43: the unresolved AFTER sets that name a set, in seal-number order, without the ids of a list. -/
def dependants (x : SealedSet) (except : List Nat) (s : State) : List Nat :=
  (s.sets.filter fun y =>
    y.owner = x.owner && y.dueTime.isNone && !except.contains y.id &&
      (match y.due with
        | .after p _ => p = x.id
        | _ => false)).map (·.id)

/-- R44: sets leave CHAIN_BROKEN one by one, each before its own dependants (depth first; assumption 14).
`fuel` bounds the number of sets. -/
def breakChains (fuel : Nat) (work except : List Nat) (s : State) : State :=
  match fuel, work with
  | 0, _ => s
  | _, [] => s
  | f + 1, id :: rest =>
    match s.findSet id with
    | none => breakChains f rest except s
    | some x =>
      breakChains f (dependants x except s ++ rest) except
        (leaveSet x .cancelled (some .chainBroken) none s)

/-- R44: the chain of a set that can no longer commit is broken. -/
def breakChain (x : SealedSet) (except : List Nat) (s : State) : State :=
  breakChains s.sets.length (dependants x except s) except s

/-- R43: the dependants of a committed set are resolved. -/
def resolveChain (x : SealedSet) (commit : Nat) (s : State) : State :=
  (dependants x [] s).foldl (fun t id =>
    match t.findSet id with
    | some y =>
      match y.due with
      | .after _ delay => fallDueAt id (capTime (commit + delay)) t
      | _ => t
    | none => t) s

/-- A set is cancelled with a reason of its own, and its chain is broken after it. -/
def cancelSet (x : SealedSet) (reason : ResultReason) (except : List Nat) (s : State) : State :=
  breakChain x except (dropMember x.owner x.id (leaveSet x .cancelled (some reason) none s))

/-- Live sets of a list of ids are cancelled one after the other, each followed by its chain. -/
def cancelSets (ids : List Nat) (reason : ResultReason) (s : State) : State :=
  ids.foldl (fun t id =>
    match t.findSet id with
    | some x => if x.waiting then cancelSet x reason ids t else t
    | none => t) s

/-! ### The early end of a cycle (R94, R96) -/

/-- R94 step 1, R96 step 1: the members of a cycle that are not APPLYING leave with CYCLE_STOPPED in
seal-number order, each followed by its chain. -/
def stopMembers (c : Cycle) (except : List Nat) (s : State) : State :=
  c.members.foldl (fun t id =>
    match t.findSet id with
    | some x => if x.waiting then cancelSet x .cycleStopped except t else t
    | none => t) s

/-- R94 step 2: an APPLYING member is detached, keeping the pass it was taken in. -/
def detachMembers (c : Cycle) (s : State) : State :=
  s.withSets (s.sets.map fun x =>
    if c.members.contains x.id && x.state = .applying then { x with member := false, pass := c.begun }
    else x)

/-- R94: a departed member ends its cycle `c`, the record as it stood before the departure. -/
def endCycleEarly (n : SessionIx) (c : Cycle) (reason : CycleEndReason) (id : Nat) (why : ResultReason)
    (except : List Nat) (s : State) : State :=
  closeCycle .schedule n c reason (some (id, why)) (detachMembers c (stopMembers c except s))

/-! ### Channels lost (R54) -/

/-- R54: a set writing a lost channel is cancelled with a reason; a member ends its cycle, if it is still among
its members (R92), at once: its fellow members' results and CYCLE_CHANGE come before the next direct set (assumption
46). `direct` are the sets that leave with that reason, which no chain takes along. -/
def cancelLost (reason : ResultReason) (direct : List Nat) (id : Nat) (s : State) : State :=
  match s.findSet id with
  | none => s
  | some x =>
    let t := cancelSet x reason direct s
    match s.cycleOf x with
    | some c => endCycleEarly x.owner c .memberCancelled x.id reason direct t
    | none => t

/-- The waiting sets of a session that write one of some channels, in seal-number order. -/
def setsWriting (n : SessionIx) (cs : List ChanIx) (s : State) : List Nat :=
  (s.sets.filter fun x => x.owner = n && x.waiting && x.writesAny cs).map (·.id)

/-! ### QUEUE_LOW (R57) -/

/-- R57: the PENDING and DUE sets of a session that are not cycle members. -/
def queueCount (n : SessionIx) (s : State) : Nat :=
  (s.sets.filter fun x =>
    x.owner = n && !x.member && (x.state = .pending || x.state = .due)).length

def withArmed (n : SessionIx) (b : Bool) (s : State) : State :=
  s.withSchedule { s.schedule with armed := s.schedule.armed.put n b }

/-- R57: the comparison for one session. -/
def queueCheck (s : State) (n : SessionIx) : State :=
  match s.session n with
  | none => s
  | some r =>
    let count := queueCount n s
    if r.lowMark = 0 then s
    else if r.lowMark ≤ count then withArmed n true s
    else if s.schedule.armed.get n then
      withArmed n false (sessionReport .schedule n (.queueLow count r.lowMark) s)
    else s

/-- R57: the comparison made once at the end of an event of the Schedule, for every session (assumption 38), in
ascending order (assumption 46). -/
def queueChecks (s : State) : State := allSessions.foldl queueCheck s

/-- R54: the waiting sets of former owners that write a lost channel are cancelled. `lost` gives the
channels with their former owners. -/
def cancelLostAll (reason : ResultReason) (lost : List LostChannel) (s : State) : State :=
  let direct := (s.sets.filter fun x =>
    x.waiting && x.writesAny ((lost.filter fun l => l.owner = x.owner).map (·.channel))).map (·.id)
  queueChecks (direct.foldl (fun t id => cancelLost reason direct id t) s)

/-! ### Passes (R91, R93) -/

/-- R91: a pass is started: the record is brought forward and every member is given its due time. A member has no
place on the Ready List before it falls due (R46). -/
def startPass (n : SessionIx) (c : Cycle) (start : Nat) (s : State) : State :=
  let c' := { c with current := some start, begun := min (c.begun + 1) Config.heldLong }
  c'.members.foldl (fun t id =>
    match t.findSet id with
    | some x =>
      match x.due with
      | .offset o => fallDueAt id (capTime (start + o)) (t.withReady (t.schedule.ready.erase id))
      | _ => t
    | none => t) (s.withCycle n (some c'))

/-- R93: a cycle ends at the finish of a pass: every member leaves without SET_RESULT, then the members' chains
are broken one after the other, and CYCLE_CHANGE comes last. -/
def finishCycle (n : SessionIx) (c : Cycle) (reason : CycleEndReason) (s : State) : State :=
  let members := c.members.filterMap s.findSet
  let t := c.members.foldl (fun t id =>
    match t.findSet id with
    | some x => removeSet x t
    | none => t) s
  closeCycle .schedule n c reason none (members.foldl (fun t x => breakChain x [] t) t)

end Sys2Proof.Machine
end

