-- ==== Sys2Proof/Machine/ClaimUnit.lean ====
section
/-! DEFINITION. The Claim Unit (spec/01_channels_and_claims.md; R76, R77, R82, R83, R138). -/

namespace Sys2Proof.Machine

/-! ### Channel records -/

/-- The channel records become `f` of what they were, channel by channel. -/
def changeChannels (f : ChanIx → Channel → Option Channel) (s : State) : State :=
  s.withChannels (Table.tab fun c => (s.channel c).bind (f c))

/-- One channel's record is changed, if it is present. -/
def changeChannel (c : ChanIx) (f : Channel → Channel) (s : State) : State :=
  match s.channel c with
  | some x => s.withChannels (s.claims.channels.put c (some (f x)))
  | none => s

/-- The owner of a channel. -/
def Channel.owner (x : Channel) : Option SessionIx := x.owned.map (·.owner)

/-- The channel is owned by a session. -/
def State.owns (s : State) (n : SessionIx) (c : ChanIx) : Bool :=
  match s.channel c with
  | some x => x.owner = some n
  | none => false

/-- R6: the interpolated value at a rig time. -/
def Channel.interpolated (x : Channel) (t : Nat) : Int :=
  match x.ramp with
  | none => x.commanded
  | some r =>
    if r.endTime ≤ t then r.target
    else r.start + ((r.target - r.start) * ((t : Int) - r.startTime)).tdiv
      ((r.endTime : Int) - r.startTime)

/-- R8, R20: the record of a channel driven to its working safe value. -/
def Channel.drivenSafe (x : Channel) : Channel :=
  { x with commanded := x.safe, ramp := none, appliedBy := none, deviation := false }

/-- R4, R16: the channel becomes FREE and its working values revert. -/
def Channel.freed (x : Channel) : Channel :=
  { x with owned := none, lower := x.descLower, upper := x.descUpper, safe := x.descSafe }

/-- R10: a granted channel's record. -/
def Channel.grantedTo (x : Channel) (n : SessionIx) (p : LossPolicy) : Channel :=
  { x with owned := some ⟨n, p⟩ }

/-- R20: every present channel's record is driven safe. -/
def driveRecordsSafe (s : State) : State := changeChannels (fun _ x => some x.drivenSafe) s

/-! ### Grants (R10, R12) -/

/-- Every channel of the range is FREE or owned by the session. -/
def rangeFreeFor (n : SessionIx) (first last : ChanIx) (s : State) : Bool :=
  allChannels.all fun c => !inRange first last c ||
    (match s.channel c with
      | some x => x.owner = none || x.owner = some n
      | none => false)

/-- R10: the channels of the range become the session's, with the policy. -/
def grantRange (n : SessionIx) (first last : ChanIx) (p : LossPolicy) (s : State) : State :=
  changeChannels (fun c x => some (if inRange first last c then x.grantedTo n p else x)) s

/-- A CLAIM_RESULT for an entry's session. -/
def claimResult (e : WaitEntry) (o : ClaimOutcome) (lost : Option ChanIx) (s : State) : State :=
  sessionReport .claimUnit e.session
    (.claimResult { outcome := o, first := e.first, last := e.last, seq := e.seq, lost := lost }) s

/-- R12: the pass reaches an entry. A session that is ending has none once the Claim Unit has taken its notice of the
end; until then its entries are served (R155; assumption 10). -/
def grantEntry (s : State) (e : WaitEntry) : State :=
  if rangeFreeFor e.session e.first e.last s then
    claimResult e .granted none
      (grantRange e.session e.first e.last e.policy (s.withWaits (s.claims.waits.erase e)))
  else s

/-- R12: the grant pass, from the oldest entry to the newest. -/
def grantPass (s : State) : State := s.claims.waits.foldl grantEntry s

/-! ### Safe drives (R8) -/

/-- The channels of a slot, in order. -/
def slotChannels (k : SlotIx) : List ChanIx := (List.finRange 8).map (chanAt k)

/-- R8: one DRIVE_SAFE for each slot that holds a driven channel, with the working safe values of `s`. A
request for a slot whose live mark is clear is answered "slot lost" at once and not queued (R135), which has no effect
at the Claim Unit (assumption 56). Slots and indices go up (assumption 46). -/
def queueDriveSafe (driven : ChanIx → Bool) (s : State) : State :=
  let requestFor (k : SlotIx) : Option Notice :=
    let values := (slotChannels k).filterMap fun c =>
      match s.channel c with
      | some x => if driven c then some (indexOfChan c, x.safe) else none
      | none => none
    if values = [] || !s.bus.live.get k then none
    else some (.busRequest .claimUnit (.driveSafe k values))
  postAll (allSlots.filterMap requestFor) s

/-- R8, R16, R19: channels leave their owner: those of `driven` are driven safe first, and all revert and
become FREE. -/
def freeChannels (freed driven : ChanIx → Bool) (s : State) : State :=
  changeChannels (fun c x =>
    if freed c then some (if driven c then x.drivenSafe.freed else x.freed) else some x)
    (queueDriveSafe driven s)

/-! ### CLAIM, RELEASE, CHANNEL_CONFIG, CHANNEL_READ -/

/-- A range of channels: first ≤ 31, last ≤ 31, first ≤ last. -/
def rangeOf (first last : Byte) : Option (ChanIx × ChanIx) :=
  match chanOf first, chanOf last with
  | some a, some b => if a ≤ b then some (a, b) else none
  | _, _ => none

/-- The range holds an ABSENT channel. -/
def rangeHasAbsent (first last : ChanIx) (s : State) : Bool :=
  allChannels.any fun c => inRange first last c && (s.channel c).isNone

/-- R10, R11. -/
def claimBody (h : Header) (first last policy : Byte) (wait : Half) (n : SessionIx) (s : State) : State :=
  let r : Request := .claim first last policy wait
  match rangeOf first last, lossPolicyOf policy with
  | some (a, b), some p =>
    if wait.toNat > 60000 then refuse h r .badField s
    else if rangeHasAbsent a b s then refuse h r .absent s
    else if rangeFreeFor n a b s then
      let t := answer h r (doneWith (u8 (claimOutcomeCode .granted))) (grantRange n a b p s)
      if s.claims.waits.any fun e => e.session = n then grantPass t else t
    else if wait = 0 then refuse h r .held s
    else if 8 ≤ s.claims.waits.length || 2 ≤ (s.claims.waits.filter fun e => e.session = n).length then
      refuse h r .waitListFull s
    else
      answer h r (doneWith (u8 (claimOutcomeCode .waiting)))
        (s.withWaits (s.claims.waits ++
          [{ session := n, first := a, last := b, policy := p
             deadline := s.after (wait.toNat * 1000), seq := h.seq.toNat }]))
  | _, _ => refuse h r .badField s

/-- CLAIM (R10). -/
def execClaim (h : Header) (first last policy : Byte) (wait : Half) (s : State) :
    Host.Outcome State Fault Refusal :=
  serve (.told .claimUnit) h (.claim first last policy wait) (claimBody h first last policy wait) s

/-- The channels of a range that a session owns. -/
def ownedIn (n : SessionIx) (first last : ChanIx) (s : State) : List ChanIx :=
  allChannels.filter fun c => inRange first last c && s.owns n c

/-- R15, R16. -/
def releaseBody (h : Header) (first last toSafe force : Byte) (n : SessionIx) (s : State) : State :=
  let r : Request := .release first last toSafe force
  match rangeOf first last with
  | none => refuse h r .badField s
  | some (a, b) =>
    let cs := ownedIn n a b s
    let writers := s.sets.filter fun x => x.owner = n && x.writesAny cs
    if writers.any (fun x => !x.waiting) || (!writers.isEmpty && !flagSet force) then
      refuse h r .inUse s
    else
      let s1 := cancelLostAll .channelReleased (cs.map fun c => ⟨c, n⟩) s
      let s2 := freeChannels cs.contains (fun c => flagSet toSafe && cs.contains c) s1
      let s3 := answer h r (doneWith (u8 cs.length)) s2
      if cs = [] then s3
      else grantPass (post (.lostToAssembler (cs.map fun c => ⟨c, n⟩)) s3)

/-- RELEASE (R15). -/
def execRelease (h : Header) (first last toSafe force : Byte) (s : State) :
    Host.Outcome State Fault Refusal :=
  serve (.told .claimUnit) h (.release first last toSafe force) (releaseBody h first last toSafe force) s

/-- R34: an open set that writes a channel of a list is spoiled by the lowest of them. -/
def spoil (n : SessionIx) (cs : List ChanIx) (s : State) : State :=
  match s.openSet n with
  | none => s
  | some o =>
    match o.spoiled with
    | some _ => s
    | none =>
      match allChannels.find? fun c => cs.contains c && o.items.any fun i => i.channel = c with
      | some c => s.withOpenSet n (some { o with spoiled := some c })
      | none => s

/-- R17. -/
def channelConfigBody (h : Header) (channel : Byte) (lower upper safe : Half) (n : SessionIx) (s : State) :
    State :=
  let r : Request := .channelConfig channel lower upper safe
  match chanOf channel with
  | none => refuse h r .badField s
  | some c =>
    match s.channel c with
    | none => refuse h r .absent s
    | some x =>
      if x.owner ≠ some n then refuse h r .notOwned s
      else if ¬ (x.descLower ≤ signed lower ∧ signed lower ≤ signed safe ∧ signed safe ≤ signed upper ∧
          signed upper ≤ x.descUpper) then refuse h r .outOfLimits s
      else if ¬ (signed lower ≤ x.commanded ∧ x.commanded ≤ signed upper) then refuse h r .outOfLimits s
      else if s.sets.any fun y => y.owner = n && y.writes c then refuse h r .inUse s
      else
        answer h r (doneWith [])
          (spoil n [c] (changeChannel c
            (fun y => { y with lower := signed lower, upper := signed upper, safe := signed safe }) s))

/-- CHANNEL_CONFIG (R17). -/
def execChannelConfig (h : Header) (channel : Byte) (lower upper safe : Half) (s : State) :
    Host.Outcome State Fault Refusal :=
  serve (.told .claimUnit) h (.channelConfig channel lower upper safe)
    (channelConfigBody h channel lower upper safe) s

/-- The entry of CHANNEL_READ for a channel (R18; layout: assumption 21). -/
def channelEntry (s : State) (c : ChanIx) : List Byte :=
  match s.channel c with
  | none => u8 c.val ++ u8 0 ++ List.replicate 54 0
  | some x =>
    u8 c.val ++ u8 (if x.owned.isSome then 2 else 1) ++
    u8 (match x.owned with | some o => sessionNumber o.owner | none => 0) ++
    wOpt 1 (fun p => u8 (lossPolicyCode p)) (x.owned.map (·.policy)) ++
    u8 (channelKindCode x.kind) ++ i16 x.descLower ++ i16 x.descUpper ++ i16 x.descSafe ++
    u16 x.tolerance ++ u16 x.settle ++ i16 x.lower ++ i16 x.upper ++ i16 x.safe ++ i16 x.commanded ++
    wOpt 16 (fun r : Ramp => i16 r.start ++ i16 r.target ++ u48 r.startTime ++ u48 r.endTime) x.ramp ++
    i16 (x.interpolated s.clock.rig) ++ wOpt 2 u16 x.appliedBy ++
    wOpt 8 (fun v : Int × Nat => i16 v.1 ++ u48 v.2) x.lastReadback ++ wFlag x.deviation

/-- R18. -/
def channelReadBody (h : Header) (first last : Byte) (s : State) : State :=
  let r : Request := .channelRead first last
  match rangeOf first last with
  | none => refuse h r .badField s
  | some (a, b) =>
    if b.val - a.val > 3 then refuse h r .badField s
    else answer h r (doneWith (wList (channelEntry s) (allChannels.filter (inRange a b)))) s

/-- CHANNEL_READ (R18). -/
def execChannelRead (h : Header) (first last : Byte) (s : State) : Host.Outcome State Fault Refusal :=
  serve (.told .claimUnit) h (.channelRead first last) (fun _ => channelReadBody h first last) s

/-! ### Presence (R2, R3) -/

/-- A value clamped into two limits. -/
def clamp (lo hi v : Int) : Int := max lo (min hi v)

/-- R2: the record of a channel that becomes FREE, from its descriptor entry and, after a held
identification, the value read back. -/
def freshChannel (kind : ChannelKind) (e : DescEntry) (held : Option (Int × Nat)) : Channel :=
  { owned := none, kind := kind, descLower := e.lower, descUpper := e.upper, descSafe := e.safe
    tolerance := e.tolerance, settle := e.settle, lower := e.lower, upper := e.upper, safe := e.safe
    commanded := match held with
      | some v => clamp e.lower e.upper v.1
      | none => e.safe
    ramp := none, appliedBy := none, lastReadback := held, deviation := false }

/-- The value read back for an index by a held identification. -/
def heldValue (held : Option HeldValues) (i : Nat) : Option (Int × Nat) :=
  match held with
  | some h => some (h.values.getD i 0, h.time)
  | none => none

/-- R2: the records of a slot's channels as the slot becomes READY. -/
def makePresent (k : SlotIx) (d : Descriptor) (held : Option HeldValues) (s : State) : State :=
  s.withChannels (Table.tab fun c =>
    if slotOfChan c = k then
      match d.entries[indexOfChan c]? with
      | some e =>
        match channelKindOf e.kind with
        | some kind => some (freshChannel kind e (heldValue held (indexOfChan c)))
        | none => none
      | none => none
    else s.channel c)

/-- SLOT_READY (R2). -/
def execSlotReady (slot : SlotIx) (s : State) : Host.Outcome State Fault Refusal :=
  .next (onNotice (.slotToClaim slot) (fun n t =>
    match n with
    | .slotReady k d held => some (grantPass (makePresent k d held t))
    | _ => none) s)

/-- R3: an entry whose range includes a lost channel is removed with CLAIM_RESULT ABSENT, the oldest entry first
(assumption 46). -/
def dropAbsentWaits (lost : List ChanIx) (s : State) : State :=
  s.claims.waits.foldl (fun t e =>
    match allChannels.find? fun c => lost.contains c && inRange e.first e.last c with
    | some c => claimResult e .absent (some c) (t.withWaits (t.claims.waits.erase e))
    | none => t) s

/-- R3: a slot's channels become ABSENT; the Set Assembler and the Schedule are told. -/
def makeAbsent (k : SlotIx) (s : State) : State :=
  let gone := (slotChannels k).filter fun c => (s.channel c).isSome
  let lost := gone.filterMap fun c =>
    match s.channel c with
    | some x => x.owner.map fun n => (⟨c, n⟩ : LostChannel)
    | none => none
  let t := dropAbsentWaits gone
    (changeChannels (fun c x => if slotOfChan c = k then none else some x) s)
  if lost = [] then t else postAll [.lostToAssembler lost, .lostToSchedule lost] t

/-- SLOT_LEFT_READY (R3). -/
def execSlotLeftReady (slot : SlotIx) (s : State) : Host.Outcome State Fault Refusal :=
  .next (onNotice (.slotToClaim slot) (fun n t =>
    match n with
    | .slotLeftReady k => some (makeAbsent k t)
    | _ => none) s)

/-! ### Session end (R14, R19, R155) -/

/-- The wait entries of a session are removed without a report. -/
def dropWaits (n : SessionIx) (s : State) : State :=
  s.withWaits (s.claims.waits.filter fun e => e.session ≠ n)

/-- SESSION_END_WAIT_ENTRIES (R155). -/
def execSessionEndWaitEntries (n : SessionIx) (s : State) : Host.Outcome State Fault Refusal :=
  .next (onNotice (.sessionEnd .claimUnit n) (fun _ t => some (dropWaits n t)) s)

/-- The channel is owned by the session with loss policy SAFE. -/
def ownsSafe (n : SessionIx) (s : State) (c : ChanIx) : Bool :=
  match s.channel c with
  | some x => x.owned = some ⟨n, .safe⟩
  | none => false

/-- R19. -/
def endSessionClaims (n : SessionIx) (s : State) : State :=
  let t := dropWaits n s
  grantPass (freeChannels (t.owns n) (ownsSafe n t) t)

/-- SESSION_END_CLAIM_UNIT (R19, R156). -/
def execSessionEndClaimUnit (n : SessionIx) (s : State) : Host.Outcome State Fault Refusal :=
  .next (onNotice (.claimSessionEnd n) (fun _ t => some (post (.recordClose n) (endSessionClaims n t))) s)

/-! ### Commit records (R75 to R77) -/

/-- R76: whether a record is safe-overtaken. -/
def safeOvertaken (safeAllQueued : Bool) (haltEntry : Option Nat) (commit : Nat) : Bool :=
  safeAllQueued || haltEntry.any fun t => commit ≤ t

/-- R77, R6: the ramp record of a commit. -/
def newRamp (x : Channel) (r : CommitRecord) : Option Ramp :=
  if r.ramp = 0 then none
  else some { start := x.interpolated r.commitTime, target := r.target, startTime := r.commitTime
              endTime := capTime (r.commitTime + r.ramp * 1000) }

/-- R5, R76: the record of a channel after a commit. -/
def Channel.committed (x : Channel) (r : CommitRecord) : Channel :=
  { x with commanded := r.target, ramp := newRamp x r, appliedBy := some r.setId, deviation := false }

/-- R76: one commit record is taken. -/
def takeRecord (safeAllQueued : Bool) (s : State) (r : CommitRecord) : State :=
  changeChannel r.channel (fun x =>
    if safeOvertaken safeAllQueued s.claims.haltEntry r.commitTime then x.drivenSafe
    else x.committed r) s

/-- COMMIT_RECORDS (R76). -/
def execCommitRecords (s : State) : Host.Outcome State Fault Refusal :=
  .next (onNotice .commitRecords (fun n t =>
    match n with
    | .commitRecords rs safeAllQueued =>
        some (post .recordsTaken (rs.foldl (takeRecord safeAllQueued) t))
    | _ => none) s)

/-! ### Captures (R82, R83) -/

/-- R82: the result of an item that has none yet. -/
def captureResultOf (setId : Nat) (x : Option Channel) (halted : Bool) : CaptureResult :=
  match x with
  | none => .absent
  | some ch =>
    if halted then .halted
    else if setId ≠ 0 && ch.appliedBy ≠ some setId then .superseded
    else .value

/-- The rig time at which the end of a slot's READBACK was taken. -/
def readTimeOf (e : CaptureEntry) (c : ChanIx) : Nat :=
  match e.slots.find? fun r => r.slot = slotOfChan c with
  | some r => r.ended.getD 0
  | none => 0

/-- R82: whether a value is outside the tolerance of a set capture's target. -/
def deviates (x : Channel) (target : Option Int) (v : Int) : Bool :=
  match target with
  | some w => decide ((x.tolerance : Int) < |v - w|)
  | none => false

/-- R82: a VALUE item changes its channel's record and may report a deviation. -/
def recordReading (e : CaptureEntry) (i : CaptureItem) (v : Int) (s : State) : State :=
  match s.channel i.channel with
  | none => s
  | some x =>
    let readAt := readTimeOf e i.channel
    let s1 := changeChannel i.channel (fun y => { y with lastReadback := some (v, readAt) }) s
    if deviates x i.target v then
      systemReport .applyEngine
        (.deviation { channel := i.channel, setId := e.setId, target := i.target.getD 0, read := v
                      tolerance := x.tolerance, readTime := readAt })
        (changeChannel i.channel (fun y => { y with deviation := true }) s1)
    else s1

/-- R82: one item is taken; its result is given back. Items go in the entry's order, and so do their DEVIATIONs
(assumption 46). -/
def takeItem (e : CaptureEntry) (acc : State × List CapturedItem) (i : CaptureItem) :
    State × List CapturedItem :=
  let s := acc.1
  let result := match i.result with
    | some r => r
    | none => captureResultOf e.setId (s.channel i.channel) s.isHalted
  let v := i.read.getD 0
  let t := if result = .value then recordReading e i v s else s
  (t, acc.2 ++ [{ channel := i.channel, result := result, value := if result = .value then v else 0 }])

/-- R82, R83: the items of a complete entry are taken, the CAPTURE report is handed over and the entry is
removed. -/
def takeCapture (e : CaptureEntry) (s : State) : State :=
  let done := e.items.foldl (takeItem e) (s, [])
  let t := done.1
  sessionReport .applyEngine e.owner
    (.capture { setId := e.setId, tag := e.tag, refTime := e.refTime, captureTime := e.captureTime
                items := done.2 })
    (t.withEngine { t.engine with captures := t.engine.captures.filter fun x => x.entry ≠ e.entry })

/-- CAPTURE_ITEMS (R82, R83). An entry that its session's end has removed gives nothing (R85). -/
def execCaptureItems (entry : Nat) (s : State) : Host.Outcome State Fault Refusal :=
  .next (onNotice (.captureComplete entry) (fun _ t =>
    match t.engine.captures.find? fun e => e.entry = entry with
    | some e => some (takeCapture e t)
    | none => some t) s)

/-! ### Halt, SAFE_ALL, expiries -/

/-- HALT_ENTRY_CLAIM_UNIT (R20, R76), whether or not RESUME has come before it (assumption 47). -/
def execHaltEntryClaimUnit (s : State) : Host.Outcome State Fault Refusal :=
  .next (onNotice (.halt .claimUnit) (fun n t =>
    match n with
    | .haltEntry _ time => some (driveRecordsSafe (t.withClaims { t.claims with haltEntry := time }))
    | _ => none) s)

/-- R138: the working safe value of each present channel, or the mark "stored". -/
def safeValuesOf (s : State) : List (Option Int) :=
  allChannels.map fun c => (s.channel c).map (·.safe)

/-- R138: the values of the SAFE_ALL in progress are fixed; its modules carry it out. -/
def giveSafeValues (s : State) : State :=
  match s.bus.current with
  | some p =>
    if p.txn = .safeAll then
      let values := safeValuesOf s
      let sent : InProgress := { p with safeValues := some values, wire := txnBytes .safeAll (some values) }
      modulesCarryOut p.attemptNo (fun k m => m.safeAll k values)
        (s.withBus { s.bus with current := some sent })
    else s
  | none => s

/-- SAFE_ALL_VALUES (R138). -/
def execSafeAllValues (s : State) : Host.Outcome State Fault Refusal :=
  .next (onNotice .safeAllValues (fun _ t => some (driveRecordsSafe (giveSafeValues t))) s)

/-- RAMP_EXPIRY (R6): taken once rig time has reached the ramp's end. -/
def execRampExpiry (channel : ChanIx) (s : State) : Host.Outcome State Fault Refusal :=
  .next (match s.channel channel with
    | some x =>
      match x.ramp with
      | some r => if s.reached r.endTime then changeChannel channel (fun y => { y with ramp := none }) s else s
      | none => s
    | none => s)

/-- CLAIM_WAIT_DEADLINE (R13): the entry at a position of the list, oldest 0, once its deadline has been
reached. -/
def execClaimWaitDeadline (position : Nat) (s : State) : Host.Outcome State Fault Refusal :=
  .next (match s.claims.waits[position]? with
    | some e =>
      if s.reached e.deadline then claimResult e .timeout none (s.withWaits (s.claims.waits.eraseIdx position))
      else s
    | none => s)

/-! ### TIME_SET (R9) -/

/-- R9: a ramp record after a TIME_SET with difference d. -/
def shiftRamp (d : Int) (x : Channel) : Channel :=
  match x.ramp with
  | none => x
  | some r =>
    if (r.endTime : Int) + d < 0 then { x with ramp := none }
    else if (r.startTime : Int) + d < 0 then
      { x with ramp := some { r with start := x.interpolated (Int.toNat (-d)), startTime := 0
                                     endTime := shiftTime d r.endTime } }
    else { x with ramp := some { r with startTime := shiftTime d r.startTime
                                        endTime := shiftTime d r.endTime } }

/-- R9: a halt entry time after a TIME_SET; below 0 it is removed. -/
def shiftHaltEntry (d : Int) (t : Option Nat) : Option Nat :=
  match t with
  | some x => if (x : Int) + d < 0 then none else some (shiftTime d x)
  | none => none

/-- R9. -/
def shiftClaims (d : Int) (s : State) : State :=
  s.withClaims
    { channels := Table.tab fun c => (s.channel c).map (shiftRamp d)
      waits := s.claims.waits.map fun e => { e with deadline := shiftTime d e.deadline }
      haltEntry := shiftHaltEntry d s.claims.haltEntry }

end Sys2Proof.Machine
end

