-- ==== Sys2Proof/Machine/ApplyEngine.lean ====
section
/-! DEFINITION. The Apply Engine (spec/04_applying_a_set.md), with the take of R48 and R49. -/

namespace Sys2Proof.Machine

/-! ### The working record -/

def State.withWork (s : State) (w : Option Work) : State := s.withEngine { s.engine with work := w }

def State.withCaptures (s : State) (c : List CaptureEntry) : State :=
  s.withEngine { s.engine with captures := c }

/-- The engine hands the Schedule the outcome and is IDLE (R67, R69, R70, R75). -/
def handOutcome (w : Work) (o : EngineOutcome) (s : State) : State :=
  post (.outcome w.take w.setId o) (s.withWork none)

/-- R71: ABANDON is queued at most once for a set. -/
def queueAbandon (w : Work) (s : State) : State :=
  if w.abandon then s else post (.busRequest .applyEngine .abandon) s

/-- R67, R69: a set in STAGING fails: its queued STAGEs are withdrawn, an ABANDON is queued unless the
SAFE_ALL of a halt entry does its work, and FAILED is handed over. -/
def failStaging (w : Work) (c : Cause) (s : State) : State :=
  let t := post (.withdraw (.stages w.take)) s
  handOutcome w (.failed c) (if c = .halted then t else queueAbandon w t)

/-- The engine tells the Session Table that a session is settled (R70, R156). -/
def settled (n : SessionIx) (s : State) : State := post (.teardownAnswer .applyEngine n) s

/-! ### TAKE (R48, R49, R64) -/

/-- R49: the late check discards the set. -/
def takenLate (x : SealedSet) (s : State) : Bool :=
  x.late = .discard && decide (x.dueTime.getD 0 + s.clock.lateMargin < s.clock.rig)

/-- R49, R44, R46, R92: a set discarded at the take; a cycle member is parked, also one whose cycle the Cycle Unit
has ended already (assumptions 15 and 43). -/
def discardLate (x : SealedSet) (s : State) : State :=
  if x.member then
    breakChain x []
      (post (.memberParked x.owner x.id)
        (changeSet x.id (fun y => { y with state := .parked, dueTime := none })
          (handResult x .discarded (some .late) true none s)))
  else breakChain x [] (leaveSet x .discarded (some .late) none s)

/-- R64: the items of a slot, in the order they have in the set. -/
def stageItems (k : SlotIx) (items : List Item) : List StageItem :=
  (items.filter fun i => slotOfChan i.channel = k).map fun i =>
    { index := indexOfChan i.channel, target := i.target, ramp := i.ramp }

/-- R64: the slots the items touch, in ascending order. -/
def touchedSlots (items : List Item) : List SlotIx :=
  allSlots.filter fun k => items.any fun i => slotOfChan i.channel = k

/-- R64 step 2: the settle time in the channel's record, 0 for a channel already ABSENT (assumption 26). -/
def settleOf (s : State) (c : ChanIx) : Nat :=
  match s.channel c with
  | some x => x.settle
  | none => 0

/-- R63, R64: the working record at a take. -/
def workOf (x : SealedSet) (take : Nat) (s : State) : Work :=
  { take := take, phase := .staging, setId := x.id, owner := x.owner, capture := x.capture, sync := x.sync
    items := x.items.map fun i => ⟨i, settleOf s i.channel⟩
    slots := (touchedSlots x.items).map fun k => ⟨k, .queued, false⟩
    cause := none, commitTime := none, abandon := false, ended := false }

/-- R64, R135: the STAGEs are handed over; one whose slot's live mark is clear is answered "slot lost" and
fails the set in the event of the take. -/
def beginStaging (x : SealedSet) (w : Work) (s : State) : State :=
  let slots := touchedSlots x.items
  let t := postAll ((slots.filter s.bus.live.get).map fun k =>
    .busRequest .applyEngine (.stage k w.take (stageItems k x.items))) (s.withWork (some w))
  if slots.all s.bus.live.get then t else failStaging w .slotLost t

/-- R48, R64, R70: the head that passed the late check becomes APPLYING; a set whose owner is ending is not
staged. -/
def beginApplying (x : SealedSet) (s : State) : State :=
  let t := changeSet x.id (fun y => { y with state := .applying }) s
  let w := workOf x (s.engine.takes + 1) s
  let u := t.withEngine { t.engine with takes := s.engine.takes + 1 }
  if s.isEnding x.owner then handOutcome w .removed u else beginStaging x w u

/-- R48: the head of the Ready List is taken; heads the late check discards are followed by the next. -/
def takeHeads (fuel : Nat) (s : State) : State :=
  match fuel, s.schedule.ready with
  | 0, _ => s
  | _, [] => s
  | f + 1, id :: rest =>
    let t := s.withReady rest
    match t.findSet id with
    | none => takeHeads f t
    | some x => if takenLate x t then takeHeads f (discardLate x t) else beginApplying x t

/-- R48: the engine is IDLE and no set is APPLYING. An engine that has taken a halt entry stays IDLE until
RESUME (R69; assumption 7). -/
def mayTake (s : State) : Bool :=
  s.engine.work.isNone && s.sets.all SealedSet.waiting && !s.haltedFor .applyEngine

/-- TAKE (R48). -/
def execTake (s : State) : Host.Outcome State Fault Refusal :=
  .next (if mayTake s && !s.schedule.ready.isEmpty then
    queueChecks (takeHeads s.schedule.ready.length s) else s)

/-! ### STAGING (R66 to R70) -/

/-- The set of a take in a phase. -/
def workIn (take : Nat) (p : EnginePhase) (s : State) : Option Work :=
  match s.engine.work with
  | some w => if w.take = take ∧ w.phase = p then some w else none
  | none => none

/-- The mark of a touched slot is changed. -/
def Work.mark (w : Work) (k : SlotIx) (f : Touched → Touched) : Work :=
  { w with slots := w.slots.map fun t => if t.slot = k then f t else t }

/-- The record of a touched slot. -/
def Work.touched (w : Work) (k : SlotIx) : Option Touched := w.slots.find? fun t => t.slot = k

/-- R66, R68: a STAGE ended with the module's acceptance. -/
def stageAccepted (slot : SlotIx) (take : Nat) (s : State) : State :=
  match workIn take .staging s with
  | none => s
  | some w =>
    if (w.touched slot).any (·.lossPending) then failStaging w .slotLost s
    else
      let w' := w.mark slot fun t => { t with mark := .accepted }
      if w'.slots.all fun t => t.mark = .accepted then
        post (.commitRequest { take := take, slots := w'.slots.map (·.slot), sync := w.sync })
          (s.withWork (some { w' with phase := .committing }))
      else s.withWork (some w')

/-- R67: a STAGE of the set ended without acceptance. -/
def stageLost (take : Nat) (c : Cause) (s : State) : State :=
  match workIn take .staging s with
  | none => s
  | some w => failStaging w c s

/-- STAGE_ACCEPTANCE (R66). -/
def execStageAcceptance (slot : SlotIx) (s : State) : Host.Outcome State Fault Refusal :=
  .next (onNotice (.stageEnd slot) (fun x t =>
    match x with
    | .stageEnd k take .accepted => some (stageAccepted k take t)
    | _ => none) s)

/-- STAGE_FAILURE (R67). -/
def execStageFailure (slot : SlotIx) (s : State) : Host.Outcome State Fault Refusal :=
  .next (onNotice (.stageEnd slot) (fun x t =>
    match x with
    | .stageEnd _ take .failed => some (stageLost take .moduleNoReply t)
    | _ => none) s)

/-- STAGE_SLOT_LOST (R67). -/
def execStageSlotLost (slot : SlotIx) (s : State) : Host.Outcome State Fault Refusal :=
  .next (onNotice (.stageEnd slot) (fun x t =>
    match x with
    | .stageEnd _ take .slotLost => some (stageLost take .slotLost t)
    | _ => none) s)

/-- R74: a cause taken while COMMITTING: the COMMIT request is withdrawn. -/
def withdrawCommit (w : Work) (c : Cause) (s : State) : State :=
  post (.withdraw (.commit w.take))
    (s.withWork (some { w with phase := .withdrawing, cause := some c, ended := w.ended || c = .sessionEnd }))

/-- R68, R74: a touched slot has left READY. -/
def slotLost (slot : SlotIx) (take : Nat) (s : State) : State :=
  match s.engine.work with
  | none => s
  | some w =>
    if w.take ≠ take then s
    else
      match w.phase with
      | .staging =>
        match w.touched slot with
        | none => s
        | some t =>
          match t.mark with
          | .inProgress => s.withWork (some (w.mark slot fun x => { x with lossPending := true }))
          | .queued | .accepted => failStaging w .slotLost s
      | .committing => withdrawCommit w .slotLost s
      | .withdrawing | .recording => s

/-- SLOT_LOST_NOTICE (R68). -/
def execSlotLostNotice (slot : SlotIx) (s : State) : Host.Outcome State Fault Refusal :=
  .next (onNotice (.engineSlotLost slot) (fun x t =>
    match x with
    | .engineSlotLost k take => some (slotLost k take t)
    | _ => none) s)

/-- R69, R74. An entry still to be taken after RESUME fails a set taken since then too (assumption 47). -/
def haltEngine (s : State) : State :=
  match s.engine.work with
  | none => s
  | some w =>
    match w.phase with
    | .staging => failStaging w .halted s
    | .committing => withdrawCommit w .halted s
    | .withdrawing | .recording => s

/-- HALT_ENTRY_APPLY_ENGINE (R69). -/
def execHaltEntryApplyEngine (s : State) : Host.Outcome State Fault Refusal :=
  .next (onNotice (.halt .applyEngine) (fun _ t => some (haltEngine t)) s)

/-! ### Session end (R70, R74, R75, R85) -/

/-- R85: the capture entries of an ending session are removed and their READBACKs withdrawn. -/
def dropCaptures (n : SessionIx) (s : State) : State :=
  let gone := (s.engine.captures.filter fun e => e.owner = n).map (·.entry)
  let t := s.withCaptures (s.engine.captures.filter fun e => e.owner ≠ n)
  if gone = [] then t else post (.withdraw (.readbacks gone)) t

/-- R70, R74, R75, R156: the engine's own set of an ending session. -/
def endSessionEngine (n : SessionIx) (s : State) : State :=
  match s.engine.work with
  | none => settled n s
  | some w =>
    if w.owner ≠ n then settled n s
    else
      match w.phase with
      | .staging =>
          settled n (handOutcome w .removed (queueAbandon w (post (.withdraw (.stages w.take)) s)))
      | .committing => withdrawCommit w .sessionEnd s
      | .withdrawing | .recording => s.withWork (some { w with ended := true })

/-- SESSION_END_APPLY_ENGINE (R70, R85). -/
def execSessionEndApplyEngine (n : SessionIx) (s : State) : Host.Outcome State Fault Refusal :=
  .next (onNotice (.sessionEnd .applyEngine n) (fun _ t => some (endSessionEngine n (dropCaptures n t))) s)

/-! ### The answer to the COMMIT request (R73 to R75) -/

/-- R75: the commit records of a set. -/
def commitRecordsOf (w : Work) (time : Nat) : List CommitRecord :=
  w.items.map fun i =>
    { channel := i.item.channel, target := i.item.target, ramp := i.item.ramp, setId := w.setId
      commitTime := time }

/-- R73, R74, R75: the strobe has been issued. -/
def takeStrobe (w : Work) (time : Nat) (safeAllQueued : Bool) (s : State) : State :=
  post (.commitRecords (commitRecordsOf w time) safeAllQueued)
    (s.withWork (some { w with phase := .recording, cause := none, commitTime := some time }))

/-- The engine is COMMITTING or WITHDRAWING. -/
def Work.awaitsAnswer (w : Work) : Bool := w.phase = .committing || w.phase = .withdrawing

/-- STROBE_ANSWER (R73). -/
def execStrobeAnswer (s : State) : Host.Outcome State Fault Refusal :=
  .next (onNotice .commitAnswer (fun x t =>
    match x with
    | .commitAnswer (.strobe time queued) =>
      match t.engine.work with
      | some w => if w.awaitsAnswer then some (takeStrobe w time queued t) else some t
      | none => some t
    | _ => none) s)

/-- R74: the cause of a withdrawn set: the first recorded, or the controller's reason. -/
def withdrawnCause (w : Work) (a : CommitAnswer) : Cause :=
  match w.cause with
  | some c => c
  | none =>
    match a with
    | .safeDrive => .halted
    | .slotLost => .slotLost
    | .byRequest => .slotLost
    | .strobe _ _ => .slotLost

/-- R74, R71: the COMMIT request was withdrawn. -/
def takeWithdrawn (w : Work) (a : CommitAnswer) (s : State) : State :=
  let c := withdrawnCause w a
  let t := if c = .halted then s else queueAbandon w s
  if w.ended then settled w.owner (handOutcome w .removed t)
  else handOutcome w (.failed c) t

/-- WITHDRAWN_ANSWER (R74). -/
def execWithdrawnAnswer (s : State) : Host.Outcome State Fault Refusal :=
  .next (onNotice .commitAnswer (fun x t =>
    match x with
    | .commitAnswer (.strobe _ _) => none
    | .commitAnswer a =>
      match t.engine.work with
      | some w => if w.awaitsAnswer then some (takeWithdrawn w a t) else some t
      | none => some t
    | _ => none) s)

/-! ### Captures (R78 to R81, R84) -/

/-- R79: the longest time any item takes to reach its target and settle. -/
def captureOffset (items : List WorkItem) : Nat :=
  (items.map fun i => i.item.ramp * 1000 + i.settle).foldl max 0

/-- R79: a set capture's entry, or a CAPTURE report FULL when the list holds 16, with the capture time that the
entry would have had (assumption 42). -/
def makeSetCapture (w : Work) (commit : Nat) (s : State) : State :=
  let at16 := Config.maxCaptures ≤ s.engine.captures.length
  let time := capTime (commit + captureOffset w.items)
  if at16 then
    sessionReport .applyEngine w.owner
      (.capture { setId := w.setId, tag := 0, refTime := commit, captureTime := time
                  items := w.items.map fun i => ⟨i.item.channel, .full, 0⟩ }) s
  else
    s.withEngine { s.engine with
      entries := s.engine.entries + 1
      captures := s.engine.captures ++
        [{ entry := s.engine.entries + 1, take := w.take, owner := w.owner, setId := w.setId, tag := 0
           refTime := commit, captureTime := time, reading := false
           items := w.items.map fun i => ⟨i.item.channel, some i.item.target, none, none⟩
           slots := [] }] }

/-- R75: the Claim Unit has taken the records. -/
def finishRecording (w : Work) (s : State) : State :=
  match w.commitTime with
  | none => s
  | some t =>
    if w.ended then settled w.owner (handOutcome w .removed s)
    else
      let u := handOutcome w (.applied t) s
      if w.capture then makeSetCapture w t u else u

/-- COMMIT_RECORDS_TAKEN (R75). -/
def execCommitRecordsTaken (s : State) : Host.Outcome State Fault Refusal :=
  .next (onNotice .recordsTaken (fun _ t =>
    match t.engine.work with
    | some w => if w.phase = .recording then some (finishRecording w t) else some t
    | none => some t) s)

/-- The entry is replaced in the Capture List. -/
def changeEntry (e : CaptureEntry) (s : State) : State :=
  s.withCaptures (s.engine.captures.map fun x => if x.entry = e.entry then e else x)

/-- R81: every READBACK of the entry has ended. -/
def CaptureEntry.complete (e : CaptureEntry) : Bool := e.slots.all fun r => r.ended.isSome

/-- The entry is kept as it now stands; a complete one is handed to the Claim Unit (R82). -/
def keepEntry (e : CaptureEntry) (s : State) : State :=
  let t := changeEntry e s
  if e.complete then post (.captureComplete e.entry) t else t

/-- R80: the items of a capture made while HALTED. -/
def haltedItem (s : State) (i : CaptureItem) : CaptureItem :=
  { i with result := some (if (s.channel i.channel).isNone then .absent else .halted) }

/-- R80, R81, R135: an item whose channel is ABSENT, or whose READBACK is answered "slot lost" as it is
handed over, gets the result ABSENT. -/
def readableItem (s : State) (i : CaptureItem) : CaptureItem :=
  if (s.channel i.channel).isNone || !s.bus.live.get (slotOfChan i.channel) then
    { i with result := some .absent }
  else i

/-- The items of a slot that wait for a value. -/
def CaptureItem.awaits (i : CaptureItem) (k : SlotIx) : Bool :=
  slotOfChan i.channel = k && i.result.isNone

/-- R80: the capture is made. Slots go up, and the indices in a READBACK stand in the entry's item order (assumption
46). -/
def makeCapture (e : CaptureEntry) (s : State) : State :=
  if s.isHalted then keepEntry { e with reading := true, items := e.items.map (haltedItem s), slots := [] } s
  else
    let items := e.items.map (readableItem s)
    let slots := allSlots.filter fun k => items.any fun i => i.awaits k
    let requests := slots.map fun k => Notice.busRequest .applyEngine
      (.readback k (.capture e.entry)
        ((items.filter fun i => i.awaits k).map fun i => indexOfChan i.channel))
    keepEntry { e with reading := true, items := items, slots := slots.map fun k => ⟨k, none⟩ }
      (postAll requests s)

/-- The outcome of a take has been handed over and the Schedule has not taken it yet. -/
def State.outcomeWaits (s : State) (take : Nat) : Bool :=
  s.notices.any fun n =>
    match n with
    | .outcome k _ _ => k = take
    | _ => false

/-- CAPTURE_EXPIRY (R80): a WAITING entry's capture time has been reached. The capture is made only once the
Schedule has taken the set's outcome, and with it handed over its SET_RESULT (R52). -/
def execCaptureExpiry (entry : Nat) (s : State) : Host.Outcome State Fault Refusal :=
  .next (match s.engine.captures.find? fun e => e.entry = entry with
    | some e =>
      if !e.reading && s.reached e.captureTime && !s.outcomeWaits e.take then makeCapture e s else s
    | none => s)

/-- R81: values are stored with the items that wait for them, in order. -/
def storeValues (k : SlotIx) (values : List Int) (items : List CaptureItem) : List CaptureItem :=
  match items with
  | [] => []
  | i :: rest =>
    if i.awaits k then
      match values with
      | v :: vs => { i with read := some v } :: storeValues k vs rest
      | [] => { i with result := some .absent } :: storeValues k [] rest
    else i :: storeValues k values rest

/-- R81: what the end of a READBACK does to the entry's items. -/
def endRead (k : SlotIx) (r : ReadEnd) (items : List CaptureItem) : List CaptureItem :=
  match r with
  | .answered values => storeValues k values items
  | .failed | .removed => items.map fun i => if i.awaits k then { i with result := some .absent } else i

/-- R81: the end of a READBACK of an entry is taken. -/
def takeReadEnd (e : CaptureEntry) (k : SlotIx) (r : ReadEnd) (s : State) : State :=
  keepEntry
    { e with
      items := endRead k r e.items
      slots := e.slots.map fun x => if x.slot = k then { x with ended := some s.clock.rig } else x } s

/-- CAPTURE_READBACK_END (R81). -/
def execCaptureReadbackEnd (entry : Nat) (slot : SlotIx) (s : State) : Host.Outcome State Fault Refusal :=
  .next (onNotice (.readEnd entry slot) (fun x t =>
    match x with
    | .readEnd _ k r =>
      match t.engine.captures.find? fun e => e.entry = entry with
      | some e => some (takeReadEnd e k r t)
      | none => some t
    | _ => none) s)

/-- R84. -/
def readbackBody (h : Header) (first last : Byte) (n : SessionIx) (s : State) : State :=
  let r : Request := .readback first last
  match rangeOf first last with
  | none => refuse h r .badField s
  | some (a, b) =>
    if Config.maxCaptures ≤ s.engine.captures.length then refuse h r .captureFull s
    else
      let channels := allChannels.filter (inRange a b)
      let e : CaptureEntry :=
        { entry := s.engine.entries + 1, take := 0, owner := n, setId := 0, tag := h.seq.toNat
          refTime := s.clock.rig, captureTime := s.clock.rig, reading := false
          items := channels.map fun c => ⟨c, none, none, none⟩, slots := [] }
      answer h r (doneWith (u16 e.tag ++ u8 channels.length))
        (makeCapture e (s.withEngine { s.engine with
          entries := e.entry, captures := s.engine.captures ++ [e] }))

/-- READBACK (R84). -/
def execReadback (h : Header) (first last : Byte) (s : State) : Host.Outcome State Fault Refusal :=
  serve (.told .applyEngine) h (.readback first last) (readbackBody h first last) s

/-! ### TIME_SET (R85; assumption 12) -/

/-- R85: the capture times of WAITING entries are moved; the commit time of a set being recorded too. -/
def shiftEngine (d : Int) (s : State) : State :=
  s.withEngine { s.engine with
    work := s.engine.work.map fun w => { w with commitTime := w.commitTime.map (shiftTime d) }
    captures := s.engine.captures.map fun e =>
      if e.reading then e else { e with captureTime := shiftTime d e.captureTime } }

end Sys2Proof.Machine
end

