-- ==== Sys2Proof/Machine/CycleUnit.lean ====
section
/-! DEFINITION. The Cycle Unit (spec/05_cycles.md). -/

namespace Sys2Proof.Machine

/-! ### CYCLE_BEGIN and CYCLE_END (R88, R90) -/

/-- R88. -/
def cycleBeginBody (h : Header) (first : Time) (period repeats : Long) (n : SessionIx) (s : State) : State :=
  let r : Request := .cycleBegin first period repeats
  if period.toNat < 1000 then refuse h r .badField s
  else if (s.cycle n).isSome then refuse h r .cycleState s
  else if s.haltedFor .cycleUnit then refuse h r .halted s
  else
    answer h r (doneWith (u48 s.clock.rig))
      (s.withCycle n (some
        { phase := .building, firstStart := first.toNat, period := period.toNat, repeats := repeats.toNat
          begun := 0, current := none, members := [] }))

/-- CYCLE_BEGIN (R88). -/
def execCycleBegin (h : Header) (first : Time) (period repeats : Long) (s : State) :
    Host.Outcome State Fault Refusal :=
  serve (.told .cycleUnit) h (.cycleBegin first period repeats) (cycleBeginBody h first period repeats) s

/-- R90, R91. -/
def cycleEndBody (h : Header) (n : SessionIx) (s : State) : State :=
  match s.cycle n with
  | none => refuse h .cycleEnd .cycleState s
  | some c =>
    if c.phase = .building ∧ c.members ≠ [] then
      answer h .cycleEnd (doneWith (u8 c.members.length ++ u48 s.clock.rig))
        (startPass n { c with phase := .running } c.firstStart s)
    else refuse h .cycleEnd .cycleState s

/-- CYCLE_END (R90). -/
def execCycleEnd (h : Header) (s : State) : Host.Outcome State Fault Refusal :=
  serve (.told .cycleUnit) h .cycleEnd (cycleEndBody h) s

/-! ### The finish of a pass (R92, R93) -/

/-- Every member is PARKED. -/
def passFinished (c : Cycle) (s : State) : Bool :=
  c.members.all fun id =>
    match s.findSet id with
    | some x => x.state = .parked
    | none => false

/-- R91: the start of the pass after the current one. -/
def nextStart (c : Cycle) : Nat := c.current.getD c.firstStart + c.period

/-- R92: passes remain, and the next one's start does not exceed the greatest rig time (R91). -/
def passesRemain (c : Cycle) : Bool :=
  (c.repeats = 0 || c.begun < c.repeats) && decide (nextStart c ≤ Config.maxTime)

/-- R92: what the Cycle Unit does when a member has been parked. -/
def memberParked (n : SessionIx) (id : Nat) (s : State) : State :=
  match s.cycle n with
  | none => s
  | some c =>
    if c.members.contains id && passFinished c s then
      match c.phase with
      | .running =>
        if passesRemain c then startPass n c (nextStart c) s else queueChecks (finishCycle n c .complete s)
      | .stopping .afterPass =>
        queueChecks (finishCycle n c (if passesRemain c then .stopped else .complete) s)
      | .stopping .now => s
      | .building => s
    else s

/-- MEMBER_PARKED_NOTICE (R92). -/
def execMemberParkedNotice (n : SessionIx) (s : State) : Host.Outcome State Fault Refusal :=
  .next (onNotice (.memberParked n) (fun x t =>
    match x with
    | .memberParked m id => some (memberParked m id t)
    | _ => none) s)

/-! ### CYCLE_STOP (R95, R96) -/

/-- The reply of CYCLE_STOP: the state the cycle is left in. -/
def stopReply (c : Option Cycle) : Answer := doneWith (u8 (cycleStateCode c))

/-- A member of the cycle is APPLYING. -/
def memberApplying (c : Cycle) (s : State) : Bool :=
  s.sets.any fun x => c.members.contains x.id && x.state = .applying

/-- R95, R96: the members leave; the record ends, or waits under NOW for a member that is APPLYING. The comparison
of R57 comes last, after the CYCLE_CHANGE (assumption 41). -/
def stopNow (h : Header) (r : Request) (n : SessionIx) (c : Cycle) (s : State) : State :=
  let t := stopMembers c [] s
  if memberApplying c s then
    match t.cycle n with
    | some k => answer h r (stopReply (some { k with phase := .stopping .now }))
        (queueChecks (t.withCycle n (some { k with phase := .stopping .now })))
    | none => queueChecks t
  else answer h r (stopReply none) (queueChecks (closeCycle .schedule n c .stopped none t))

/-- R95, R96. -/
def cycleStopBody (h : Header) (kind : Byte) (n : SessionIx) (s : State) : State :=
  let r : Request := .cycleStop kind
  match stopKindOf kind, s.cycle n with
  | none, _ => refuse h r .badField s
  | some _, none => refuse h r .cycleState s
  | some .now, some c =>
    match c.phase with
    | .stopping .now => answer h r (stopReply (some c)) s
    | .building | .running | .stopping .afterPass => stopNow h r n c s
  | some .afterPass, some c =>
    match c.phase with
    | .building => stopNow h r n c s
    | .running =>
      let k : Cycle := { c with phase := .stopping .afterPass }
      answer h r (stopReply (some k)) (s.withCycle n (some k))
    | .stopping _ => answer h r (stopReply (some c)) s

/-- CYCLE_STOP (R95). -/
def execCycleStop (h : Header) (kind : Byte) (s : State) : Host.Outcome State Fault Refusal :=
  serve (.told .cycleUnit) h (.cycleStop kind) (cycleStopBody h kind) s

/-! ### Halt and session end (R97, R98) -/

/-- R97: members keep the pass they were in when the Cycle Unit ended their cycle; an APPLYING one is
detached. -/
def detachForHalt (c : Cycle) (s : State) : State :=
  s.withSets (s.sets.map fun x =>
    if c.members.contains x.id then
      { x with pass := c.begun, member := x.member && x.state ≠ .applying }
    else x)

/-- R97: a session's cycle ends HALTED. A PARKED member sealed after a RESUME that came before this event stays
(assumption 15). -/
def haltCycle (s : State) (n : SessionIx) : State :=
  match s.cycle n with
  | some c => closeCycle .cycleUnit n c .halted none (detachForHalt c s)
  | none => s

/-- HALT_ENTRY_CYCLE_UNIT (R97). Sessions go up (assumption 46). -/
def execHaltEntryCycleUnit (s : State) : Host.Outcome State Fault Refusal :=
  .next (onNotice (.halt .cycleUnit) (fun _ t => some (allSessions.foldl haltCycle t)) s)

/-- SESSION_END_CYCLE_UNIT (R98, R155). -/
def execSessionEndCycleUnit (n : SessionIx) (s : State) : Host.Outcome State Fault Refusal :=
  .next (onNotice (.sessionEnd .cycleUnit n) (fun _ t => some (t.withCycle n none)) s)

/-! ### CYCLE_STATUS (R100; layout: assumption 21) -/

/-- A member's id, offset, state and due time; of a listed member whose set has left already at the Schedule's halt
entry, 0 and no due time (assumption 15). -/
def memberEntry (s : State) (id : Nat) : List Byte :=
  match s.findSet id with
  | some x =>
    u16 id ++ u32 (match x.due with | .offset v => v | _ => 0) ++ u8 (setStateCode x.state) ++
      wOpt 6 u48 x.dueTime
  | none => u16 id ++ u32 0 ++ u8 0 ++ wOpt 6 u48 none

/-- The stop kind of a STOPPING cycle. -/
def stopKindIn (c : Cycle) : Option StopKind :=
  match c.phase with
  | .stopping k => some k
  | .building | .running => none

/-- R100: the reply, from a position of the member list on. R87's members are sent as these entries alone (assumption
21); the "more" flag and the rig time follow them (assumption 55). -/
def cycleStatusBytes (m : SessionIx) (position : Nat) (s : State) : List Byte :=
  let c := s.cycle m
  let rest := (match c with | some k => k.members | none => []).drop position
  u8 (cycleStateCode c) ++ u8 (sessionNumber m) ++ wOpt 6 (fun k : Cycle => u48 k.firstStart) c ++
    wOpt 4 (fun k : Cycle => u32 k.period) c ++ wOpt 4 (fun k : Cycle => u32 k.repeats) c ++
    wOpt 4 (fun k : Cycle => u32 k.begun) c ++ wOpt 6 u48 (c.bind (·.current)) ++
    wOpt 1 (fun k => u8 (stopKindCode k)) (c.bind stopKindIn) ++
    wList (memberEntry s) (rest.take 8) ++ wFlag (decide (8 < rest.length)) ++ u48 s.clock.rig

/-- R100. -/
def cycleStatusBody (h : Header) (session position : Byte) (s : State) : State :=
  let r : Request := .cycleStatus session position
  match sessionOf session with
  | none => refuse h r .badField s
  | some m =>
    if 15 < position.toNat then refuse h r .badField s
    else answer h r (doneWith (cycleStatusBytes m position.toNat s)) s

/-- CYCLE_STATUS (R100). -/
def execCycleStatus (h : Header) (session position : Byte) (s : State) : Host.Outcome State Fault Refusal :=
  serve (.told .cycleUnit) h (.cycleStatus session position) (fun _ => cycleStatusBody h session position) s

end Sys2Proof.Machine
end

