-- ==== Sys2Proof/Machine/ModuleBus.lean ====
section
/-! DEFINITION. The Module Bus Controller (spec/08_the_module_bus.md). -/

namespace Sys2Proof.Machine

/-! ### Transactions -/

/-- The slot of an addressed transaction. -/
def Txn.slot (t : Txn) : Option SlotIx :=
  match t with
  | .describe k _ => some k
  | .stage k _ _ => some k
  | .readback k _ _ => some k
  | .driveSafe k _ => some k
  | .abandon => none
  | .safeAll => none

/-- The four classes. -/
inductive BusClass
  | safe
  | apply
  | identify
  | readback
deriving DecidableEq, Repr

/-- R135: the class of a transaction. -/
def Txn.class (t : Txn) : BusClass :=
  match t with
  | .describe _ _ => .identify
  | .stage _ _ _ => .apply
  | .readback _ (.capture _) _ => .readback
  | .readback _ (.held _) _ => .identify
  | .driveSafe _ _ => .safe
  | .abandon => .apply
  | .safeAll => .safe

def Bus.queue (b : Bus) (c : BusClass) : List Txn :=
  match c with
  | .safe => b.safeQ
  | .apply => b.applyQ
  | .identify => b.identifyQ
  | .readback => b.readbackQ

def Bus.withQueue (b : Bus) (c : BusClass) (q : List Txn) : Bus :=
  match c with
  | .safe => { b with safeQ := q }
  | .apply => { b with applyQ := q }
  | .identify => { b with identifyQ := q }
  | .readback => { b with readbackQ := q }

/-- R135: the union of two lists of safe values; the newer value replaces the older. The older entries keep their
places and new channels follow (assumption 44). -/
def mergeValues (older newer : List (Nat × Int)) : List (Nat × Int) :=
  (older.map fun v => (newer.find? fun w => w.1 = v.1).getD v) ++
    newer.filter fun w => !older.any fun v => v.1 = w.1

/-- The values of a DRIVE_SAFE for a slot. -/
def Txn.driveSafeFor (t : Txn) (k : SlotIx) : Option (List (Nat × Int)) :=
  match t with
  | .driveSafe j vs => if j = k then some vs else none
  | .describe _ _ | .stage _ _ _ | .readback _ _ _ | .abandon | .safeAll => none

/-- R135: a DRIVE_SAFE joins the SAFE queue or is merged into the one that waits for its slot. -/
def mergeDriveSafe (k : SlotIx) (vs : List (Nat × Int)) (q : List Txn) : List Txn :=
  if q.any fun t => (t.driveSafeFor k).isSome then
    q.map fun t =>
      match t.driveSafeFor k with
      | some old => .driveSafe k (mergeValues old vs)
      | none => t
  else q ++ [.driveSafe k vs]

/-- A broadcast joins a queue unless it waits there already (R135). -/
def joinOnce (t : Txn) (q : List Txn) : List Txn := if q.contains t then q else q ++ [t]

/-- R135: a request joins its class queue. -/
def Bus.enqueue (b : Bus) (t : Txn) : Bus :=
  match t with
  | .driveSafe k vs => { b with safeQ := mergeDriveSafe k vs b.safeQ }
  | .safeAll => { b with safeQ := joinOnce .safeAll b.safeQ }
  | .abandon => { b with applyQ := joinOnce .abandon b.applyQ }
  | .describe _ _ | .stage _ _ _ | .readback _ _ _ => b.withQueue t.class (b.queue t.class ++ [t])

/-- R135, R139: the requester of a transaction is told "slot lost". The Apply Engine is handed a notice for a STAGE
(R67) and for a capture READBACK (R81). No rule says what the Slot Controller does when it is told so for a DESCRIBE or
a held READBACK, or the Claim Unit for a DRIVE_SAFE: there it has no effect in the model, and no notice is handed over
(assumption 56). No broadcast is answered so. -/
def slotLostNotices (t : Txn) : List Notice :=
  match t with
  | .stage k take _ => [.stageEnd k take .slotLost]
  | .readback k (.capture e) _ => [.readEnd e k .removed]
  | .readback _ (.held _) _ | .describe _ _ | .driveSafe _ _ | .abandon | .safeAll => []

/-- R137: the requester receives a failure notice. -/
def failureNotices (t : Txn) : List Notice :=
  match t with
  | .stage k take _ => [.stageEnd k take .failed]
  | .readback k (.capture e) _ => [.readEnd e k .failed]
  | .readback _ (.held _) _ | .describe _ _ | .driveSafe _ _ | .abandon | .safeAll => []

/-! ### Replies (R137, R142, R145) -/

/-- The values of a READBACK reply, from its third byte on. -/
def replyValues (bytes : List Byte) (n : Nat) : List Int :=
  (List.range n).map fun i => signed (rd16 bytes (2 + 2 * i))

/-- R145: the length of a reply, opcode and check byte included. -/
def replyLength (t : Txn) : Nat :=
  match t with
  | .describe _ _ => 99
  | .stage _ _ _ => 2
  | .readback _ _ idx => 3 + 2 * idx.length
  | .driveSafe _ _ => 2
  | .abandon => 0
  | .safeAll => 0

/-- R145: a READBACK reply's count equals the request's. -/
def countAgrees (t : Txn) (bytes : List Byte) : Bool :=
  match t with
  | .readback _ _ idx => (rd8 bytes 1).toNat = idx.length
  | .describe _ _ | .stage _ _ _ | .driveSafe _ _ | .abandon | .safeAll => true

/-- R137: the reply is good: its check byte agrees and it has the form its transaction calls for. -/
def goodReply (t : Txn) (bytes : List Byte) : Bool :=
  sumsToZero bytes && rd8 bytes 0 = BitVec.ofNat 8 (txnCode t) && bytes.length = replyLength t &&
    countAgrees t bytes

/-- R137: what the requester is handed with a good reply. -/
def answerNotices (t : Txn) (bytes : List Byte) : List Notice :=
  match t with
  | .describe k ident => [.describeReply k ident ((bytes.drop 1).take 97)]
  | .stage k take _ => [.stageEnd k take .accepted]
  | .readback k (.capture e) idx => [.readEnd e k (.answered (replyValues bytes idx.length))]
  | .readback k (.held i) idx => [.heldReply k i (replyValues bytes idx.length)]
  | .driveSafe _ _ | .abandon | .safeAll => []

/-! ### Granting (R136, R138, R141) -/

/-- R141: the strobe. -/
def issueStrobe (c : CommitReq) (s : State) : State :=
  let queued := s.bus.safeQ.contains .safeAll
  let t := post (.commitAnswer (.strobe s.clock.rig queued))
    ((strobeModules s).withBus { s.bus with commit := none })
  if c.sync then post (.syncCommit s.clock.rig) t else t

/-- R136: a held COMMIT request is served first. -/
def serveCommit (s : State) : State :=
  match s.bus.commit with
  | some c => issueStrobe c s
  | none => s

/-- R136: the oldest request of the highest non-empty class, and the controller without it. -/
def popRequest (b : Bus) : Option (Txn × Bus) :=
  match b.safeQ, b.applyQ, b.identifyQ, b.readbackQ with
  | t :: q, _, _, _ => some (t, { b with safeQ := q })
  | [], t :: q, _, _ => some (t, { b with applyQ := q })
  | [], [], t :: q, _ => some (t, { b with identifyQ := q })
  | [], [], [], t :: q => some (t, { b with readbackQ := q })
  | [], [], [], [] => none

/-- An attempt of a transaction begins: its bytes go out and reach the modules. -/
def beginAttempt (t : Txn) (attempt : Nat) (s : State) : State :=
  let no := s.bus.attempts + 1
  transactionReaches t no (s.withBus { s.bus with
    attempts := no
    current := some { txn := t, attempt := attempt, attemptNo := no, began := s.clock.uptime
                      wire := txnBytes t none, safeValues := none } })

/-- R64: the engine's mark of a slot whose STAGE is granted becomes IN_PROGRESS. -/
def markInProgress (t : Txn) (s : State) : State :=
  match t with
  | .stage k take _ =>
    match workIn take .staging s with
    | some w => s.withWork (some (w.mark k fun x => { x with mark := .inProgress }))
    | none => s
  | .describe _ _ | .readback _ _ _ | .driveSafe _ _ | .abandon | .safeAll => s

/-- R138, R72: the grant of a SAFE_ALL asks the Claim Unit for its values and withdraws a held COMMIT. -/
def grantSafeAll (s : State) : State :=
  let t := post .safeAllValues s
  match t.bus.commit with
  | some _ => post (.commitAnswer .safeDrive) (t.withBus { t.bus with commit := none })
  | none => t

/-- R136: a request leaves its queue and becomes the transaction in progress. -/
def startTransaction (t : Txn) (s : State) : State :=
  let u := markInProgress t (beginAttempt t 1 s)
  if t = .safeAll then grantSafeAll u else u

/-- R136: while the bus is IDLE, a held COMMIT request is served and then a request is granted. -/
def grantBus (s : State) : State :=
  match s.bus.current with
  | some _ => s
  | none =>
    let t := serveCommit s
    match popRequest t.bus with
    | some (x, b) => startTransaction x (t.withBus b)
    | none => t

/-! ### Requests, withdrawals and notices -/

/-- R135: a request is taken. -/
def takeBusRequest (t : Txn) (s : State) : State :=
  let lost := match t.slot with
    | some k => !s.bus.live.get k
    | none => false
  if lost then postAll (slotLostNotices t) s
  else grantBus (s.withBus (s.bus.enqueue t))

/-- The lane of a requester. -/
def requesterLane (r : Requester) : Lane :=
  match r with
  | .applyEngine => .engineToBus
  | .claimUnit => .claimToBus
  | .slotController k => .slotToBus k

/-- What a STAGE for a slot handed over after the notice stands behind: a DRIVE_SAFE for the slot (R16, R136)
and, once the part has been resumed, the halt entry that has a SAFE_ALL queued (R112, R146). -/
def Notice.drivesSafe (n : Notice) (k : SlotIx) (resumed : Bool) : Bool :=
  match n with
  | .busRequest _ t => (t.driveSafeFor k).isSome
  | .haltEntry .busController _ => resumed
  | _ => false

/-- R16, R112, R136: the oldest request of a lane is a STAGE, and what drives its slot safe was handed over before
it and has still to be taken. That is taken first, so that it is sent first (assumption 9). -/
def stageMustWait (lane : Lane) (t : Txn) (s : State) : Bool :=
  match t with
  | .stage k _ _ =>
      (s.notices.takeWhile fun n => noticeLane n ≠ lane).any fun n => n.drivesSafe k !s.isHalted
  | .describe _ _ | .readback _ _ _ | .driveSafe _ _ | .abandon | .safeAll => false

/-- BUS_REQUEST (R135). -/
def execBusRequest (requester : Requester) (s : State) : Host.Outcome State Fault Refusal :=
  .next (onNotice (requesterLane requester) (fun x t =>
    match x with
    | .busRequest _ r => if stageMustWait (requesterLane requester) r s then none else some (takeBusRequest r t)
    | _ => none) s)

/-- R141: the COMMIT request is taken. One that names a slot no longer live is withdrawn (R72;
assumption 37). -/
def takeCommitRequest (c : CommitReq) (s : State) : State :=
  if c.slots.all s.bus.live.get then grantBus (s.withBus { s.bus with commit := some c })
  else post (.commitAnswer .slotLost) s

/-- COMMIT_REQUEST (R141). -/
def execCommitRequest (s : State) : Host.Outcome State Fault Refusal :=
  .next (onNotice .engineToBus (fun x t =>
    match x with
    | .commitRequest c => some (takeCommitRequest c t)
    | _ => none) s)

/-- The transaction is a STAGE of a take. -/
def Txn.isStageOf (t : Txn) (take : Nat) : Bool :=
  match t with
  | .stage _ n _ => n = take
  | .describe _ _ | .readback _ _ _ | .driveSafe _ _ | .abandon | .safeAll => false

/-- The transaction is a READBACK of one of some capture entries. -/
def Txn.isReadOf (t : Txn) (entries : List Nat) : Bool :=
  match t with
  | .readback _ (.capture e) _ => entries.contains e
  | .readback _ (.held _) _ | .describe _ _ | .stage _ _ _ | .driveSafe _ _ | .abandon | .safeAll => false

/-- R140, R141: what is still queued is removed; a held COMMIT request is answered. -/
def takeWithdrawal (w : Withdrawn) (s : State) : State :=
  match w with
  | .stages take => s.withBus { s.bus with applyQ := s.bus.applyQ.filter fun t => !t.isStageOf take }
  | .readbacks es => s.withBus { s.bus with readbackQ := s.bus.readbackQ.filter fun t => !t.isReadOf es }
  | .commit take =>
    match s.bus.commit with
    | some c =>
      if c.take = take then post (.commitAnswer .byRequest) (s.withBus { s.bus with commit := none }) else s
    | none => s

/-- WITHDRAWAL (R140). -/
def execWithdrawal (s : State) : Host.Outcome State Fault Refusal :=
  .next (onNotice .engineToBus (fun x t =>
    match x with
    | .withdraw w => some (takeWithdrawal w t)
    | _ => none) s)

/-- SLOT_POWERED_NOTICE (R139). -/
def execSlotPoweredNotice (slot : SlotIx) (s : State) : Host.Outcome State Fault Refusal :=
  .next (onNotice (.slotToBus slot) (fun x t =>
    match x with
    | .slotPowered k => some (t.withBus { t.bus with live := t.bus.live.put k true })
    | _ => none) s)

/-- The queued requests addressed to a slot, class by class. -/
def queuedFor (k : SlotIx) (b : Bus) : List Txn :=
  (b.safeQ ++ b.applyQ ++ b.identifyQ ++ b.readbackQ).filter fun t => t.slot = some k

/-- The controller without the requests addressed to a slot and without its live mark. -/
def Bus.without (b : Bus) (k : SlotIx) : Bus :=
  { b with
    live := b.live.put k false
    safeQ := b.safeQ.filter fun t => t.slot ≠ some k
    applyQ := b.applyQ.filter fun t => t.slot ≠ some k
    identifyQ := b.identifyQ.filter fun t => t.slot ≠ some k
    readbackQ := b.readbackQ.filter fun t => t.slot ≠ some k }

/-- R139, R72: a held COMMIT request that names a slot is answered "withdrawn, slot lost". -/
def withdrawNaming (k : SlotIx) (s : State) : State :=
  match s.bus.commit with
  | some c =>
    if c.slots.contains k then post (.commitAnswer .slotLost) (s.withBus { s.bus with commit := none }) else s
  | none => s

/-- R139: a slot has left a powered state. -/
def takeLeftPowered (k : SlotIx) (s : State) : State :=
  if s.bus.live.get k then
    withdrawNaming k (postAll ((queuedFor k s.bus).flatMap slotLostNotices) (s.withBus (s.bus.without k)))
  else s

/-- LEFT_POWERED_NOTICE (R139). -/
def execLeftPoweredNotice (slot : SlotIx) (s : State) : Host.Outcome State Fault Refusal :=
  .next (onNotice (.slotToBus slot) (fun x t =>
    match x with
    | .slotLeftPowered k => some (takeLeftPowered k t)
    | _ => none) s)

/-- HALT_ENTRY_BUS_CONTROLLER (R146). -/
def execHaltEntryBusController (s : State) : Host.Outcome State Fault Refusal :=
  .next (onNotice (.halt .busController) (fun _ t => some (grantBus (t.withBus (t.bus.enqueue .safeAll)))) s)

/-! ### The end of a transaction (R137, R138) -/

/-- The bus is IDLE again, and R136 applies. -/
def endTransaction (s : State) : State := grantBus (s.withBus { s.bus with current := none })

/-- R137: an attempt had no reply: attempt 2 is made at once, or the transaction fails. -/
def noReply (p : InProgress) (k : SlotIx) (s : State) : State :=
  if p.attempt = 1 then
    beginAttempt p.txn 2 (s.withBus { s.bus with retries := s.bus.retries.update k bump })
  else
    endTransaction (postAll (failureNotices p.txn ++ [.busFailure k])
      (s.withBus { s.bus with failures := s.bus.failures.update k bump }))

/-- R137: a complete reply to the attempt in progress. -/
def takeReply (p : InProgress) (k : SlotIx) (bytes : List Byte) (s : State) : State :=
  if goodReply p.txn bytes then endTransaction (postAll (answerNotices p.txn bytes) s) else noReply p k s

/-- MODULE_REPLY (R137). A reply to an attempt that is not in progress, or that has timed out, is ignored
(assumption 20). -/
def execModuleReply (attempt : Nat) (bytes : List Byte) (s : State) : Host.Outcome State Fault Refusal :=
  .next (match s.bus.current with
    | some p =>
      match p.txn.slot with
      | some k => if p.attemptNo = attempt then takeReply p k bytes s else s
      | none => s
    | none => s)

/-- The reply timeout in µs (R137; assumption 19). -/
def replyTimeout : Nat := 200

/-- REPLY_TIMEOUT (R137). -/
def execReplyTimeout (s : State) : Host.Outcome State Fault Refusal :=
  .next (match s.bus.current with
    | some p =>
      match p.txn.slot with
      | some k => if s.elapsed (p.began + replyTimeout) then noReply p k s else s
      | none => s
    | none => s)

/-- BROADCAST_END (R138). A SAFE_ALL ends once it has been given its values (assumption 26). -/
def execBroadcastEnd (s : State) : Host.Outcome State Fault Refusal :=
  .next (match s.bus.current with
    | some p =>
      match p.txn with
      | .abandon => endTransaction s
      | .safeAll => if p.safeValues.isSome then endTransaction s else s
      | .describe _ _ | .stage _ _ _ | .readback _ _ _ | .driveSafe _ _ => s
    | none => s)

end Sys2Proof.Machine
end

