-- ==== Sys2Proof/Machine/SlotController.lean ====
section
/-! DEFINITION. The Slot Controller (spec/07_slots_and_module_identification.md). -/

namespace Sys2Proof.Machine

/-! ### Readings and states -/

/-- R116. -/
def readingOf (x : Sense) : Reading :=
  match x.snsA, x.snsB, x.key with
  | false, false, _ => .vacant
  | true, false, _ => .partialSeat
  | false, true, _ => .partialSeat
  | true, true, false => .seatedLow
  | true, true, true => .seatedHigh

/-- R116: the rail a reading calls for. -/
def railFor (r : Reading) : Option Rail :=
  match r with
  | .vacant => none
  | .partialSeat => none
  | .seatedLow => some .v12
  | .seatedHigh => some .v24

/-- R117: the states in which a slot's power is on. -/
def SlotState.powered (x : SlotState) : Bool :=
  match x with
  | .powering | .identifying | .ready => true
  | .empty | .settling | .fault | .disabled => false

/-- A slot record without power (R117, R121). -/
def Slot.unpowered (x : Slot) : Slot :=
  { x with enable := none, held := false, settleTimer := none, powerTimer := none }

/-- A slot record on the way to EMPTY, SETTLING, POWERING or DISABLED loses rail, descriptor and fault
reason. -/
def Slot.cleared (x : Slot) : Slot := { x.unpowered with rail := none, descriptor := none, fault := none }

def Slot.toEmpty (x : Slot) : Slot := { x.cleared with state := .empty }
def Slot.toDisabled (x : Slot) : Slot := { x.cleared with state := .disabled }
/-- SETTLING, with its timer to an instant. -/
def Slot.toSettling (x : Slot) (timer : Nat) : Slot :=
  { x.cleared with state := .settling, settleTimer := some timer }
/-- POWERING on a rail, with its timer to an instant. -/
def Slot.toPowering (x : Slot) (rail : Rail) (timer : Nat) : Slot :=
  { x.cleared with state := .powering, rail := some rail, enable := some rail, powerTimer := some timer }
/-- FAULT; rail and descriptor stay. -/
def Slot.toFault (x : Slot) (f : FaultReason) : Slot := { x.unpowered with state := .fault, fault := some f }

/-- R131: the report of a change of state. -/
def slotChangeOf (k : SlotIx) (previous : SlotState) (held : Bool) (x : Slot) (now : Nat) : Report :=
  .slotChange
    { slot := k, state := x.state, previous := previous, reading := x.reading
      fault := if x.state = .fault then x.fault else none
      rail := x.rail
      held := if x.state = .ready then some held else none
      summary := if x.state = .ready then x.descriptor.map fun d => (d.model, d.serial, d.count) else none
      eventTime := now }

/-- A slot takes a new state: the state time is written and SLOT_CHANGE is handed over (R117, R131). -/
def enterState (k : SlotIx) (held : Bool) (x : Slot) (s : State) : State :=
  let y := { x with stateTime := s.clock.rig }
  systemReport .slotController (slotChangeOf k (s.slot k).state held y s.clock.rig) (s.withSlot k y)

/-- R121: the slot's power goes and the blocks concerned are told. -/
def leavePowered (k : SlotIx) (s : State) : State :=
  let t := post (.slotLeftPowered k) (s.withModule k Module.off)
  if (s.slot k).state = .ready then
    let u := post (.slotLeftReady k) t
    match s.engine.work with
    | some w => if w.slots.any fun x => x.slot = k then post (.engineSlotLost k w.take) u else u
    | none => u
  else t

/-- A slot leaves for an unpowered state, with the consequences of R121 if it was powered. -/
def moveTo (k : SlotIx) (x : Slot) (s : State) : State :=
  enterState k false x (if (s.slot k).state.powered then leavePowered k s else s)

/-- The 50 ms settle time and the 20 ms power-good time, in µs. -/
def settleTime : Nat := 50000
def powerTime : Nat := 20000

/-- A powered or unpowered slot goes to SETTLING. -/
def settle (k : SlotIx) (s : State) : State := moveTo k ((s.slot k).toSettling (s.instant settleTime)) s

/-- A slot goes to FAULT. -/
def faultSlot (k : SlotIx) (f : FaultReason) (s : State) : State := moveTo k ((s.slot k).toFault f) s

/-! ### Power-up and identification (R119, R122) -/

/-- R122: power-good takes a POWERING slot to IDENTIFYING, and a DESCRIBE is asked for. -/
def identify (k : SlotIx) (s : State) : State :=
  let x := s.slot k
  post (.busRequest (.slotController k) (.describe k (x.ident + 1)))
    (enterState k false { x with state := .identifying, powerTimer := none, ident := x.ident + 1 } s)

/-- R122: a power-good assertion is taken. -/
def takePowerGood (k : SlotIx) (s : State) : State :=
  if (s.slot k).state = .powering then identify k s else s

/-- R120: an overcurrent assertion is taken. -/
def takeOvercurrent (k : SlotIx) (s : State) : State :=
  if (s.slot k).state.powered then faultSlot k .overcurrent s else s

/-- R122: inputs already asserted when the rail is switched on are taken as assertions, in either order
(free value, assumption 18). -/
def takeAsserted (k : SlotIx) (s : State) : State :=
  let x := s.slot k
  match x.powerGood, x.overcurrent with
  | false, false => s
  | true, false => takePowerGood k s
  | false, true => takeOvercurrent k s
  | true, true =>
    let t := s.withFree (s.free + 1)
    if Config.overcurrentFirst s.free then takePowerGood k (takeOvercurrent k t)
    else takeOvercurrent k (takePowerGood k t)

/-- R119: the slot is taken to POWERING: its rail is switched on, and the controller is told (R139). -/
def powerUp (k : SlotIx) (rail : Rail) (s : State) : State :=
  takeAsserted k (post (.slotPowered k)
    ((enterState k false ((s.slot k).toPowering rail (s.instant powerTime)) s).withModule k Module.fresh))

/-- R119, R129: an unpowered slot is judged by its reading. -/
def judge (k : SlotIx) (s : State) : State :=
  match (s.slot k).reading with
  | .vacant => moveTo k (s.slot k).toEmpty s
  | .partialSeat => faultSlot k .misseated s
  | .seatedLow => powerUp k .v12 s
  | .seatedHigh => powerUp k .v24 s

/-! ### Line events -/

/-- R118, R120, R127, R129: a change of reading that the record already shows. -/
def takeReading (k : SlotIx) (s : State) : State :=
  let x := s.slot k
  match x.state with
  | .empty => if x.reading = .vacant then s else settle k s
  | .settling => s.withSlot k { x with settleTimer := some (s.instant settleTime) }
  | .powering | .identifying | .ready =>
    if x.reading = .vacant then moveTo k x.toEmpty s else settle k s
  | .fault => if x.reading = .vacant then moveTo k x.toEmpty s else s
  | .disabled => s

/-- READING_CHANGE (R116): the slot's sense lines stand as given. A change that leaves the reading as it was
is no event. -/
def execReadingChange (slot : SlotIx) (sense : Sense) (s : State) : Host.Outcome State Fault Refusal :=
  let x := s.slot slot
  let t := s.withSlot slot { x with sense := sense, reading := readingOf sense }
  .next (if readingOf sense = x.reading then t else takeReading slot t)

/-- SETTLE_TIMER_EXPIRY (R119). -/
def execSettleTimerExpiry (slot : SlotIx) (s : State) : Host.Outcome State Fault Refusal :=
  .next (match (s.slot slot).state, (s.slot slot).settleTimer with
    | .settling, some t => if s.elapsed t then judge slot s else s
    | _, _ => s)

/-- POWER_GOOD_ASSERT (R122). -/
def execPowerGoodAssert (slot : SlotIx) (s : State) : Host.Outcome State Fault Refusal :=
  .next (takePowerGood slot (s.withSlot slot { s.slot slot with powerGood := true }))

/-- POWER_GOOD_TIMER_EXPIRY (R122). -/
def execPowerGoodTimerExpiry (slot : SlotIx) (s : State) : Host.Outcome State Fault Refusal :=
  .next (match (s.slot slot).state, (s.slot slot).powerTimer with
    | .powering, some t => if s.elapsed t then faultSlot slot .noPower s else s
    | _, _ => s)

/-- R120: IDENTIFYING or READY. -/
def SlotState.identified (x : SlotState) : Bool :=
  match x with
  | .identifying | .ready => true
  | .empty | .settling | .powering | .fault | .disabled => false

/-- POWER_GOOD_DEASSERT (R120). -/
def execPowerGoodDeassert (slot : SlotIx) (s : State) : Host.Outcome State Fault Refusal :=
  let t := s.withSlot slot { s.slot slot with powerGood := false }
  .next (if (s.slot slot).state.identified then faultSlot slot .noPower t else t)

/-- OVERCURRENT (R120): the input stands as given (assumption 25). -/
def execOvercurrent (slot : SlotIx) (asserted : Bool) (s : State) : Host.Outcome State Fault Refusal :=
  let t := s.withSlot slot { s.slot slot with overcurrent := asserted }
  .next (if asserted then takeOvercurrent slot t else t)

/-! ### Notices of the bus -/

/-- BUS_FAILURE_NOTICE (R120). -/
def execBusFailureNotice (slot : SlotIx) (s : State) : Host.Outcome State Fault Refusal :=
  .next (onNotice (.busToSlot slot) (fun x t =>
    match x with
    | .busFailure k => some (if (t.slot k).state.identified then faultSlot k .noReply t else t)
    | _ => none) s)

/-- R126: the slot becomes READY; the Claim Unit is handed the descriptor and the values read back. -/
def becomeReady (k : SlotIx) (d : Descriptor) (held : Option HeldValues) (s : State) : State :=
  post (.slotReady k d held)
    (enterState k held.isSome { s.slot k with state := .ready, held := false, descriptor := some d } s)

/-- R123 to R125: the descriptor is stored and judged. -/
def takeDescriptor (k : SlotIx) (bytes : List Byte) (s : State) : State :=
  let x := s.slot k
  let d := readDescriptor bytes x.rail
  let t := s.withSlot k { x with descriptor := some d }
  if !d.valid then faultSlot k .badDescriptor t
  else if x.held then
    post (.busRequest (.slotController k) (.readback k (.held x.ident) (List.range d.count))) t
  else becomeReady k d none t

/-- DESCRIBE_REPLY (R123). -/
def execDescribeReply (slot : SlotIx) (s : State) : Host.Outcome State Fault Refusal :=
  .next (onNotice (.busToSlot slot) (fun x t =>
    match x with
    | .describeReply k ident bytes =>
      some (if (t.slot k).state = .identifying ∧ (t.slot k).ident = ident then takeDescriptor k bytes t
        else t)
    | _ => none) s)

/-- HELD_READBACK_REPLY (R125, R126). -/
def execHeldReadbackReply (slot : SlotIx) (s : State) : Host.Outcome State Fault Refusal :=
  .next (onNotice (.busToSlot slot) (fun x t =>
    match x with
    | .heldReply k ident values =>
      let y := t.slot k
      some (if y.state = .identifying ∧ y.ident = ident ∧ y.held = true then
          match y.descriptor with
          | some d => becomeReady k d (some ⟨values, t.clock.rig⟩) t
          | none => t
        else t)
    | _ => none) s)

/-! ### Requests (R127 to R130) -/

/-- R127: what SLOT_RESET makes of a slot in FAULT. -/
def resetSlot (k : SlotIx) (s : State) : State :=
  match (s.slot k).reading with
  | .vacant => moveTo k (s.slot k).toEmpty s
  | .partialSeat => settle k s
  | .seatedLow => powerUp k .v12 s
  | .seatedHigh => powerUp k .v24 s

/-- R127, R129: the state a slot is judged into by its reading (assumption 18). -/
def judgedState (r : Reading) (partialTo : SlotState) : SlotState :=
  match r with
  | .vacant => .empty
  | .partialSeat => partialTo
  | .seatedLow => .powering
  | .seatedHigh => .powering

/-- R127. -/
def slotResetBody (h : Header) (slot : Byte) (s : State) : State :=
  let r : Request := .slotReset slot
  match slotOf slot with
  | none => refuse h r .badField s
  | some k =>
    if (s.slot k).state ≠ .fault then refuse h r .slotState s
    else answer h r (doneWith (u8 (slotStateCode (judgedState (s.slot k).reading .settling)))) (resetSlot k s)

/-- SLOT_RESET (R127). -/
def execSlotReset (h : Header) (slot : Byte) (s : State) : Host.Outcome State Fault Refusal :=
  serve .notTold h (.slotReset slot) (fun _ => slotResetBody h slot) s

/-- The Claim Unit takes what the Slot Controller has told it of a slot, in order. -/
def drainClaims (fuel : Nat) (k : SlotIx) (s : State) : State :=
  match fuel with
  | 0 => s
  | f + 1 =>
    match headNotice (.slotToClaim k) s with
    | some (.slotReady j d held) =>
        drainClaims f k (grantPass (makePresent j d held (dropNotice (.slotToClaim k) s)))
    | some (.slotLeftReady j) => drainClaims f k (makeAbsent j (dropNotice (.slotToClaim k) s))
    | _ => s

/-- R128: the slot goes to DISABLED; a READY slot's channels become ABSENT in the same event
(assumption 24). -/
def disableSlot (k : SlotIx) (s : State) : State :=
  let t := moveTo k (s.slot k).toDisabled s
  if (s.slot k).state = .ready then drainClaims t.notices.length k t else t

/-- R128: a channel of the slot is owned by another session. -/
def slotHeldByOther (k : SlotIx) (n : SessionIx) (s : State) : Bool :=
  (slotChannels k).any fun c =>
    match s.channel c with
    | some x => x.owner.any fun m => m ≠ n
    | none => false

/-- R128. The owners are checked as the Channel Table stands, before the Claim Unit takes what is on its way to it of
the slot (assumption 24). -/
def slotDisableBody (h : Header) (slot : Byte) (n : SessionIx) (s : State) : State :=
  let r : Request := .slotDisable slot
  match slotOf slot with
  | none => refuse h r .badField s
  | some k =>
    if (s.slot k).state = .disabled then refuse h r .slotState s
    else if slotHeldByOther k n s then refuse h r .inUse s
    else answer h r (doneWith []) (disableSlot k s)

/-- SLOT_DISABLE (R128). -/
def execSlotDisable (h : Header) (slot : Byte) (s : State) : Host.Outcome State Fault Refusal :=
  serve .notTold h (.slotDisable slot) (slotDisableBody h slot) s

/-- R129. -/
def slotEnableBody (h : Header) (slot : Byte) (s : State) : State :=
  let r : Request := .slotEnable slot
  match slotOf slot with
  | none => refuse h r .badField s
  | some k =>
    if (s.slot k).state ≠ .disabled then refuse h r .slotState s
    else answer h r (doneWith (u8 (slotStateCode (judgedState (s.slot k).reading .fault)))) (judge k s)

/-- SLOT_ENABLE (R129). -/
def execSlotEnable (h : Header) (slot : Byte) (s : State) : Host.Outcome State Fault Refusal :=
  serve .notTold h (.slotEnable slot) (fun _ => slotEnableBody h slot) s

/-- A channel entry of a descriptor in SLOT_STATUS. -/
def descEntryBytes (e : DescEntry) : List Byte :=
  [e.kind] ++ i16 e.lower ++ i16 e.upper ++ i16 e.safe ++ u16 e.tolerance ++ u16 e.settle

/-- R130: the reply (layout: assumption 21; the rig time follows the descriptor's entries: assumption 55). -/
def slotStatusBytes (x : Slot) (now : Nat) : List Byte :=
  u8 (slotStateCode x.state) ++ u8 (readingCode x.reading) ++ u48 x.stateTime ++
  wOpt 1 (fun r => u8 (railCode r)) x.rail ++ wOpt 1 (fun f => u8 (faultCode f)) x.fault ++ wFlag x.held ++
  wOpt 9 (fun d : Descriptor => u8 (if d.valid then 0 else 1) ++ [d.railCode] ++ u16 d.model ++
    u32 d.serial ++ u8 d.count) x.descriptor ++
  wList descEntryBytes (match x.descriptor with | some d => d.entries | none => []) ++ u48 now

/-- R130. -/
def slotStatusBody (h : Header) (slot : Byte) (s : State) : State :=
  let r : Request := .slotStatus slot
  match slotOf slot with
  | none => refuse h r .badField s
  | some k => answer h r (doneWith (slotStatusBytes (s.slot k) s.clock.rig)) s

/-- SLOT_STATUS (R130). -/
def execSlotStatus (h : Header) (slot : Byte) (s : State) : Host.Outcome State Fault Refusal :=
  serve .notTold h (.slotStatus slot) (fun _ => slotStatusBody h slot) s

/-! ### After reset (R132, R133) -/

/-- A slot's lines as a reset finds them. -/
def Slot.atLines (p : Pins) (k : SlotIx) (ident : Nat) : Slot :=
  { Slot.reset with
    sense := p.sense.get k, reading := readingOf (p.sense.get k)
    powerGood := p.powerGood.get k, overcurrent := p.overcurrent.get k, ident := ident }

/-- R132: EMPTY when VACANT, SETTLING otherwise. -/
def Slot.afterReset (p : Pins) (k : SlotIx) (ident now : Nat) : Slot :=
  let x := Slot.atLines p k ident
  if x.reading = .vacant then x
  else { x with state := .settling, settleTimer := some (now + settleTime) }

/-- R133: whether a slot is identified without a power-down. -/
def heldThrough (p : Pins) (k : SlotIx) (x : Slot) : Bool :=
  x.enable.isSome && x.enable = railFor (readingOf (p.sense.get k)) && p.powerGood.get k

/-- R133: a slot kept through a held reset is IDENTIFYING with the held flag set. An overcurrent input that is
asserted already is recorded and is no event (assumption 25). -/
def Slot.heldAfterReset (p : Pins) (k : SlotIx) (x : Slot) : Slot :=
  { Slot.atLines p k (x.ident + 1) with
    state := .identifying, rail := x.enable, enable := x.enable, held := true }

end Sys2Proof.Machine
end

