-- ==== Sys2Proof/WellFormed.lean ====
section
/-! DEFINITION. Which commands a line of the part can carry at all. The widths of every field are in
its type, so that two checks remain: a SET_ADD no longer than a frame (body at most 240 bytes, R183,
R185), and a complete frame whose length byte agrees with its bytes (R164). -/

namespace Sys2Proof

/-- The most items a SET_ADD body of 2 + 5 × count bytes can carry in 240 bytes. -/
def maxFrameItems : Nat := 47

/-- R164: the length byte L is 5 to 245, and L bytes and two CRC bytes follow it. -/
def frameBytesOk (bytes : List Byte) : Bool :=
  match bytes with
  | [] => false
  | l :: rest => 5 ≤ l.toNat && l.toNat ≤ 245 && rest.length == l.toNat + 2

/-- Whether a line of the part can carry the command. -/
def Instr.wellFormed (i : Instr) : Bool :=
  match i with
  | .setAdd _ _ items => items.length ≤ maxFrameItems
  | .frameReceived _ bytes => frameBytesOk bytes
  | _ => true

end Sys2Proof
end

