-- ==== Sys2Proof/Machine/SetAssembler.lean ====
section
/-! DEFINITION. The Set Assembler (spec/02_building_sets.md). -/

namespace Sys2Proof.Machine

/-! ### SET_OPEN (R23) -/

/-- R23: for AFTER the predecessor is 1 to 65534. -/
def duePredecessorOk (d : Due) : Bool :=
  match d with
  | .after p _ => decide (1 ≤ p) && decide (p ≤ 65534)
  | .now | .atTime _ | .trigger _ | .offset _ => true

/-- R23: the number of items the session may still add. -/
def mayAdd (n : SessionIx) (s : State) : Nat :=
  match s.session n with
  | some r => min (r.quota - r.inUse) (min s.assembler.poolFree 32)
  | none => 0

/-- R23. -/
def setOpenBody (h : Header) (dueKind late capture sync : Byte) (dueTime : Time) (predecessor : Half)
    (delay offset : Long) (n : SessionIx) (s : State) : State :=
  let r : Request := .setOpen dueKind late capture sync dueTime predecessor delay offset
  match dueOf dueKind dueTime predecessor delay offset, latePolicyOf late with
  | some d, some p =>
    if !duePredecessorOk d then refuse h r .badField s
    else
      match s.openSet n with
      | some _ => refuse h r .setAlreadyOpen s
      | none =>
        let o : OpenSet := { due := d, late := p, capture := flagSet capture, sync := flagSet sync
                             items := [], spoiled := none }
        answer h r (doneWith (u8 (mayAdd n s))) (s.withOpenSet n (some o))
  | _, _ => refuse h r .badField s

/-- SET_OPEN (R23). -/
def execSetOpen (h : Header) (dueKind late capture sync : Byte) (dueTime : Time) (predecessor : Half)
    (delay offset : Long) (s : State) : Host.Outcome State Fault Refusal :=
  serve (.told .setAssembler) h (.setOpen dueKind late capture sync dueTime predecessor delay offset)
    (setOpenBody h dueKind late capture sync dueTime predecessor delay offset) s

/-! ### SET_ADD (R24 to R29) -/

/-- A refused SET_ADD with its detail (R24, R25, R29). -/
def setAddRefusal (n : SessionIx) (reason : Reason) (position : Option Nat) (channel : Option Byte)
    (taken : Nat) (s : State) : Answer :=
  { outcome := .refused, reason := some reason
    body := setAddDetail (some n) position channel taken s, resetReply := false }

/-- R25: the checks of one item, in order; `earlier` are the channels already in the open set or at an
earlier position. -/
def itemFault (n : SessionIx) (earlier : List Byte) (i : RawItem) (s : State) : Option Reason :=
  match chanOf i.channel with
  | none => some .badField
  | some c =>
    match s.channel c with
    | none => some .notOwned
    | some x =>
      if x.owner ≠ some n then some .notOwned
      else if ¬ (x.lower ≤ signed i.target ∧ signed i.target ≤ x.upper) then some .outOfLimits
      else if x.kind = .digital ∧ ¬ ((signed i.target = 0 ∨ signed i.target = 1) ∧ i.ramp = 0) then
        some .badField
      else if earlier.contains i.channel then some .duplicateChannel
      else none

/-- R25: the first failure among the items, with its position and channel. -/
def firstItemFault (n : SessionIx) (s : State) (position : Nat) (earlier : List Byte) (items : List RawItem) :
    Option (Reason × Nat × Byte) :=
  match items with
  | [] => none
  | i :: rest =>
    match itemFault n earlier i s with
    | some r => some (r, position, i.channel)
    | none => firstItemFault n s (position + 1) (i.channel :: earlier) rest

/-- An item as the part keeps it. -/
def itemOf (i : RawItem) : Option Item :=
  (chanOf i.channel).map fun c => { channel := c, target := signed i.target, ramp := i.ramp.toNat }

/-- R27: the items of a message join the open set. -/
def takeItems (n : SessionIx) (o : OpenSet) (items : List Item) (s : State) : State :=
  changeInUse n (· + items.length)
    (changePool (· - items.length) (s.withOpenSet n (some { o with items := o.items ++ items })))

/-- R27: the counts of a DONE reply. -/
def addedCounts (n : SessionIx) (taken : Nat) (s : State) : List Byte :=
  u8 taken ++ u8 (match s.openSet n with | some o => o.items.length | none => 0) ++
    u16 (s.itemsInUse n) ++ u16 s.assembler.poolFree

/-- The session's quota. -/
def quotaOf (n : SessionIx) (s : State) : Nat :=
  match s.session n with
  | some r => r.quota
  | none => 0

/-- The incarnation of an OPEN session. -/
def incarnationOf (n : SessionIx) (s : State) : Nat :=
  match s.session n with
  | some r => r.incarnation
  | none => 0

/-- The seal of a SET_ADD waits at the Schedule, which answers it (R30). -/
def sealWaits (h : Header) (s : State) : Bool :=
  s.notices.any fun x =>
    match x with
    | .sealAsked _ _ g _ => g = h
    | _ => false

/-- R28, R29: the Set Assembler's part of a seal, after the items have been taken. -/
def askSeal (h : Header) (r : Request) (n : SessionIx) (taken : Nat) (s : State) : State :=
  match s.openSet n with
  | some o =>
    if o.items = [] then answer h r (setAddRefusal n .emptySet none none taken s) s
    else post (.sealAsked n (incarnationOf n s) h taken) s
  | none => s

/-- R24 to R28. -/
def setAddBody (h : Header) (sealFlag : Byte) (items : List RawItem) (n : SessionIx) (s : State) : State :=
  let r : Request := .setAdd sealFlag items
  if 16 < items.length then answer h r (setAddRefusal n .badField none none 0 s) s
  else
    match s.openSet n with
    | none => answer h r (setAddRefusal n .noOpenSet none none 0 s) s
    | some o =>
      match o.spoiled with
      | some c => answer h r (setAddRefusal n .spoiled none (some (BitVec.ofNat 8 c.val)) 0 s) s
      | none =>
        if 32 < o.items.length + items.length then
          answer h r (setAddRefusal n .badField (some (32 - o.items.length)) none 0 s) s
        else
          match firstItemFault n s 0 (o.items.map fun i => BitVec.ofNat 8 i.channel.val) items with
          | some (reason, position, channel) =>
              answer h r (setAddRefusal n reason (some position) (some channel) 0 s) s
          | none =>
            if quotaOf n s < s.itemsInUse n + items.length then
              answer h r (setAddRefusal n .quota none none 0 s) s
            else if s.assembler.poolFree < items.length then
              answer h r (setAddRefusal n .poolFull none none 0 s) s
            else
              let t := takeItems n o (items.filterMap itemOf) s
              if flagSet sealFlag then askSeal h r n items.length t
              else answer h r (doneWith (addedCounts n items.length t)) t

/-- SET_ADD (R24). One whose seal waits at the Schedule is in the Schedule's hands and is not taken again. A
SET_ADD longer than any frame is not one the part can meet (assumption 34). -/
def execSetAdd (h : Header) (sealFlag : Byte) (items : List RawItem) (s : State) :
    Host.Outcome State Fault Refusal :=
  if maxFrameItems < items.length then .refused .illFormed
  else if sealWaits h s then .next s
  else serve (.told .setAssembler) h (.setAdd sealFlag items) (setAddBody h sealFlag items) s

/-! ### Removing an open set (R35, R38) -/

/-- R35, R36: the open set is removed and its items return to the pool. -/
def discardOpenSet (n : SessionIx) (o : OpenSet) (s : State) : State :=
  changeInUse n (· - o.items.length) (changePool (· + o.items.length) (s.withOpenSet n none))

/-- R35. -/
def setDiscardBody (h : Header) (n : SessionIx) (s : State) : State :=
  match s.openSet n with
  | none => refuse h .setDiscard .noOpenSet s
  | some o => answer h .setDiscard (doneWith (u8 o.items.length)) (discardOpenSet n o s)

/-- SET_DISCARD (R35). -/
def execSetDiscard (h : Header) (s : State) : Host.Outcome State Fault Refusal :=
  serve (.told .setAssembler) h .setDiscard (setDiscardBody h) s

/-- R38: the open set of an ended session is discarded. -/
def endSessionAssembler (n : SessionIx) (s : State) : State :=
  match s.openSet n with
  | some o => discardOpenSet n o s
  | none => s

/-- SESSION_END_SET_ASSEMBLER (R38, R155, R156). -/
def execSessionEndSetAssembler (n : SessionIx) (s : State) : Host.Outcome State Fault Refusal :=
  .next (onNotice (.sessionEnd .setAssembler n) (fun _ t =>
    some (post (.teardownAnswer .setAssembler n) (endSessionAssembler n t))) s)

/-! ### Returns and lost channels (R34, R37) -/

/-- ITEMS_RETURN (R36, R37). -/
def execItemsReturn (n : SessionIx) (s : State) : Host.Outcome State Fault Refusal :=
  .next (onNotice (.itemsReturn n) (fun x t =>
    match x with
    | .itemsReturn _ count => some (changeInUse n (· - count) (changePool (· + count) t))
    | _ => none) s)

/-- LOST_CHANNELS_SET_ASSEMBLER (R34): only the open set of a channel's former owner is examined, which is that of
the session id as the notice is taken, opened anew or not (assumption 40). -/
def execLostChannelsSetAssembler (s : State) : Host.Outcome State Fault Refusal :=
  .next (onNotice .lostToAssembler (fun x t =>
    match x with
    | .lostToAssembler lost =>
        some (allSessions.foldl (fun u n =>
          spoil n ((lost.filter fun l => l.owner = n).map (·.channel)) u) t)
    | _ => none) s)

end Sys2Proof.Machine
end

