-- ==== Sys2Proof/Machine/Schedule.lean ====
section
/-! DEFINITION. The Schedule (spec/03_the_schedule.md; the seal checks of spec/02_building_sets.md). TAKE
stands with the Apply Engine. -/

namespace Sys2Proof.Machine

/-! ### SEAL (R28 to R33) -/

/-- R31: the value after a value of the set id counter. -/
def nextSetId (v : Nat) : Nat := if 65534 ≤ v then 0 else v + 1

/-- R31: whether an id may be assigned. -/
def idQualifies (sets : List SealedSet) (v : Nat) : Bool :=
  v != 0 && v != 65535 && !sets.any fun x => x.id = v

/-- R31: the first qualifying value from the counter's value on. -/
def chooseId (fuel : Nat) (sets : List SealedSet) (v : Nat) : Nat :=
  match fuel with
  | 0 => v
  | f + 1 => if idQualifies sets v then v else chooseId f sets (nextSetId v)

/-- R28: for AFTER, the predecessor is a live set of the session; for OFFSET, the cycle is BUILDING with
fewer than 16 members and the offset is below its period. -/
def dueFault (n : SessionIx) (d : Due) (s : State) : Option Reason :=
  match d with
  | .after p _ =>
    match s.findSet p with
    | some x => if x.owner = n then none else some .predecessor
    | none => some .predecessor
  | .offset v =>
    match s.cycle n with
    | some c =>
      match c.phase with
      | .building =>
        if 16 ≤ c.members.length then some .cycleState
        else if c.period ≤ v then some .badField
        else none
      | .running => some .cycleState
      | .stopping _ => some .cycleState
    | none => some .cycleState
  | .now | .atTime _ | .trigger _ => none

/-- R28: the Schedule's checks, in order, with the channel a NOT_OWNED refusal carries. -/
def sealFault (n : SessionIx) (o : OpenSet) (s : State) : Option (Reason × Option Byte) :=
  if s.endedFor .schedule n then some (.noSession, none)
  else
    match o.items.find? fun i => !s.owns n i.channel with
    | some i => some (.notOwned, some (BitVec.ofNat 8 i.channel.val))
    | none =>
      if s.haltedFor .schedule then some (.halted, none)
      else if Config.maxSets ≤ s.sets.length then some (.scheduleFull, none)
      else (dueFault n o.due s).map fun r => (r, none)

/-- R30, R31, R32: the sealed set an open set becomes, in the state a seal first gives it. -/
def sealedFrom (n : SessionIx) (o : OpenSet) (id sealNo now : Nat) : SealedSet :=
  { id := id, owner := n, due := o.due, dueTime := none, late := o.late, capture := o.capture
    sync := o.sync, items := o.items, sealNo := sealNo, sealTime := now
    state := match o.due with
      | .offset _ => .parked
      | .now | .atTime _ | .after _ _ | .trigger _ => .pending
    member := match o.due with
      | .offset _ => true
      | .now | .atTime _ | .after _ _ | .trigger _ => false
    pass := 0 }

/-- R41, R42, R89: a set just sealed takes the state its due kind calls for. -/
def placeSealed (n : SessionIx) (id : Nat) (d : Due) (s : State) : State :=
  match d with
  | .now => fallDueAt id s.clock.rig s
  | .atTime t => fallDueAt id t s
  | .after _ _ | .trigger _ => s
  | .offset _ =>
    match s.cycle n with
    | some c => s.withCycle n (some { c with members := c.members ++ [id] })
    | none => s

/-- R30: the Schedule takes the set; the open set's place is emptied. -/
def sealSet (n : SessionIx) (o : OpenSet) (s : State) : State :=
  let id := chooseId 66 s.sets s.schedule.nextId
  let sealNo := (s.schedule.lastSeal + 1) % (Config.heldLong + 1)
  let t := (s.withSchedule
    { s.schedule with
      sets := s.sets ++ [sealedFrom n o id sealNo s.clock.rig]
      nextId := nextSetId id
      lastSeal := sealNo }).withOpenSet n none
  queueChecks (placeSealed n id o.due t)

/-- R30: the reply of a successful seal. -/
def sealedReply (n : SessionIx) (o : OpenSet) (taken : Nat) (s : State) : Answer :=
  let id := chooseId 66 s.sets s.schedule.nextId
  let x := sealedFrom n o id ((s.schedule.lastSeal + 1) % (Config.heldLong + 1)) s.clock.rig
  doneWith (u8 taken ++ u8 x.items.length ++ u16 x.id ++ u32 x.sealNo ++ u48 x.sealTime)

/-- R29: the refusal of a seal whose session is CLOSED, or open anew, when the Schedule takes it: the items the
SET_ADD took, and nothing left of them in an open set or in use (assumption 13). -/
def sealGone (taken : Nat) (s : State) : Answer :=
  { outcome := .refused, reason := some .noSession
    body := setAddDetail none none none taken s, resetReply := false }

/-- R28 to R30, R33: the Schedule takes a seal of the SET_ADD `h`, which is answered in this event. An open
set that its session's end has discarded meanwhile is refused NO_SESSION (assumption 13). One spoiled since the
SET_ADD is sealed all the same if its channels are owned: R28 makes no check of the spoiled flag here (assumption
39). -/
def takeSeal (n : SessionIx) (incarnation : Nat) (h : Header) (r : Request) (taken : Nat) (s : State) :
    State :=
  if incarnationOf n s ≠ incarnation then answer h r (sealGone taken s) s
  else
    match s.openSet n with
    | none => answer h r (setAddRefusal n .noSession none none taken s) s
    | some o =>
      match sealFault n o s with
      | some (reason, channel) => answer h r (setAddRefusal n reason none channel taken s) s
      | none => answer h r (sealedReply n o taken s) (sealSet n o s)

/-- SEAL (R30). -/
def execSealTaken (n : SessionIx) (s : State) : Host.Outcome State Fault Refusal :=
  .next (onNotice (.sealAsked n) (fun x t =>
    match x with
    | .sealAsked m k h taken =>
      match (t.link h.link).inHand with
      | some (g, r) => if g = h then some (takeSeal m k h r taken t) else some t
      | none => some t
    | _ => none) s)

/-! ### Falling due (R42, R43, R45) -/

/-- DUE_TIME_EXPIRY (R42): a PENDING set's due time has been reached. -/
def execDueTimeExpiry (setId : Half) (s : State) : Host.Outcome State Fault Refusal :=
  .next (match s.findSet setId.toNat with
    | some x =>
      match x.state, x.dueTime with
      | .pending, some t => if s.reached t then makeDue x.id t s else s
      | _, _ => s
    | none => s)

/-- R45: the PENDING sets bound to a line, in seal-number order. -/
def triggerOrder (line : TrigLine) (s : State) : List SealedSet :=
  s.sets.filter fun x => x.state = .pending && x.due = .trigger line

/-- R45: an edge releases the oldest set of its line's order. -/
def releaseOldest (line : TrigLine) (stamp : Nat) (s : State) : State :=
  match triggerOrder line s with
  | [] => s
  | x :: _ => makeDue x.id stamp s

/-- R45, R103: the Schedule takes an edge. One that the Trigger Unit took while HALTED finds the line's order empty,
whether the Schedule has taken the halt entry before it or not. -/
def takeEdge (line : TrigLine) (stamp : Nat) (halted : Bool) (s : State) : State :=
  if halted then s else releaseOldest line stamp s

/-- TRIGGER_EDGE (R45). -/
def execTriggerEdge (line : TrigLine) (s : State) : Host.Outcome State Fault Refusal :=
  .next (onNotice (.edge line) (fun x t =>
    match x with
    | .edge _ stamp halted => some (takeEdge line stamp halted t)
    | _ => none) s)

/-! ### OUTCOME (R50) -/

/-- R50, R51: the reason of a FAILED outcome. -/
def reasonOfCause (c : Cause) : Option ResultReason :=
  match c with
  | .moduleNoReply => some .moduleNoReply
  | .slotLost => some .slotLost
  | .halted => some .halted
  | .sessionEnd => none

/-- The set is a member of a cycle that is STOPPING under NOW. -/
def stoppingNow (x : SealedSet) (s : State) : Bool :=
  match s.cycleOf x with
  | some c => c.phase = .stopping .now
  | none => false

/-- R50, R56: the APPLYING set is removed without report. R50 says that its dependants are gone already; where the
Schedule's own notice of the end is still to come they stay until it is taken (assumption 51). -/
def removeApplying (x : SealedSet) (s : State) : State := dropMember x.owner x.id (removeSet x s)

/-- R46, R92: a member is parked again. -/
def parkMember (x : SealedSet) (s : State) : State :=
  post (.memberParked x.owner x.id)
    (changeSet x.id (fun y => { y with state := .parked, dueTime := none }) s)

/-- R96: a cycle STOPPING under NOW ends with its APPLYING member's outcome. -/
def endStoppedCycle (n : SessionIx) (s : State) : State :=
  match s.cycle n with
  | some c => closeCycle .schedule n c .stopped none s
  | none => s

/-- R50, R43, R46, R92, R96: the outcome APPLIED. A cycle member is parked, but for the two kinds that R50 names: a
member of a cycle STOPPING under NOW, and one whose outcome comes while the Schedule is HALTED. One whose cycle the
Cycle Unit has ended without detaching it is parked as well (assumptions 15 and 43). -/
def takeApplied (x : SealedSet) (commit : Nat) (s : State) : State :=
  if x.member && !stoppingNow x s && !s.haltedFor .schedule then
    resolveChain x commit (parkMember x (handResult x .applied none true (some commit) s))
  else
    let t := resolveChain x commit (leaveSet x .applied none (some commit) s)
    if stoppingNow x s then endStoppedCycle x.owner t else t

/-- R50, R44, R92, R94, R96: the outcome FAILED; a member ends the cycle it is among the members of. -/
def takeFailed (x : SealedSet) (why : ResultReason) (s : State) : State :=
  let t := breakChain x [] (leaveSet x .failed (some why) none s)
  match s.cycleOf x with
  | some c =>
    if c.phase = .stopping .now then endStoppedCycle x.owner t
    else endCycleEarly x.owner c .memberFailed x.id why [] (dropMember x.owner x.id t)
  | none => t

/-- R50: the outcome of the APPLYING set; a set of a session that has ended is removed without report. -/
def takeOutcome (x : SealedSet) (o : EngineOutcome) (s : State) : State :=
  if s.endedFor .schedule x.owner then removeApplying x s
  else
    match o with
    | .applied t => takeApplied x t s
    | .failed c =>
      match reasonOfCause c with
      | some why => takeFailed x why s
      | none => removeApplying x s
    | .removed => removeApplying x s

/-- OUTCOME (R50). -/
def execOutcome (s : State) : Host.Outcome State Fault Refusal :=
  .next (onNotice .outcome (fun n t =>
    match n with
    | .outcome _ id o =>
      match t.sets.find? fun x => x.id = id && x.state = .applying with
      | some x => some (queueChecks (takeOutcome x o t))
      | none => some t
    | _ => none) s)

/-! ### Cancelling (R53 to R56) -/

/-- The sets that SET_CANCEL with id 0 cancels. -/
def cancellable (n : SessionIx) (s : State) : List Nat :=
  (s.sets.filter fun x => x.owner = n && !x.member && (x.state = .pending || x.state = .due)).map (·.id)

/-- R53. -/
def setCancelBody (h : Header) (setId : Half) (n : SessionIx) (s : State) : State :=
  let r : Request := .setCancel setId
  if setId = 0 then
    let ids := cancellable n s
    answer h r (doneWith (u8 ids.length)) (queueChecks (cancelSets ids .byRequest s))
  else
    match s.findSet setId.toNat with
    | none => refuse h r .noSuchSet s
    | some x =>
      if x.owner ≠ n then refuse h r .noSuchSet s
      else if x.state = .applying then refuse h r .tooLate s
      else if x.member then refuse h r .cycleState s
      else answer h r (doneWith (u8 1)) (queueChecks (cancelSet x .byRequest [] s))

/-- SET_CANCEL (R53). -/
def execSetCancel (h : Header) (setId : Half) (s : State) : Host.Outcome State Fault Refusal :=
  serve (.told .schedule) h (.setCancel setId) (setCancelBody h setId) s

/-- LOST_CHANNELS_SCHEDULE (R54). -/
def execLostChannelsSchedule (s : State) : Host.Outcome State Fault Refusal :=
  .next (onNotice .lostToSchedule (fun x t =>
    match x with
    | .lostToSchedule lost => some (cancelLostAll .channelAbsent lost t)
    | _ => none) s)

/-- R55: every waiting set leaves with CANCELLED HALTED, in seal-number order; no chain is broken. The
member lists are left to the Cycle Unit (assumption 15). An entry taken after RESUME cancels the sets sealed since then
too (assumption 47). -/
def cancelForHalt (s : State) : State :=
  queueChecks ((s.sets.filter SealedSet.waiting).foldl
    (fun t x => leaveSet x .cancelled (some .halted) none t) s)

/-- HALT_ENTRY_SCHEDULE (R55). -/
def execHaltEntrySchedule (s : State) : Host.Outcome State Fault Refusal :=
  .next (onNotice (.halt .schedule) (fun _ t => some (cancelForHalt t)) s)

/-- R56: the waiting sets of an ended session are removed without report and its armed flag is cleared. -/
def endSessionSchedule (n : SessionIx) (s : State) : State :=
  withArmed n false
    ((s.sets.filter fun x => x.owner = n && x.waiting).foldl
      (fun t x => dropMember x.owner x.id (removeSet x t)) s)

/-- SESSION_END_SCHEDULE (R56, R155, R156). -/
def execSessionEndSchedule (n : SessionIx) (s : State) : Host.Outcome State Fault Refusal :=
  .next (onNotice (.sessionEnd .schedule n) (fun _ t =>
    some (post (.teardownAnswer .schedule n) (endSessionSchedule n t))) s)

/-! ### SET_LIST (R58; layouts: assumption 21) -/

/-- An item's five bytes. -/
def itemBytes (i : Item) : List Byte := u8 i.channel.val ++ i16 i.target ++ u16 i.ramp

/-- Predecessor and delay for AFTER, or the offset for OFFSET, in six shared bytes: with places of their own, eight
entries would not go into one frame (assumption 21). -/
def dueTail (d : Due) : List Byte :=
  match d with
  | .after p delay => u16 p ++ u32 delay
  | .offset v => u32 v ++ u16 0
  | .now | .atTime _ | .trigger _ => List.replicate 6 0

/-- Predecessor, delay and offset, each in its place. -/
def dueFields (d : Due) : List Byte :=
  match d with
  | .after p delay => u16 p ++ u32 delay ++ u32 0
  | .offset v => u16 0 ++ u32 0 ++ u32 v
  | .now | .atTime _ | .trigger _ => List.replicate 10 0

/-- An entry of mode SUMMARY. -/
def summaryEntry (x : SealedSet) : List Byte :=
  u16 x.id ++ u8 (sessionNumber x.owner) ++ u8 (setStateCode x.state) ++ u8 (dueKindCode x.due) ++
  wOpt 6 u48 x.dueTime ++ u32 x.sealNo ++ u8 (latePolicyCode x.late) ++ wFlag x.capture ++ wFlag x.sync ++
  wFlag x.member ++ u8 x.items.length ++ dueTail x.due

/-- The result of mode ONE. -/
def setInFull (x : SealedSet) : List Byte :=
  u16 x.id ++ u8 (sessionNumber x.owner) ++ u8 (dueKindCode x.due) ++ wOpt 6 u48 x.dueTime ++
  dueFields x.due ++ u8 (latePolicyCode x.late) ++ wFlag x.capture ++ wFlag x.sync ++ u32 x.sealNo ++
  u48 x.sealTime ++ u8 (setStateCode x.state) ++ wFlag x.member ++ wList itemBytes x.items

/-- The due time an open set holds. -/
def openDueTime (d : Due) : Option Nat :=
  match d with
  | .atTime t => some t
  | .now | .after _ _ | .trigger _ | .offset _ => none

/-- The result of mode OPEN; what R58 names after the items follows them (assumption 55). -/
def openInFull (n : SessionIx) (o : OpenSet) : List Byte :=
  u8 (sessionNumber n) ++ u8 (dueKindCode o.due) ++ wOpt 6 u48 (openDueTime o.due) ++ dueFields o.due ++
  u8 (latePolicyCode o.late) ++ wFlag o.capture ++ wFlag o.sync ++ wList itemBytes o.items ++
  wFlag o.spoiled.isSome ++ wOpt 1 (fun c : ChanIx => u8 c.val) o.spoiled

/-- R58, R32: whether a live set's seal number ranks at or above a given one (assumption 16). -/
def rankedFrom (g : Nat) (s : State) (x : SealedSet) : Bool :=
  let last := s.schedule.lastSeal
  if g ≤ last then decide (x.sealNo ≤ last) && decide (g ≤ x.sealNo)
  else if last < x.sealNo then decide (g ≤ x.sealNo)
  else s.sets.any fun y => decide (last < y.sealNo)

/-- R58: the sets a SUMMARY walks, in seal-number order. -/
def summaryWalk (session : Byte) (first : Nat) (s : State) : List SealedSet :=
  s.sets.filter fun x =>
    rankedFrom first s x && (session = 0 || sessionOf session = some x.owner)

/-- R58; the "more" flag of a SUMMARY follows its entries (assumption 55). -/
def setListBody (h : Header) (mode session : Byte) (firstSeal : Long) (setId : Half) (s : State) : State :=
  let r : Request := .setList mode session firstSeal setId
  match listModeOf mode with
  | none => refuse h r .badField s
  | some .summary =>
    if 4 < session.toNat then refuse h r .badField s
    else
      let walk := summaryWalk session firstSeal.toNat s
      answer h r (doneWith (wList summaryEntry (walk.take 8) ++ wFlag (decide (8 < walk.length)))) s
  | some .one =>
    match s.findSet setId.toNat with
    | some x => answer h r (doneWith (setInFull x)) s
    | none => refuse h r .noSuchSet s
  | some .openSet =>
    match sessionOf session with
    | none => refuse h r .badField s
    | some m =>
      match s.openSet m with
      | some o => answer h r (doneWith (openInFull m o)) s
      | none => refuse h r .noOpenSet s

/-- SET_LIST (R58). -/
def execSetList (h : Header) (mode session : Byte) (firstSeal : Long) (setId : Half) (s : State) :
    Host.Outcome State Fault Refusal :=
  serve (.told .schedule) h (.setList mode session firstSeal setId)
    (fun _ => setListBody h mode session firstSeal setId) s

/-! ### TIME_SET (R61) -/

/-- R61: the sets whose due kind is AT, AFTER or OFFSET. -/
def Due.timed (d : Due) : Bool :=
  match d with
  | .atTime _ | .after _ _ | .offset _ => true
  | .now | .trigger _ => false

/-- R61: the due times of DUE sets and of the APPLYING set are moved; below 0 they become 0. -/
def shiftSets (d : Int) (s : State) : State :=
  s.withSets (s.sets.map fun x =>
    if x.state = .due ∨ x.state = .applying then { x with dueTime := x.dueTime.map (shiftTime d) } else x)

end Sys2Proof.Machine
end

