-- ==== Sys2Proof/Machine/TriggerUnit.lean ====
section
/-! DEFINITION. The Trigger Unit (spec/06_trigger_lines_sync_output_and_halt.md). -/

namespace Sys2Proof.Machine

/-! ### Trigger lines (R102, R103) -/

def flipLevel (l : Level) : Level :=
  match l with
  | .low => .high
  | .high => .low

/-- The debounce time in µs. -/
def debounceTime (d : Debounce) : Nat :=
  match d with
  | .off => 0
  | .us5 => 5
  | .us50 => 50
  | .us500 => 500
  | .ms5 => 5000

/-- R103: whether a change to a level is an edge of the configured kind. -/
def edgeMatches (e : Edge) (level : Level) : Bool :=
  match e, level with
  | .both, _ => true
  | .rising, .high => true
  | .rising, .low => false
  | .falling, .low => true
  | .falling, .high => false

/-- R102, R103: the transition of a stamp qualifies, and its edge is judged. An edge acted on is handed over with
whether the part is HALTED. -/
def qualify (line : TrigLine) (stamp : Nat) (s : State) : State :=
  let r := s.trig line
  let level := flipLevel r.qualified
  let q := { r with qualified := level, candidate := none, timer := none }
  if r.enabled && edgeMatches r.edge level then
    post (.edge line stamp s.isHalted)
      (s.withTrig line { q with count := (r.count + 1) % (Config.heldLong + 1), lastStamp := some stamp })
  else s.withTrig line q

/-- R102: a transition of a line to a level. A level the line already holds is no transition. -/
def transition (line : TrigLine) (level : Level) (s : State) : State :=
  let r := s.trig line
  match r.candidate with
  | none =>
    if level = r.qualified then s
    else if r.debounce = .off then qualify line s.clock.rig s
    else s.withTrig line
      { r with candidate := some s.clock.rig, timer := some (s.instant (debounceTime r.debounce)) }
  | some _ =>
    if level = r.qualified then s.withTrig line { r with candidate := none, timer := none } else s

/-- TRIG_TRANSITION (R102). -/
def execTrigTransition (line : TrigLine) (level : Level) (s : State) : Host.Outcome State Fault Refusal :=
  .next (transition line level s)

/-- QUALIFICATION_TIMER_EXPIRY (R102). -/
def execQualificationTimerExpiry (line : TrigLine) (s : State) : Host.Outcome State Fault Refusal :=
  .next (match (s.trig line).candidate, (s.trig line).timer with
    | some stamp, some t => if s.elapsed t then qualify line stamp s else s
    | _, _ => s)

/-! ### TRIGGER_CONFIG (R104) -/

/-- R104: the record with the new settings; the qualified level and a qualification are kept. -/
def configured (r : TrigRec) (enabled : Bool) (edge : Edge) (debounce : Debounce) (clear : Bool) : TrigRec :=
  { r with
    enabled := enabled, edge := edge, debounce := debounce
    count := if clear then 0 else r.count
    lastStamp := if clear then none else r.lastStamp }

/-- R104: a qualification in progress under a new debounce (assumption 36). -/
def requalify (line : TrigLine) (s : State) : State :=
  let r := s.trig line
  match r.candidate with
  | none => s
  | some c =>
    if r.debounce = .off ∨ c + debounceTime r.debounce < s.clock.rig then qualify line c s
    else s.withTrig line
      { r with timer := some (s.instant (c + debounceTime r.debounce - s.clock.rig)) }

/-- R104: the reply. -/
def triggerSettings (r : TrigRec) : List Byte :=
  wFlag r.enabled ++ u8 (edgeCode r.edge) ++ u8 (debounceCode r.debounce) ++ u32 r.count ++
    u8 (levelCode r.qualified)

/-- R104. -/
def triggerConfigBody (h : Header) (line enabled edge debounce clear : Byte) (n : SessionIx) (s : State) :
    State :=
  let r : Request := .triggerConfig line enabled edge debounce clear
  match trigLineOf line, edgeOf edge, debounceOf debounce with
  | some l, some e, some d =>
    if (triggerOrder l s).any fun x => x.owner ≠ n then refuse h r .lineInUse s
    else
      let t := requalify l (s.withTrig l (configured (s.trig l) (flagSet enabled) e d (flagSet clear)))
      answer h r (doneWith (triggerSettings (t.trig l))) t
  | _, _, _ => refuse h r .badField s

/-- TRIGGER_CONFIG (R104). -/
def execTriggerConfig (h : Header) (line enabled edge debounce clear : Byte) (s : State) :
    Host.Outcome State Fault Refusal :=
  serve .notTold h (.triggerConfig line enabled edge debounce clear)
    (triggerConfigBody h line enabled edge debounce clear) s

/-! ### SYNC_OUT (R106, R107) -/

/-- The inactive level of a polarity. -/
def inactiveLevel (p : Polarity) : Level :=
  match p with
  | .activeHigh => .low
  | .activeLow => .high

def State.withSync (s : State) (x : SyncOut) : State := s.withTrigger { s.trigger with sync := x }

/-- R106: a SYNC commit starts a pulse or extends the one in progress. -/
def syncCommit (time : Nat) (s : State) : State :=
  let x := s.trigger.sync
  match x.pulse with
  | none =>
      s.withSync { x with pulse := some ⟨x.width, capTime (time + x.width)⟩
                          count := (x.count + 1) % (Config.heldLong + 1)
                          level := flipLevel (inactiveLevel x.polarity) }
  | some p => s.withSync { x with pulse := some { p with pulseEnd := capTime (time + p.width) } }

/-- SYNC_COMMIT_NOTICE (R106). -/
def execSyncCommitNotice (s : State) : Host.Outcome State Fault Refusal :=
  .next (onNotice .syncCommit (fun x t =>
    match x with
    | .syncCommit time => some (syncCommit time t)
    | _ => none) s)

/-- PULSE_END (R106). -/
def execPulseEnd (s : State) : Host.Outcome State Fault Refusal :=
  .next (match s.trigger.sync.pulse with
    | some p =>
      if s.reached p.pulseEnd then
        s.withSync { s.trigger.sync with pulse := none, level := inactiveLevel s.trigger.sync.polarity }
      else s
    | none => s)

/-- R107. -/
def syncConfigBody (h : Header) (polarity : Byte) (width : Half) (s : State) : State :=
  let r : Request := .syncConfig polarity width
  match polarityOf polarity with
  | none => refuse h r .badField s
  | some p =>
    if width.toNat < 1 ∨ 1000 < width.toNat then refuse h r .badField s
    else
      let x := s.trigger.sync
      answer h r (doneWith (u8 (polarityCode p) ++ u16 width.toNat))
        (s.withSync { x with polarity := p, width := width.toNat
                             level := if x.pulse.isSome then x.level else inactiveLevel p })

/-- SYNC_CONFIG (R107). -/
def execSyncConfig (h : Header) (polarity : Byte) (width : Half) (s : State) :
    Host.Outcome State Fault Refusal :=
  serve .notTold h (.syncConfig polarity width) (fun _ => syncConfigBody h polarity width) s

/-! ### Halt (R108 to R114) -/

/-- The blocks told of a halt entry (R109). -/
def haltBlocks : List HaltBlock := [.schedule, .cycleUnit, .applyEngine, .claimUnit, .busController]

/-- The session a halt cause names. -/
def HaltCause.session (c : HaltCause) : Option SessionIx :=
  match c with
  | .request n => some n
  | .line => none
  | .reset => none

/-- R109 steps 1 and 2. -/
def haltFrom (c : HaltCause) (s : State) : State :=
  postAll (haltBlocks.map fun b => .haltEntry b (some s.clock.rig))
    (s.withTrigger { s.trigger with halted := some ⟨c, s.clock.rig⟩ })

/-- R113: HALT_CHANGE is handed over if a session is OPEN as the halt state changes. -/
def haltReport (cause : Option HaltCause) (session : Option SessionIx) (s : State) : State :=
  if s.anyOpen then
    systemReport .triggerUnit (.haltChange { cause := cause, session := session, eventTime := s.clock.rig }) s
  else s

/-- R109: halt entry, with its report (R113). -/
def enterHalt (c : HaltCause) (s : State) : State := haltReport (some c) c.session (haltFrom c s)

/-- R110: the reply (layout: assumption 21). -/
def haltReply (entered : Bool) (x : Option Halted) : Answer :=
  doneWith (wFlag entered ++ wOpt 1 (fun k : Halted => u8 (haltCauseCode k.cause)) x ++
    wOpt 6 (fun k : Halted => u48 k.time) x)

/-- R110. The reply that the part has entered HALTED carries the cause and the time as well (assumption 21). -/
def haltNowBody (h : Header) (n : SessionIx) (s : State) : State :=
  match s.trigger.halted with
  | some x => answer h .haltNow (haltReply false (some x)) s
  | none =>
      answer h .haltNow (haltReply true (some ⟨.request n, s.clock.rig⟩)) (enterHalt (.request n) s)

/-- HALT_NOW (R110). -/
def execHaltNow (h : Header) (s : State) : Host.Outcome State Fault Refusal :=
  serve .notTold h .haltNow (haltNowBody h) s

/-- R112. -/
def resumeBody (h : Header) (n : SessionIx) (s : State) : State :=
  match s.trigger.halted with
  | none => answer h .resume (doneWith (u8 0)) s
  | some _ =>
    match s.trigger.monitor with
    | .released =>
        answer h .resume (doneWith (u8 0))
          (haltReport none (some n) (s.withTrigger { s.trigger with halted := none }))
    | .qualifying _ => refuse h .resume .lineAsserted s
    | .asserted => refuse h .resume .lineAsserted s

/-- RESUME (R112). -/
def execResume (h : Header) (s : State) : Host.Outcome State Fault Refusal :=
  serve .notTold h .resume (resumeBody h) s

def State.withMonitor (s : State) (m : Monitor) : State := s.withTrigger { s.trigger with monitor := m }

/-- HALT_LINE_ASSERT (R108). -/
def execHaltLineAssert (s : State) : Host.Outcome State Fault Refusal :=
  .next (match s.trigger.monitor with
    | .released => s.withMonitor (.qualifying (s.instant 20))
    | .qualifying _ => s
    | .asserted => s)

/-- HALT_LINE_DEASSERT (R108). -/
def execHaltLineDeassert (s : State) : Host.Outcome State Fault Refusal :=
  .next (s.withMonitor .released)

/-- HALT_MONITOR_TIMER_EXPIRY (R108). -/
def execHaltMonitorTimerExpiry (s : State) : Host.Outcome State Fault Refusal :=
  .next (match s.trigger.monitor with
    | .qualifying t =>
      if s.elapsed t then
        let u := s.withMonitor .asserted
        if s.isHalted then u else enterHalt .line u
      else s
    | .released => s
    | .asserted => s)

/-! ### TRIGGER_STATUS (R115; layout: assumption 21) -/

/-- A line's part of the reply. -/
def lineStatus (l : TrigLine) (s : State) : List Byte :=
  let r := s.trig l
  wFlag r.enabled ++ u8 (edgeCode r.edge) ++ u8 (debounceCode r.debounce) ++ u8 (levelCode r.qualified) ++
    wFlag r.candidate.isSome ++ u32 r.count ++ wOpt 6 u48 r.lastStamp ++ u8 (triggerOrder l s).length

/-- The halt state, its cause, the session for cause REQUEST, and the entry time. -/
def haltStatus (x : Option Halted) : List Byte :=
  wFlag x.isSome ++ wOpt 1 (fun k : Halted => u8 (haltCauseCode k.cause)) x ++
    u8 (match x with | some k => haltSession k.cause | none => 0) ++
    wOpt 6 (fun k : Halted => u48 k.time) x

/-- R115: the reply. -/
def triggerStatusBytes (s : State) : List Byte :=
  let x := s.trigger.sync
  lineStatus .trig0 s ++ lineStatus .trig1 s ++ u8 (polarityCode x.polarity) ++ u16 x.width ++
    wFlag x.pulse.isSome ++ wOpt 6 (fun p : Pulse => u48 p.pulseEnd) x.pulse ++ u32 x.count ++
    haltStatus s.trigger.halted ++ u8 (monitorCode s.trigger.monitor) ++ u48 s.clock.rig

/-- TRIGGER_STATUS (R115). -/
def execTriggerStatus (h : Header) (s : State) : Host.Outcome State Fault Refusal :=
  serve .notTold h .triggerStatus (fun _ t => answer h .triggerStatus (doneWith (triggerStatusBytes t)) t) s

/-! ### TIME_SET (R105, R106) -/

/-- R105: a trigger record after a TIME_SET with difference d; the timer stays. -/
def shiftTrig (d : Int) (r : TrigRec) : TrigRec := { r with candidate := r.candidate.map (shiftTime d) }

/-- R105, R106. The recorded time of halt entry is not moved (assumption 49). -/
def shiftTrigger (d : Int) (s : State) : State :=
  s.withTrigger { s.trigger with
    trig0 := shiftTrig d s.trigger.trig0
    trig1 := shiftTrig d s.trigger.trig1
    sync := { s.trigger.sync with
      pulse := s.trigger.sync.pulse.map fun p => { p with pulseEnd := shiftTime d p.pulseEnd } } }

end Sys2Proof.Machine
end

