-- ==== Sys2Proof/Machine/SessionTable.lean ====
section
/-! DEFINITION. The Session Table (spec/09_sessions.md), with the Link Port's part of a session's end. -/

namespace Sys2Proof.Machine

/-! ### SESSION_OPEN (R149) -/

/-- R149: the record of a session just opened; absent settings take their defaults. That of an absent name, which the
record table does not give, is the empty name (assumption 53). -/
def freshSession (l : LinkId) (role : Role) (t : Settings) (now deadline incarnation : Nat) : Session :=
  { ending := none, link := l, role := role, name := t.name.getD [], lease := t.lease.getD 5000
    deadline := some deadline, quota := t.quota.getD 128, inUse := 0, lowMark := t.lowMark.getD 0
    retry := t.retry.getD 200
    subs := { slotChange := t.slotChange.getD true, haltChange := t.haltChange.getD true
              sessionLost := t.sessionLost.getD true, deviation := t.deviation.getD true }
    openTime := now, incarnation := incarnation }

/-- R149: the lowest-numbered CLOSED record. -/
def lowestClosed (s : State) : Option SessionIx := allSessions.find? fun n => (s.session n).isNone

/-- R149: the record becomes OPEN; the Report Unit, the Schedule, the Cycle Unit and the Link Port keep
nothing of an earlier session of the id. -/
def openSession (l : LinkId) (n : SessionIx) (role : Role) (t : Settings) (s : State) : State :=
  let r := freshSession l role t s.clock.rig (s.after (t.lease.getD 5000 * 1000)) (s.sessions.opened + 1)
  let s1 := s.withSessions { s.sessions with
    records := s.sessions.records.put n (some r), opened := s.sessions.opened + 1 }
  let s2 := withArmed n false ((s1.withLists n ReportLists.reset).withCycle n none)
  s2.withLink l { s2.link l with cache := (s2.link l).cache.put n none }

/-- R149: the reply. -/
def openReply (n : SessionIx) (role : Role) (t : Settings) (s : State) : Answer :=
  doneWith (u8 (sessionNumber n) ++ u8 (roleCode role) ++ u16 (t.lease.getD 5000) ++
    u16 (t.quota.getD 128) ++ u16 1 ++ wFlag s.isHalted ++ u48 s.clock.rig)

/-- R149, R186. -/
def sessionOpenBody (h : Header) (role : Byte) (settings : RawSettings) (s : State) : State :=
  let r : Request := .sessionOpen role settings
  let t := settingsOf settings
  match roleOf role with
  | none => refuse h r .badField s
  | some k =>
    if !encodingOk r then refuse h r .badField s
    else if h.session ≠ 0 then refuse h r .badField s
    else if !settingsInRange t then refuse h r .badField s
    else
      match lowestClosed s with
      | none => refuse h r .tableFull s
      | some n => answerOpened h r (openReply n k t s) (some n) (openSession h.link n k t s)

/-- SESSION_OPEN (R149). -/
def execSessionOpen (h : Header) (role : Byte) (settings : RawSettings) (s : State) :
    Host.Outcome State Fault Refusal :=
  .next (runRequest h (.sessionOpen role settings) (sessionOpenBody h role settings) s)

/-! ### SESSION_CONFIG (R151) -/

/-- R151: a record with the settings that are present. -/
def Session.withSettings (r : Session) (t : Settings) (now : Nat) : Session :=
  { r with
    name := t.name.getD r.name
    lease := t.lease.getD r.lease
    deadline := match t.lease with
      | some v => some (capTime (now + v * 1000))
      | none => r.deadline
    quota := t.quota.getD r.quota
    lowMark := t.lowMark.getD r.lowMark
    retry := t.retry.getD r.retry
    subs := { slotChange := t.slotChange.getD r.subs.slotChange
              haltChange := t.haltChange.getD r.subs.haltChange
              sessionLost := t.sessionLost.getD r.subs.sessionLost
              deviation := t.deviation.getD r.subs.deviation } }

/-- R57, R151: a low mark that is given sets or clears the armed flag, and reports nothing. -/
def rearm (n : SessionIx) (t : Settings) (s : State) : State :=
  match t.lowMark with
  | some m => withArmed n (decide (0 < m) && decide (m ≤ queueCount n s)) s
  | none => s

/-- R151: the reply. -/
def configReply (r : Session) : Answer :=
  doneWith (wName r.name ++ u16 r.lease ++ u16 r.quota ++ u8 r.lowMark ++ u16 r.retry ++
    wFlag r.subs.slotChange ++ wFlag r.subs.haltChange ++ wFlag r.subs.sessionLost ++
    wFlag r.subs.deviation ++ u16 r.inUse ++ u8 (roleCode r.role) ++ u8 (linkCode r.link) ++
    u48 (r.deadline.getD 0))

/-- R151. -/
def sessionConfigBody (h : Header) (settings : RawSettings) (n : SessionIx) (s : State) : State :=
  let r : Request := .sessionConfig settings
  let t := settingsOf settings
  match s.session n with
  | none => s
  | some k =>
    if !settingsInRange t then refuse h r .badField s
    else if t.quota.any fun q => q < k.inUse then refuse h r .inUse s
    else
      let k' := k.withSettings t s.clock.rig
      answer h r (configReply k') (rearm n t (s.withSession n (some k')))

/-- SESSION_CONFIG (R151). -/
def execSessionConfig (h : Header) (settings : RawSettings) (s : State) : Host.Outcome State Fault Refusal :=
  serve .sessionTable h (.sessionConfig settings) (sessionConfigBody h settings) s

/-! ### The beginning of a teardown (R154, R155) -/

/-- R155: the blocks told of a session's end. -/
def endBlocks : List EndBlock :=
  [.reportUnit, .linkPort, .setAssembler, .schedule, .cycleUnit, .applyEngine, .claimUnit]

/-- R154, R155: the teardown of a session that is OPEN and not ending begins; any other session is left as
it is. -/
def beginTeardown (cause : EndingCause) (n : SessionIx) (s : State) : State :=
  match s.session n with
  | none => s
  | some r =>
    match r.ending with
    | some _ => s
    | none =>
      let e : Ending :=
        { cause := cause, time := s.clock.rig, assembler := false, schedule := false, engine := false }
      postAll (endBlocks.map fun b => .sessionEnd b n)
        (s.withSession n (some { r with ending := some e, deadline := none }))

/-- R158. -/
def sessionCloseBody (h : Header) (n : SessionIx) (s : State) : State :=
  answer h .sessionClose (doneWith (u8 (sessionNumber n))) (beginTeardown .close n s)

/-- SESSION_CLOSE (R158). -/
def execSessionClose (h : Header) (s : State) : Host.Outcome State Fault Refusal :=
  serve .sessionTable h .sessionClose (sessionCloseBody h) s

/-- LEASE_EXPIRY (R152): rig time has reached the deadline. -/
def execLeaseExpiry (n : SessionIx) (s : State) : Host.Outcome State Fault Refusal :=
  .next (match s.session n with
    | some r =>
      match r.deadline with
      | some t => if s.reached t then beginTeardown .lease n s else s
      | none => s
    | none => s)

/-- REPORT_RETRIES_EXHAUSTED (R154, R179); a notice about an earlier session of the id changes nothing
(assumption 11). -/
def execReportRetriesExhausted (n : SessionIx) (s : State) : Host.Outcome State Fault Refusal :=
  .next (onNotice (.retriesExhausted n) (fun x t =>
    match x with
    | .retriesExhausted m k =>
      match t.session m with
      | some r => some (if r.incarnation = k then beginTeardown .reportTimeout m t else t)
      | none => some t
    | _ => none) s)

/-- The session is OPEN on a link. -/
def boundTo (l : LinkId) (s : State) (n : SessionIx) : Bool :=
  match s.session n with
  | some r => r.link = l
  | none => false

/-- LINK_BREAK_NOTICE (R154, R166), for the sessions bound to the link as the notice is taken (assumption 31), in
ascending order (assumption 46). -/
def execLinkBreakNotice (l : LinkId) (s : State) : Host.Outcome State Fault Refusal :=
  .next (onNotice (.linkBroken l) (fun _ t =>
    some ((allSessions.filter (boundTo l t)).foldl (fun u n => beginTeardown .linkBreak n u) t)) s)

/-! ### The end of a teardown (R156, R157) -/

/-- R156: the answer of a block is noted. -/
def Ending.note (e : Ending) (b : AnswerBlock) : Ending :=
  match b with
  | .setAssembler => { e with assembler := true }
  | .schedule => { e with schedule := true }
  | .applyEngine => { e with engine := true }

/-- R156: all three answers have been taken. -/
def Ending.complete (e : Ending) : Bool := e.assembler && e.schedule && e.engine

/-- R156: an answer is taken; after the last the session end is handed to the Claim Unit. -/
def takeTeardownAnswer (b : AnswerBlock) (n : SessionIx) (s : State) : State :=
  match s.session n with
  | none => s
  | some r =>
    match r.ending with
    | none => s
    | some e =>
      let t := s.withSession n (some { r with ending := some (e.note b) })
      if (e.note b).complete then post (.claimSessionEnd n) t else t

/-- R156: no set of the session is APPLYING in the Schedule. -/
def noneApplying (n : SessionIx) (s : State) : Bool :=
  s.sets.all fun x => x.owner ≠ n || x.waiting

/-- R156: the answer would be the last of the three. -/
def lastAnswer (b : AnswerBlock) (n : SessionIx) (s : State) : Bool :=
  match s.session n with
  | some r => r.ending.any fun e => (e.note b).complete
  | none => false

/-- TEARDOWN_ANSWER (R156). The last answer is taken once the Schedule holds no APPLYING set of the session, so
that none is left when the Claim Unit is handed the session end (assumption 10). -/
def execTeardownAnswer (n : SessionIx) (b : AnswerBlock) (s : State) : Host.Outcome State Fault Refusal :=
  .next (onNotice (.teardownAnswer b n) (fun _ t =>
    if lastAnswer b n t && !noneApplying n t then none else some (takeTeardownAnswer b n t)) s)

/-- R157: the report, with the time at which the teardown began. -/
def sessionLostOf (n : SessionIx) (r : Session) (e : Ending) : SessionLost :=
  { session := n, cause := e.cause, link := r.link, role := r.role, name := r.name, eventTime := e.time }

/-- R157: the record of an ending session is closed. -/
def closeRecord (n : SessionIx) (s : State) : State :=
  match s.session n with
  | none => s
  | some r =>
    match r.ending with
    | some e =>
      let t := s.withSession n none
      if e.cause = .close then t else systemReport .sessionTable (.sessionLost (sessionLostOf n r e)) t
    | none => s

/-- A block has still to be told of the session's end, items of the session have still to return to the pool or are
in use (R38), or the session owns a channel or has a wait entry, which its teardown takes away first (R1, R14, R19;
assumption 10). -/
def endUnfinished (n : SessionIx) (s : State) : Bool :=
  (s.notices.any fun x =>
    match x with
    | .sessionEnd _ m => m = n
    | .itemsReturn m _ => m = n
    | _ => false) ||
  decide (s.itemsInUse n ≠ 0) || allChannels.any (s.owns n) || s.claims.waits.any fun e => e.session = n

/-- SESSION_RECORD_CLOSE (R157). -/
def execSessionRecordClose (n : SessionIx) (s : State) : Host.Outcome State Fault Refusal :=
  .next (onNotice (.recordClose n) (fun _ t =>
    if endUnfinished n t then none else some (closeRecord n t)) s)

/-- R155, R171: the session's last-request cache entry is cleared, and the open cache if it names it. -/
def Link.forget (k : Link) (n : SessionIx) : Link :=
  { k with
    cache := k.cache.put n none
    openCache := match k.openCache with
      | some e => if e.session = some n then none else some e
      | none => none }

/-- SESSION_END_LINK_PORT (R155, R171). -/
def execSessionEndLinkPort (n : SessionIx) (s : State) : Host.Outcome State Fault Refusal :=
  .next (onNotice (.sessionEnd .linkPort n) (fun _ t =>
    match t.session n with
    | some r => some (t.withLink r.link ((t.link r.link).forget n))
    | none => some t) s)

/-! ### DEVICE_STATUS (R159; layout: assumption 21) -/

/-- The rate in baud. -/
def rateBytes (r : LinkRate) : List Byte :=
  match r with
  | .baud921600 => u32 921600
  | .baud460800 => u32 460800

/-- A session's part: the fields a CLOSED record does not hold are sent as 0 (R184). -/
def sessionStatus (s : State) (n : SessionIx) : List Byte :=
  match s.session n with
  | none => u8 0 ++ List.replicate 21 0
  | some r =>
    u8 1 ++ wOpt 1 (fun e : Ending => u8 (endingCode e.cause)) r.ending ++ u8 (linkCode r.link) ++
      u8 (roleCode r.role) ++ wName r.name ++ u16 r.inUse ++ u16 r.quota ++ u16 r.lease ++
      u8 (s.lists n).outstanding.length ++ u8 (s.lists n).held.length

/-- How many channels are ABSENT, FREE and OWNED. -/
def channelCounts (s : State) : List Byte :=
  u8 (allChannels.filter fun c => (s.channel c).isNone).length ++
  u8 (allChannels.filter fun c => (s.channel c).any fun x => x.owned.isNone).length ++
  u8 (allChannels.filter fun c => (s.channel c).any fun x => x.owned.isSome).length

/-- How many sets are in a state. -/
def setsIn (x : SetState) (s : State) : Nat := (s.sets.filter fun y => y.state = x).length

/-- R134: the module bus's part. -/
def busStatus (b : Bus) : List Byte :=
  wFlag b.current.isSome ++ u8 (match b.current with | some p => txnCode p.txn | none => 0) ++
  wOpt 1 (fun k : SlotIx => u8 k.val) (b.current.bind fun p => p.txn.slot) ++
  u8 (match b.current with | some p => p.attempt | none => 0) ++
  u8 b.safeQ.length ++ u8 b.applyQ.length ++ u8 b.identifyQ.length ++ u8 b.readbackQ.length ++
  wFlag b.commit.isSome ++
  allSlots.flatMap fun k => wFlag (b.live.get k) ++ u16 (b.retries.get k) ++ u16 (b.failures.get k)

/-- R159. -/
def deviceStatusBytes (s : State) : List Byte :=
  u48 s.clock.rig ++ u16 s.clock.lateMargin ++ haltStatus s.trigger.halted ++ rateBytes s.linkA.rate ++
  allSessions.flatMap (sessionStatus s) ++
  channelCounts s ++ u8 s.claims.waits.length ++
  u16 s.assembler.poolFree ++ u8 (setsIn .pending s) ++ u8 (setsIn .due s) ++ u8 (setsIn .applying s) ++
  u8 (setsIn .parked s) ++ u8 s.schedule.ready.length ++ u32 s.schedule.lastSeal ++
  u8 (engineCode s.engine.work) ++ wOpt 2 (fun w : Work => u16 w.setId) s.engine.work ++
  u8 s.engine.captures.length ++
  (allSlots.flatMap fun k => u8 (slotStateCode (s.slot k).state) ++ u8 (readingCode (s.slot k).reading)) ++
  busStatus s.bus

/-- DEVICE_STATUS (R159). -/
def execDeviceStatus (h : Header) (s : State) : Host.Outcome State Fault Refusal :=
  serve .sessionTable h .deviceStatus
    (fun _ t => answer h .deviceStatus (doneWith (deviceStatusBytes t)) t) s

/-! ### DEVICE_RESET (R161) -/

/-- R161 step 2: a Link Port dispatches no further request; a reply that WAITING holds stays held. -/
def Link.stopped (k : Link) : Link :=
  { k with dispatch :=
      match k.dispatch with
      | .ready => .stopped none
      | .waiting r => .stopped (some r)
      | .stopped r => .stopped r }

/-- R161 step 2. -/
def stopLinks (s : State) : State := (s.withLinkA s.linkA.stopped).withLinkB s.linkB.stopped

/-- R161: the reply, with the kind; `marked` when its sending performs the reset. -/
def resetReplyOf (k : ResetKind) (marked : Bool) : Answer :=
  { doneWith (u8 (resetKindCode k)) with resetReply := marked }

/-- R161. -/
def deviceResetBody (h : Header) (kind : Byte) (s : State) : State :=
  let r : Request := .deviceReset kind
  match resetKindOf kind with
  | none => refuse h r .badField s
  | some k =>
    match s.sessions.resetPending with
    | some p => answer h r (resetReplyOf p false) s
    | none =>
        answer h r (resetReplyOf k true)
          (stopLinks (s.withSessions { s.sessions with resetPending := some k }))

/-- DEVICE_RESET (R161). -/
def execDeviceReset (h : Header) (kind : Byte) (s : State) : Host.Outcome State Fault Refusal :=
  serve .sessionTable h (.deviceReset kind) (fun _ => deviceResetBody h kind) s

end Sys2Proof.Machine
end

