-- ==== Sys2Proof/Machine/LinkPort.lean ====
section
/-! DEFINITION. The Link Ports (spec/10_links_and_frames.md R163 to R173). The steps of R169 stand in
Gate.lean, the transmitter of R172 in Ops.lean. -/

namespace Sys2Proof.Machine

/-- A Link Port is changed. -/
def changeLink (l : LinkId) (f : Link → Link) (s : State) : State := s.withLink l (f (s.link l))

/-! ### LINK_STATUS (R173; layout: assumption 21) -/

/-- R173: the sessions bound to a link, in ascending order of their ids (assumption 21). -/
def boundSessions (l : LinkId) (s : State) : List SessionIx := allSessions.filter (boundTo l s)

/-- R173: the reply; the open-cache flag and the counts follow the list of sessions (assumption 55). -/
def linkStatusBytes (l : LinkId) (s : State) : List Byte :=
  let k := s.link l
  rateBytes k.rate ++ u8 (receiverCode k.receiver) ++ u8 k.input.length ++ u8 k.replies.length ++
    u8 k.reports.length ++ wList (fun n : SessionIx => u8 (sessionNumber n)) (boundSessions l s) ++
    wFlag k.openCache.isSome ++ u16 k.crcErrors ++ u16 k.gapErrors ++ u16 k.busyReplies ++ u16 k.breaks

/-- R173: the four counts become 0. -/
def Link.countsCleared (k : Link) : Link :=
  { k with crcErrors := 0, gapErrors := 0, busyReplies := 0, breaks := 0 }

/-- R173. -/
def linkStatusBody (h : Header) (link clear : Byte) (s : State) : State :=
  let r : Request := .linkStatus link clear
  match linkOf link with
  | none => refuse h r .badField s
  | some l =>
    let t := answer h r (doneWith (linkStatusBytes l s)) s
    if flagSet clear then changeLink l Link.countsCleared t else t

/-- LINK_STATUS (R173). The Link Port knows of its session's end from its notice on (assumption 8). -/
def execLinkStatus (h : Header) (link clear : Byte) (s : State) : Host.Outcome State Fault Refusal :=
  serve (.told .linkPort) h (.linkStatus link clear) (fun _ => linkStatusBody h link clear) s

/-! ### Receiving characters (R164, R165) -/

/-- The start byte of a frame (R183). -/
def startByte : Byte := 0xD5

/-- R164: the gap between characters, in µs. -/
def gapTime : Nat := 2000

/-- R165: the spacing that makes a break, in µs. -/
def breakTime : Nat := 1000

/-- The partial frame is discarded and the CRC error count rises by one. -/
def Link.crcError (k : Link) : Link := { k with receiver := .hunt, crcErrors := bump k.crcErrors }

/-- R164: how many bytes a frame has from its length byte on. -/
def frameLength (l : Byte) : Nat := l.toNat + 3

/-- R164: a length byte is 5 to 245. -/
def lengthOk (l : Byte) : Bool := decide (5 ≤ l.toNat) && decide (l.toNat ≤ 245)

/-- R164: a character is appended to the partial frame; `gap` is the gap deadline it gives. A complete
frame whose CRC agrees waits to be taken under R167. -/
def Link.append (k : Link) (bytes : List Byte) (byte : Byte) (gap : Nat) : Link :=
  let all := bytes ++ [byte]
  match all with
  | [] => k
  | l :: _ =>
    if !lengthOk l then k.crcError
    else if all.length < frameLength l then { k with receiver := .frame all gap }
    else if crcAgrees all then { k with receiver := .hunt, complete := k.complete ++ [all] }
    else k.crcError

/-- R164, R165: a character arrives; `stop` says that its stop bit was found at the marking level. In BREAK
the line holds no characters. -/
def Link.character (k : Link) (byte : Byte) (stop : Bool) (gap : Nat) : Link :=
  match k.receiver with
  | .hunt => if stop && byte = startByte then { k with receiver := .frame [] gap } else k
  | .frame bytes _ => if stop then k.append bytes byte gap else k.crcError
  | .lineBreak => k

/-- CHARACTER_RECEIVED (R164, R165). -/
def execCharacterReceived (l : LinkId) (byte : Byte) (stopBitMarking : Bool) (s : State) :
    Host.Outcome State Fault Refusal :=
  .next (changeLink l (fun k => k.character byte stopBitMarking (s.instant gapTime)) s)

/-- GAP_DEADLINE_EXPIRY (R164). -/
def execGapDeadlineExpiry (l : LinkId) (s : State) : Host.Outcome State Fault Refusal :=
  .next (match (s.link l).receiver with
    | .frame _ gap =>
      if s.elapsed gap then
        changeLink l (fun k => { k with receiver := .hunt, gapErrors := bump k.gapErrors }) s
      else s
    | .hunt => s
    | .lineBreak => s)

/-- LINE_GOES_TO_SPACING (R165). -/
def execLineGoesToSpacing (l : LinkId) (s : State) : Host.Outcome State Fault Refusal :=
  .next (match (s.link l).spacingSince with
    | none => changeLink l (fun k => { k with spacingSince := some s.clock.uptime }) s
    | some _ => s)

/-- LINE_RETURNS_TO_MARKING (R165). -/
def execLineReturnsToMarking (l : LinkId) (s : State) : Host.Outcome State Fault Refusal :=
  .next (changeLink l (fun k =>
    { k with
      spacingSince := none
      receiver := match k.receiver with
        | .lineBreak => .hunt
        | .hunt => .hunt
        | .frame b g => .frame b g }) s)

/-! ### Link break (R166) -/

/-- R166 steps 1 to 4. A complete frame that has not been taken yet stays (assumption 22), and so does any reply
that a STOPPED dispatch holds (assumption 23). -/
def Link.broken (k : Link) : Link :=
  { k with
    receiver := .lineBreak
    breaks := bump k.breaks
    input := []
    dispatch := match k.dispatch with
      | .waiting _ => .ready
      | .ready => .ready
      | .stopped r => .stopped r
    openCache := none }

/-- LINK_BREAK (R165, R166): a stretch of spacing has lasted 1 ms, counted once. -/
def execLinkBreak (l : LinkId) (s : State) : Host.Outcome State Fault Refusal :=
  .next (match (s.link l).spacingSince with
    | some t =>
      if s.elapsed (t + breakTime) && decide ((s.link l).receiver ≠ .lineBreak) then
        post (.linkBroken l) (changeLink l Link.broken s)
      else s
    | none => s)

/-! ### Taking a valid frame (R167, R168) -/

/-- A reply made at reception, with an empty body. -/
def receptionReply (f : InFrame) (o : ReplyOutcome) (reason : Option Reason) : Reply :=
  { kind := f.kind, session := f.session, seq := f.seq, outcome := o, reason := reason, body := []
    resetReply := false }

/-- R168: a request frame is offered to the input queue. -/
def offerRequest (l : LinkId) (f : InFrame) (s : State) : State :=
  if (s.link l).input.length < Config.maxInput then
    changeLink l (fun k => { k with input := k.input ++ [f] }) s
  else
    placeOrDiscard l (receptionReply f .busy none)
      (changeLink l (fun k => { k with busyReplies := bump k.busyReplies }) s)

/-- R167: an ACK is handed to the Report Unit, if its session is OPEN, not ending and bound to the link and
its body is empty. -/
def handAck (l : LinkId) (f : InFrame) (s : State) : State :=
  match sessionOf f.session with
  | none => s
  | some n =>
    match s.session n with
    | none => s
    | some r =>
      if r.link = l && r.ending.isNone && decide (f.body = []) then
        post (.ack l n r.incarnation f.seq.toNat) s
      else s

/-- R167: a valid frame is taken. -/
def takeFrame (l : LinkId) (f : InFrame) (s : State) : State :=
  let t := refreshLease l f.session s
  match f.cls.toNat with
  | 1 => offerRequest l f t
  | 4 => handAck l f t
  | _ => placeOrDiscard l (receptionReply f .refused (some .unknownKind)) t

/-- R164: a whole frame that the line brings at once is taken if its CRC agrees and counted if not. -/
def arriveFrame (l : LinkId) (bytes : List Byte) (s : State) : State :=
  if crcAgrees bytes then takeFrame l (readFrame bytes) s else changeLink l Link.crcError s

/-- R167: the oldest complete frame, or, with none waiting and the receiver in HUNT, a frame that arrives
whole (assumption 22). -/
def receiveFrame (l : LinkId) (bytes : List Byte) (s : State) : State :=
  let k := s.link l
  match k.complete with
  | f :: rest =>
      if f = bytes then takeFrame l (readFrame f) (s.withLink l { k with complete := rest }) else s
  | [] =>
    match k.receiver with
    | .hunt => arriveFrame l bytes s
    | .frame _ _ => s
    | .lineBreak => s

/-- FRAME_RECEIVED (R167). Bytes that are no whole frame are not something the part can meet
(assumption 34). -/
def execFrameReceived (l : LinkId) (bytes : List Byte) (s : State) : Host.Outcome State Fault Refusal :=
  if frameBytesOk bytes then .next (receiveFrame l bytes s) else .refused .illFormed

/-! ### Dispatch and transmission (R169, R172) -/

/-- DISPATCH (R169). -/
def execDispatch (l : LinkId) (s : State) : Host.Outcome State Fault Refusal := .next (dispatchOldest l s)

/-- R172, R161: what the end of a frame's last byte is told to. -/
def tellSent (l : LinkId) (f : OutFrame) (s : State) : State :=
  match f with
  | .reply r =>
      if r.resetReply then s.withSessions { s.sessions with resetDue := true } else s
  | .report x => post (.frameEnd l x.session x.uid) s

/-- R172, R169: the transmitter takes the next frame, and a held reply moves into the room it leaves, also when it is
a report's end that let the transmitter take a reply (assumption 48). -/
def sendNext (l : LinkId) (s : State) : State :=
  moveHeldReply l (startSending l (changeLink l (fun k => { k with transmission := none }) s))

/-- FRAME_SENT (R172). -/
def execFrameSent (l : LinkId) (s : State) : Host.Outcome State Fault Refusal :=
  .next (match (s.link l).transmission with
    | some t => sendNext l (tellSent l t.frame s)
    | none => s)

end Sys2Proof.Machine
end

