-- ==== Sys2Proof/Machine/ReportUnit.lean ====
section
/-! DEFINITION. The Report Unit (spec/11_reports.md). -/

namespace Sys2Proof.Machine

/-! ### Promotion and overrun (R176, R177, R178) -/

/-- R176: the sequence after a sequence. -/
def nextReportSeq (v : Nat) : Nat := if 65535 ≤ v then 1 else v + 1

/-- R178, R172: a report's frame is handed to the Link Port of the session's link; one that still waits
there is not queued a second time. -/
def handFrame (n : SessionIx) (o : Outstanding) (s : State) : State :=
  match s.session n with
  | none => s
  | some r =>
    let k := s.link r.link
    if k.reports.any fun f => f.session = n && f.seq = o.seq then s
    else startSending r.link (s.withLink r.link { k with reports := k.reports ++
      [{ uid := o.uid, session := n, seq := o.seq, report := o.report }] })

/-- R176 step 1: the head of the held list becomes outstanding, and its frame is handed over. -/
def promote (n : SessionIx) (r : Report) (rest : List Report) (s : State) : State :=
  let x := s.lists n
  let o : Outstanding :=
    { uid := s.reports.nextUid, seq := x.nextSeq, report := r, retransmissions := 0, timer := .sending }
  let t := s.withLists n
    { x with held := rest, outstanding := x.outstanding ++ [o], nextSeq := nextReportSeq x.nextSeq }
  handFrame n o (t.withReports { t.reports with nextUid := s.reports.nextUid + 1 })

/-- R176 step 2: an OVERRUN joins the held list. -/
def makeOverrun (n : SessionIx) (s : State) : State :=
  let x := s.lists n
  s.withLists n { x with held := x.held ++ [.overrun x.dropped s.clock.rig], dropped := 0 }

/-- R176: the two steps are repeated until neither applies. -/
def settleLoop (fuel : Nat) (n : SessionIx) (s : State) : State :=
  match fuel with
  | 0 => s
  | f + 1 =>
    let x := s.lists n
    match x.held with
    | r :: rest =>
      if x.outstanding.length < Config.maxOutstanding then settleLoop f n (promote n r rest s)
      else if 0 < x.dropped && x.held.length < Config.maxHeld then settleLoop f n (makeOverrun n s)
      else s
    | [] => if 0 < x.dropped then settleLoop f n (makeOverrun n s) else s

/-- R176: the lists are brought to rest. Up to 8 promotions and one OVERRUN can be due. -/
def settleLists (n : SessionIx) (s : State) : State := settleLoop 10 n s

/-! ### Taking reports in (R175, R181) -/

/-- R175: a report for a session whose teardown notice has not been taken. -/
def takeReport (n : SessionIx) (r : Report) (s : State) : State :=
  let x := s.lists n
  if x.torn then s
  else if x.held.length < Config.maxHeld then settleLists n (s.withLists n { x with held := x.held ++ [r] })
  else s.withLists n { x with dropped := bump x.dropped }

/-- R181: whether a session is subscribed to the kind of a system report. -/
def subscribed (r : Report) (x : Subscriptions) : Bool :=
  match r with
  | .slotChange _ => x.slotChange
  | .haltChange _ => x.haltChange
  | .sessionLost _ => x.sessionLost
  | .deviation _ => x.deviation
  | .setResult _ | .capture _ | .claimResult _ | .cycleChange _ | .queueLow _ _ | .overrun _ _ => false

/-- R181: one copy of a system report. A session opened anew on the id of a lost one gets SESSION_LOST as any other
(R157; assumption 50). -/
def routeTo (r : Report) (s : State) (n : SessionIx) : State :=
  match s.session n with
  | some x => if subscribed r x.subs then takeReport n r s else s
  | none => s

/-- R175, R181: a hand-over is taken; the copies of a system report in ascending session order (assumption 46). A
report for an opening of a session that is over is discarded (assumption 11). -/
def takeHandover (recipient : Option (SessionIx × Nat)) (r : Report) (s : State) : State :=
  match recipient with
  | none => allSessions.foldl (routeTo r) s
  | some (n, k) =>
    match s.session n with
    | some x => if x.incarnation = k then takeReport n r s else s
    | none => s

/-- REPORT_HANDOVER (R175). -/
def execReportHandover (line : ReportLine) (s : State) : Host.Outcome State Fault Refusal :=
  .next (onNotice (.report line) (fun x t =>
    match x with
    | .report _ recipient r => some (takeHandover recipient r t)
    | _ => none) s)

/-! ### Timers (R178, R179) -/

/-- An outstanding report is changed. -/
def changeOutstanding (n : SessionIx) (uid : Nat) (f : Outstanding → Outstanding) (s : State) : State :=
  let x := s.lists n
  s.withLists n { x with outstanding := x.outstanding.map fun o => if o.uid = uid then f o else o }

/-- R178: the timer of a report whose frame has been sent is started. The interval counts from the event in which the
Report Unit takes the notice, and is the session's setting then, not when the last byte was sent (assumption 57). -/
def startTimer (n : SessionIx) (uid : Nat) (s : State) : State :=
  match s.session n with
  | none => s
  | some r =>
    changeOutstanding n uid (fun o =>
      match o.timer with
      | .sending => { o with timer := .running (s.instant (r.retry * 1000)) }
      | .running _ => o
      | .expired => o) s

/-- END_OF_TRANSMISSION_NOTICE (R178). -/
def execEndOfTransmissionNotice (l : LinkId) (s : State) : Host.Outcome State Fault Refusal :=
  .next (onNotice (.frameEnd l) (fun x t =>
    match x with
    | .frameEnd _ n uid => some (startTimer n uid t)
    | _ => none) s)

/-- R179: an expiry of a report's retry timer. -/
def retryExpired (n : SessionIx) (r : Session) (o : Outstanding) (s : State) : State :=
  if o.retransmissions < 3 then
    handFrame n o (changeOutstanding n o.uid
      (fun x => { x with retransmissions := x.retransmissions + 1, timer := .sending }) s)
  else
    post (.retriesExhausted n r.incarnation)
      (changeOutstanding n o.uid (fun x => { x with timer := .expired }) s)

/-- RETRY_EXPIRY (R179): the timer of the report of a sequence has run out. -/
def execRetryExpiry (n : SessionIx) (seq : Half) (s : State) : Host.Outcome State Fault Refusal :=
  .next (match s.session n, (s.lists n).outstanding.find? fun o => o.seq = seq.toNat with
    | some r, some o =>
      match o.timer with
      | .running t => if s.elapsed t then retryExpired n r o s else s
      | .sending => s
      | .expired => s
    | _, _ => s)

/-! ### Acknowledgement (R180) -/

/-- R180: the reports of the outstanding list up to and including a sequence. -/
def retiredBy (seq : Nat) (os : List Outstanding) : List Outstanding :=
  if os.any fun o => o.seq = seq then os.take (os.findIdx (fun o => o.seq = seq) + 1) else []

/-- R172, R180: frames that wait unsent leave the report queue with their reports. -/
def withdrawFrames (n : SessionIx) (gone : ReportFrame → Bool) (s : State) : State :=
  match s.session n with
  | none => s
  | some r =>
    let k := s.link r.link
    s.withLink r.link { k with reports := k.reports.filter fun f => !(f.session = n && gone f) }

/-- R180. -/
def takeAck (n : SessionIx) (seq : Nat) (s : State) : State :=
  let x := s.lists n
  let done := retiredBy seq x.outstanding
  if done = [] then s
  else
    settleLists n (withdrawFrames n (fun f => done.any fun o => o.uid = f.uid)
      (s.withLists n { x with outstanding := x.outstanding.drop done.length }))

/-- ACK (R180). One for an earlier session of the id is ignored (assumption 11). -/
def execAck (l : LinkId) (s : State) : Host.Outcome State Fault Refusal :=
  .next (onNotice (.ack l) (fun x t =>
    match x with
    | .ack _ n k seq =>
      match t.session n with
      | some r => some (if r.incarnation = k then takeAck n seq t else t)
      | none => some t
    | _ => none) s)

/-! ### Session end (R155, R182) -/

/-- R182: both lists are emptied, the timers dropped and the dropped count set to 0; frames that wait at
the Link Port are removed. -/
def tearReports (n : SessionIx) (s : State) : State :=
  let x := s.lists n
  withdrawFrames n (fun _ => true)
    (s.withLists n { x with held := [], outstanding := [], dropped := 0, torn := true })

/-- TEARDOWN_NOTICE (R182). -/
def execTeardownNotice (n : SessionIx) (s : State) : Host.Outcome State Fault Refusal :=
  .next (onNotice (.sessionEnd .reportUnit n) (fun _ t => some (tearReports n t)) s)

end Sys2Proof.Machine
end

