-- ==== Sys2Proof/Machine/TimeBase.lean ====
section
/-! DEFINITION. The Time Base (spec/03_the_schedule.md R59 to R61; spec/09_sessions.md R153, R160). -/

namespace Sys2Proof.Machine

/-- TIME_GET (R60). -/
def execTimeGet (h : Header) (s : State) : Host.Outcome State Fault Refusal :=
  serve .notTold h .timeGet (fun _ t => answer h .timeGet (doneWith (u48 t.clock.rig)) t) s

/-! ### TIME_SET (R61) -/

/-- R61: what makes a TIME_SET refuse: a set of due kind AT, AFTER or OFFSET, or a cycle that is not NONE. -/
def timeInUse (s : State) : Bool :=
  (s.sets.any fun x => x.due.timed) || allSessions.any fun n => (s.cycle n).isSome

/-- R153: the lease deadlines of the sessions that are OPEN and not ending are moved. The time at which a teardown
began is not (assumption 49). -/
def shiftLease (d : Int) (r : Session) : Session :=
  match r.ending with
  | none => { r with deadline := r.deadline.map (shiftTime d) }
  | some _ => r

/-- R153. -/
def shiftSessions (d : Int) (s : State) : State :=
  s.withSessions { s.sessions with
    records := Table.tab fun n => (s.session n).map (shiftLease d) }

/-- A time that the engine's answer carries is moved. -/
def shiftEngineOutcome (d : Int) (o : EngineOutcome) : EngineOutcome :=
  match o with
  | .applied t => .applied (shiftTime d t)
  | .failed c => .failed c
  | .removed => .removed

/-- The strobe time of an answer is moved. -/
def shiftAnswer (d : Int) (a : CommitAnswer) : CommitAnswer :=
  match a with
  | .strobe t q => .strobe (shiftTime d t) q
  | .byRequest => .byRequest
  | .slotLost => .slotLost
  | .safeDrive => .safeDrive

/-- A commit record handed over and not yet taken is moved. -/
def shiftRecord (d : Int) (r : CommitRecord) : CommitRecord :=
  { r with commitTime := shiftTime d r.commitTime }

/-- The times of what has been handed over and not yet taken move as they would have, had it been taken
before the TIME_SET (assumption 12). Times that are records of the past stay. -/
def shiftNotice (d : Int) (n : Notice) : Notice :=
  match n with
  | .edge l t halted => .edge l (shiftTime d t) halted
  | .outcome k i o => .outcome k i (shiftEngineOutcome d o)
  | .commitAnswer a => .commitAnswer (shiftAnswer d a)
  | .commitRecords rs q => .commitRecords (rs.map (shiftRecord d)) q
  | .syncCommit t => .syncCommit (shiftTime d t)
  | .haltEntry b t => .haltEntry b (shiftHaltEntry d t)
  | .sessionEnd _ _ | .teardownAnswer _ _ | .claimSessionEnd _ | .recordClose _ | .report _ _ _
  | .frameEnd _ _ _ | .retriesExhausted _ _ | .linkBroken _ | .ack _ _ _ _ | .sealAsked _ _ _ _
  | .lostToSchedule _ | .lostToAssembler _ | .itemsReturn _ _ | .memberParked _ _ | .stageEnd _ _ _
  | .engineSlotLost _ _ | .recordsTaken | .readEnd _ _ _ | .captureComplete _ | .slotReady _ _ _
  | .slotLeftReady _ | .safeAllValues | .busFailure _ | .describeReply _ _ _ | .heldReply _ _ _
  | .busRequest _ _ | .commitRequest _ | .withdraw _ | .slotPowered _ | .slotLeftPowered _ => n

/-- R61: the clock and the time-bearing state after a change of rig time to `new`. -/
def setTime (new : Nat) (s : State) : State :=
  let d : Int := new - s.clock.rig
  let t := shiftSessions d (shiftTrigger d (shiftEngine d (shiftSets d (shiftClaims d s))))
  (t.withNotices (t.notices.map (shiftNotice d))).withClock { s.clock with rig := new }

/-- R61. -/
def timeSetBody (h : Header) (time : Time) (s : State) : State :=
  let r : Request := .timeSet time
  if timeInUse s then refuse h r .timeInUse s
  else answer h r (doneWith (u48 s.clock.rig ++ u48 time.toNat)) (setTime time.toNat s)

/-- TIME_SET (R61). -/
def execTimeSet (h : Header) (time : Time) (s : State) : Host.Outcome State Fault Refusal :=
  serve .notTold h (.timeSet time) (fun _ => timeSetBody h time) s

/-! ### DEVICE_CONFIG (R160) -/

/-- R160. -/
def deviceConfigBody (h : Header) (margin : Half) (s : State) : State :=
  answer h (.deviceConfig margin) (doneWith (u16 s.clock.lateMargin ++ u16 margin.toNat))
    (s.withClock { s.clock with lateMargin := margin.toNat })

/-- DEVICE_CONFIG (R160). -/
def execDeviceConfig (h : Header) (margin : Half) (s : State) : Host.Outcome State Fault Refusal :=
  serve .notTold h (.deviceConfig margin) (fun _ => deviceConfigBody h margin) s

end Sys2Proof.Machine
end

