-- ==== Sys2Proof/Machine/Reset.lean ====
section
/-! DEFINITION. The resets (R21, R39, R62, R86, R87, R101, R106, R108, R114, R132 to R134, R147, R161 to
R163, R174). The commands that wait stay in their queue; `uptime`, the count of bus attempts and the
free-value counter go on counting (assumption 29). -/

namespace Sys2Proof.Machine

/-- R108, R114: the Trigger Unit after a reset. -/
def triggerAfterReset (p : Pins) : Trigger :=
  { trig0 := TrigRec.reset p.trig0, trig1 := TrigRec.reset p.trig1
    sync := State.reset.trigger.sync
    halted := if p.haltAsserted then some ⟨.reset, 0⟩ else none
    monitor := if p.haltAsserted then .asserted else .released }

/-- R163: a Link Port after a reset. -/
def linkAfterReset (p : Pins) (spacing : Bool) (now : Nat) : Link :=
  { Link.reset with
    rate := if p.strapGrounded then .baud460800 else .baud921600
    spacingSince := if spacing then some now else none }

/-- Every block at its after-reset value, with every slot unpowered (R132) and the bus idle (R134). A part
that comes up HALTED has its halt entry at rig time 0 taken by the Claim Unit too (R114, R76; assumption 6). -/
def afterReset (p : Pins) (s : State) : State :=
  { State.reset with
    clock := { State.reset.clock with uptime := s.clock.uptime }
    claims := { State.reset.claims with haltEntry := if p.haltAsserted then some 0 else none }
    trigger := triggerAfterReset p
    slots := Table.tab fun k => Slot.afterReset p k (s.slot k).ident s.clock.uptime
    bus := { Bus.reset with attempts := s.bus.attempts }
    linkA := linkAfterReset p p.spacingA s.clock.uptime
    linkB := linkAfterReset p p.spacingB s.clock.uptime
    free := s.free
    pending := s.pending }

/-- R114: the SAFE_ALL of a part that comes up HALTED is queued. -/
def queueResetSafeAll (p : Pins) (s : State) : State :=
  if p.haltAsserted then s.withBus (s.bus.enqueue .safeAll) else s

/-- R132, R134: a power-on reset, a line reset, or a DEVICE_RESET with DROP. -/
def resetUnpowered (p : Pins) (s : State) : State := grantBus (queueResetSafeAll p (afterReset p s))

/-- POWER_ON_RESET (R132). -/
def execPowerOnReset (pins : Pins) (s : State) : Host.Outcome State Fault Refusal :=
  .next (resetUnpowered pins s)

/-- LINE_RESET (R132). -/
def execLineReset (pins : Pins) (s : State) : Host.Outcome State Fault Refusal :=
  .next (resetUnpowered pins s)

/-- R133: whether a slot comes up under held identification. -/
def heldSlot (p : Pins) (s : State) (k : SlotIx) : Bool := heldThrough p k (s.slot k)

/-- R62, R133, R134, R147: the slots, the modules and the live marks as a held reset leaves them. Every module kept
powered loses what it held staged. -/
def keepPowered (p : Pins) (s t : State) : State :=
  let u := (t.withSlots (Table.tab fun k =>
      if heldSlot p s k then Slot.heldAfterReset p k (s.slot k)
      else Slot.afterReset p k (s.slot k).ident s.clock.uptime)).withModules
    (Table.tab fun k => if heldSlot p s k then (s.module k).abandon else Module.off)
  u.withBus { u.bus with live := Table.tab (heldSlot p s) }

/-- R133: the DESCRIBE of a held identification is queued. -/
def queueDescribe (s : State) (k : SlotIx) : State :=
  s.withBus (s.bus.enqueue (.describe k (s.slot k).ident))

/-- R133, R147: ABANDON is sent first; SAFE_ALL (R114) and the DESCRIBEs, in slot order (assumption 45), wait behind
it. -/
def resetHeld (p : Pins) (s : State) : State :=
  let t := beginAttempt .abandon 1 (keepPowered p s (afterReset p s))
  (allSlots.filter (heldSlot p s)).foldl queueDescribe (queueResetSafeAll p t)

/-- HELD_RESET (R133). -/
def execHeldReset (pins : Pins) (s : State) : Host.Outcome State Fault Refusal := .next (resetHeld pins s)

/-- RESET_PERFORMED (R161 step 3): the reply of the DEVICE_RESET has been sent, and the reset of its kind is
performed. -/
def execResetPerformed (pins : Pins) (s : State) : Host.Outcome State Fault Refusal :=
  .next (if s.sessions.resetDue then
      match s.sessions.resetPending with
      | some .hold => resetHeld pins s
      | some .drop => resetUnpowered pins s
      | none => s
    else s)

end Sys2Proof.Machine
end

