-- ==== Sys2Proof/Machine/Dispatch.lean ====
section
/-! DEFINITION. One arm per command: each calls the command's own meaning. -/

namespace Sys2Proof.Machine

/-- The effect of a command on everything but the queue. -/
def exec (i : Instr) (s : State) : Host.Outcome State Fault Refusal :=
  match i with
  | .sessionOpen h role settings => Sys2Proof.Machine.execSessionOpen h role settings s
  | .sessionClose h => Sys2Proof.Machine.execSessionClose h s
  | .sessionConfig h settings => Sys2Proof.Machine.execSessionConfig h settings s
  | .deviceStatus h => Sys2Proof.Machine.execDeviceStatus h s
  | .deviceConfig h margin => Sys2Proof.Machine.execDeviceConfig h margin s
  | .deviceReset h kind => Sys2Proof.Machine.execDeviceReset h kind s
  | .linkStatus h link clear => Sys2Proof.Machine.execLinkStatus h link clear s
  | .timeGet h => Sys2Proof.Machine.execTimeGet h s
  | .timeSet h time => Sys2Proof.Machine.execTimeSet h time s
  | .claim h first last policy wait => Sys2Proof.Machine.execClaim h first last policy wait s
  | .release h first last toSafe force => Sys2Proof.Machine.execRelease h first last toSafe force s
  | .channelRead h first last => Sys2Proof.Machine.execChannelRead h first last s
  | .channelConfig h channel lower upper safe => Sys2Proof.Machine.execChannelConfig h channel lower upper safe s
  | .readback h first last => Sys2Proof.Machine.execReadback h first last s
  | .setOpen h dueKind late capture sync dueTime predecessor delay offset => Sys2Proof.Machine.execSetOpen h dueKind late capture sync dueTime predecessor delay offset s
  | .setAdd h sealFlag items => Sys2Proof.Machine.execSetAdd h sealFlag items s
  | .setDiscard h => Sys2Proof.Machine.execSetDiscard h s
  | .setCancel h setId => Sys2Proof.Machine.execSetCancel h setId s
  | .setList h mode session firstSeal setId => Sys2Proof.Machine.execSetList h mode session firstSeal setId s
  | .cycleBegin h first period repeats => Sys2Proof.Machine.execCycleBegin h first period repeats s
  | .cycleEnd h => Sys2Proof.Machine.execCycleEnd h s
  | .cycleStop h kind => Sys2Proof.Machine.execCycleStop h kind s
  | .cycleStatus h session position => Sys2Proof.Machine.execCycleStatus h session position s
  | .triggerConfig h line enabled edge debounce clear => Sys2Proof.Machine.execTriggerConfig h line enabled edge debounce clear s
  | .syncConfig h polarity width => Sys2Proof.Machine.execSyncConfig h polarity width s
  | .triggerStatus h => Sys2Proof.Machine.execTriggerStatus h s
  | .haltNow h => Sys2Proof.Machine.execHaltNow h s
  | .resume h => Sys2Proof.Machine.execResume h s
  | .slotStatus h slot => Sys2Proof.Machine.execSlotStatus h slot s
  | .slotDisable h slot => Sys2Proof.Machine.execSlotDisable h slot s
  | .slotEnable h slot => Sys2Proof.Machine.execSlotEnable h slot s
  | .slotReset h slot => Sys2Proof.Machine.execSlotReset h slot s
  | .frameReceived l bytes => Sys2Proof.Machine.execFrameReceived l bytes s
  | .gapDeadlineExpiry l => Sys2Proof.Machine.execGapDeadlineExpiry l s
  | .linkBreak l => Sys2Proof.Machine.execLinkBreak l s
  | .lineReturnsToMarking l => Sys2Proof.Machine.execLineReturnsToMarking l s
  | .dispatch l => Sys2Proof.Machine.execDispatch l s
  | .frameSent l => Sys2Proof.Machine.execFrameSent l s
  | .resetPerformed pins => Sys2Proof.Machine.execResetPerformed pins s
  | .powerOnReset pins => Sys2Proof.Machine.execPowerOnReset pins s
  | .lineReset pins => Sys2Proof.Machine.execLineReset pins s
  | .heldReset pins => Sys2Proof.Machine.execHeldReset pins s
  | .leaseExpiry n => Sys2Proof.Machine.execLeaseExpiry n s
  | .reportRetriesExhausted n => Sys2Proof.Machine.execReportRetriesExhausted n s
  | .linkBreakNotice l => Sys2Proof.Machine.execLinkBreakNotice l s
  | .teardownAnswer n b => Sys2Proof.Machine.execTeardownAnswer n b s
  | .sessionRecordClose n => Sys2Proof.Machine.execSessionRecordClose n s
  | .sessionEndLinkPort n => Sys2Proof.Machine.execSessionEndLinkPort n s
  | .sessionEndSetAssembler n => Sys2Proof.Machine.execSessionEndSetAssembler n s
  | .sessionEndSchedule n => Sys2Proof.Machine.execSessionEndSchedule n s
  | .sessionEndCycleUnit n => Sys2Proof.Machine.execSessionEndCycleUnit n s
  | .sessionEndApplyEngine n => Sys2Proof.Machine.execSessionEndApplyEngine n s
  | .sessionEndWaitEntries n => Sys2Proof.Machine.execSessionEndWaitEntries n s
  | .sessionEndClaimUnit n => Sys2Proof.Machine.execSessionEndClaimUnit n s
  | .teardownNotice n => Sys2Proof.Machine.execTeardownNotice n s
  | .reportHandover line => Sys2Proof.Machine.execReportHandover line s
  | .endOfTransmissionNotice l => Sys2Proof.Machine.execEndOfTransmissionNotice l s
  | .retryExpiry n seq => Sys2Proof.Machine.execRetryExpiry n seq s
  | .ack l => Sys2Proof.Machine.execAck l s
  | .sealTaken n => Sys2Proof.Machine.execSealTaken n s
  | .dueTimeExpiry setId => Sys2Proof.Machine.execDueTimeExpiry setId s
  | .triggerEdge line => Sys2Proof.Machine.execTriggerEdge line s
  | .take => Sys2Proof.Machine.execTake s
  | .outcome => Sys2Proof.Machine.execOutcome s
  | .lostChannelsSchedule => Sys2Proof.Machine.execLostChannelsSchedule s
  | .haltEntrySchedule => Sys2Proof.Machine.execHaltEntrySchedule s
  | .itemsReturn n => Sys2Proof.Machine.execItemsReturn n s
  | .lostChannelsSetAssembler => Sys2Proof.Machine.execLostChannelsSetAssembler s
  | .memberParkedNotice n => Sys2Proof.Machine.execMemberParkedNotice n s
  | .haltEntryCycleUnit => Sys2Proof.Machine.execHaltEntryCycleUnit s
  | .stageAcceptance slot => Sys2Proof.Machine.execStageAcceptance slot s
  | .stageFailure slot => Sys2Proof.Machine.execStageFailure slot s
  | .stageSlotLost slot => Sys2Proof.Machine.execStageSlotLost slot s
  | .slotLostNotice slot => Sys2Proof.Machine.execSlotLostNotice slot s
  | .haltEntryApplyEngine => Sys2Proof.Machine.execHaltEntryApplyEngine s
  | .strobeAnswer => Sys2Proof.Machine.execStrobeAnswer s
  | .withdrawnAnswer => Sys2Proof.Machine.execWithdrawnAnswer s
  | .commitRecordsTaken => Sys2Proof.Machine.execCommitRecordsTaken s
  | .captureExpiry entry => Sys2Proof.Machine.execCaptureExpiry entry s
  | .captureReadbackEnd entry slot => Sys2Proof.Machine.execCaptureReadbackEnd entry slot s
  | .commitRecords => Sys2Proof.Machine.execCommitRecords s
  | .captureItems entry => Sys2Proof.Machine.execCaptureItems entry s
  | .slotReady slot => Sys2Proof.Machine.execSlotReady slot s
  | .slotLeftReady slot => Sys2Proof.Machine.execSlotLeftReady slot s
  | .haltEntryClaimUnit => Sys2Proof.Machine.execHaltEntryClaimUnit s
  | .safeAllValues => Sys2Proof.Machine.execSafeAllValues s
  | .rampExpiry channel => Sys2Proof.Machine.execRampExpiry channel s
  | .claimWaitDeadline position => Sys2Proof.Machine.execClaimWaitDeadline position s
  | .trigTransition line level => Sys2Proof.Machine.execTrigTransition line level s
  | .qualificationTimerExpiry line => Sys2Proof.Machine.execQualificationTimerExpiry line s
  | .syncCommitNotice => Sys2Proof.Machine.execSyncCommitNotice s
  | .pulseEnd => Sys2Proof.Machine.execPulseEnd s
  | .haltLineAssert => Sys2Proof.Machine.execHaltLineAssert s
  | .haltLineDeassert => Sys2Proof.Machine.execHaltLineDeassert s
  | .haltMonitorTimerExpiry => Sys2Proof.Machine.execHaltMonitorTimerExpiry s
  | .readingChange slot sense => Sys2Proof.Machine.execReadingChange slot sense s
  | .settleTimerExpiry slot => Sys2Proof.Machine.execSettleTimerExpiry slot s
  | .powerGoodAssert slot => Sys2Proof.Machine.execPowerGoodAssert slot s
  | .powerGoodTimerExpiry slot => Sys2Proof.Machine.execPowerGoodTimerExpiry slot s
  | .powerGoodDeassert slot => Sys2Proof.Machine.execPowerGoodDeassert slot s
  | .overcurrent slot asserted => Sys2Proof.Machine.execOvercurrent slot asserted s
  | .busFailureNotice slot => Sys2Proof.Machine.execBusFailureNotice slot s
  | .describeReply slot => Sys2Proof.Machine.execDescribeReply slot s
  | .heldReadbackReply slot => Sys2Proof.Machine.execHeldReadbackReply slot s
  | .busRequest requester => Sys2Proof.Machine.execBusRequest requester s
  | .commitRequest => Sys2Proof.Machine.execCommitRequest s
  | .withdrawal => Sys2Proof.Machine.execWithdrawal s
  | .moduleReply attempt bytes => Sys2Proof.Machine.execModuleReply attempt bytes s
  | .replyTimeout => Sys2Proof.Machine.execReplyTimeout s
  | .broadcastEnd => Sys2Proof.Machine.execBroadcastEnd s
  | .slotPoweredNotice slot => Sys2Proof.Machine.execSlotPoweredNotice slot s
  | .leftPoweredNotice slot => Sys2Proof.Machine.execLeftPoweredNotice slot s
  | .haltEntryBusController => Sys2Proof.Machine.execHaltEntryBusController s
  | .characterReceived l byte stopBitMarking => Sys2Proof.Machine.execCharacterReceived l byte stopBitMarking s
  | .lineGoesToSpacing l => Sys2Proof.Machine.execLineGoesToSpacing l s

end Sys2Proof.Machine
end

