-- ==== Sys2Proof/Safety.lean ====
section
/-! DEFINITION. The terms the statements use: which parts of the state a command may change, the bounds the
spec puts on every table and queue, a request that stands at its block, and the command of a request. -/

namespace Sys2Proof.Machine

/-! ### Parts of the state -/

/-- The parts of the state, one for each of its fields. -/
inductive Part
  | clock | claims | assembler | schedule | cycles | engine | trigger | slots | bus | modules | sessions
  | reports | linkA | linkB | notices | free | pending
deriving DecidableEq, Repr

/-- A part is the same in two states. -/
def Part.same (p : Part) (s t : State) : Prop :=
  match p with
  | .clock => t.clock = s.clock
  | .claims => t.claims = s.claims
  | .assembler => t.assembler = s.assembler
  | .schedule => t.schedule = s.schedule
  | .cycles => t.cycles = s.cycles
  | .engine => t.engine = s.engine
  | .trigger => t.trigger = s.trigger
  | .slots => t.slots = s.slots
  | .bus => t.bus = s.bus
  | .modules => t.modules = s.modules
  | .sessions => t.sessions = s.sessions
  | .reports => t.reports = s.reports
  | .linkA => t.linkA = s.linkA
  | .linkB => t.linkB = s.linkB
  | .notices => t.notices = s.notices
  | .free => t.free = s.free
  | .pending => t.pending = s.pending

/-- Every part but those of a list is the same in `t` as in `s`. -/
def OnlyChanges (ps : List Part) (s t : State) : Prop := ∀ p, p ∉ ps → p.same s t

/-- The part that holds a Link Port. -/
def linkPart (l : LinkId) : Part :=
  match l with
  | .a => .linkA
  | .b => .linkB

/-- Every part but the queue of commands. -/
def allButPending : List Part :=
  [.clock, .claims, .assembler, .schedule, .cycles, .engine, .trigger, .slots, .bus, .modules, .sessions,
   .reports, .linkA, .linkB, .notices, .free]

/-- The parts a command may change: its block's own, those its rule changes in the same event, what it
hands over, and, for a request, the Link Port it stands on. A request taken as one that has just arrived may
change its session's lease besides (`ArrivesNow`). -/
def touches (i : Instr) : List Part :=
  match i with
  | .sessionOpen h _ _ => [linkPart h.link, .sessions, .reports, .schedule, .cycles]
  | .sessionClose h => [linkPart h.link, .sessions, .notices]
  | .sessionConfig h _ => [linkPart h.link, .sessions, .schedule]
  | .deviceStatus h => [linkPart h.link]
  | .deviceConfig h _ => [linkPart h.link, .clock]
  | .deviceReset _ _ => [.linkA, .linkB, .sessions]
  | .linkStatus _ _ _ => [.linkA, .linkB]
  | .timeGet h => [linkPart h.link]
  | .timeSet h _ => [linkPart h.link, .clock, .claims, .schedule, .engine, .trigger, .sessions, .notices]
  | .claim h _ _ _ _ => [linkPart h.link, .claims, .notices]
  | .release h _ _ _ _ => [linkPart h.link, .claims, .schedule, .cycles, .notices]
  | .channelRead h _ _ => [linkPart h.link]
  | .channelConfig h _ _ _ _ => [linkPart h.link, .claims, .assembler]
  | .readback h _ _ => [linkPart h.link, .engine, .notices]
  | .setOpen h _ _ _ _ _ _ _ _ => [linkPart h.link, .assembler]
  | .setAdd h _ _ => [linkPart h.link, .assembler, .sessions, .notices]
  | .setDiscard h => [linkPart h.link, .assembler, .sessions]
  | .setCancel h _ => [linkPart h.link, .schedule, .cycles, .notices]
  | .setList h _ _ _ _ => [linkPart h.link]
  | .cycleBegin h _ _ _ => [linkPart h.link, .cycles]
  | .cycleEnd h => [linkPart h.link, .cycles, .schedule]
  | .cycleStop h _ => [linkPart h.link, .cycles, .schedule, .notices]
  | .cycleStatus h _ _ => [linkPart h.link]
  | .triggerConfig h _ _ _ _ _ => [linkPart h.link, .trigger, .notices]
  | .syncConfig h _ _ => [linkPart h.link, .trigger]
  | .triggerStatus h => [linkPart h.link]
  | .haltNow h => [linkPart h.link, .trigger, .notices]
  | .resume h => [linkPart h.link, .trigger, .notices]
  | .slotStatus h _ => [linkPart h.link]
  | .slotDisable h _ => [linkPart h.link, .slots, .modules, .claims, .notices]
  | .slotEnable h _ => [linkPart h.link, .slots, .modules, .notices, .free]
  | .slotReset h _ => [linkPart h.link, .slots, .modules, .notices, .free]
  | .frameReceived l _ => [linkPart l, .sessions, .notices]
  | .gapDeadlineExpiry l => [linkPart l]
  | .linkBreak l => [linkPart l, .notices]
  | .lineReturnsToMarking l => [linkPart l]
  | .dispatch l => [linkPart l]
  | .frameSent l => [linkPart l, .sessions, .notices]
  | .resetPerformed _ => allButPending
  | .powerOnReset _ => allButPending
  | .lineReset _ => allButPending
  | .heldReset _ => allButPending
  | .leaseExpiry _ => [.sessions, .notices]
  | .reportRetriesExhausted _ => [.sessions, .notices]
  | .linkBreakNotice _ => [.sessions, .notices]
  | .teardownAnswer _ _ => [.sessions, .notices]
  | .sessionRecordClose _ => [.sessions, .notices]
  | .sessionEndLinkPort _ => [.linkA, .linkB, .notices]
  | .sessionEndSetAssembler _ => [.assembler, .sessions, .notices]
  | .sessionEndSchedule _ => [.schedule, .cycles, .notices]
  | .sessionEndCycleUnit _ => [.cycles, .notices]
  | .sessionEndApplyEngine _ => [.engine, .notices]
  | .sessionEndWaitEntries _ => [.claims, .notices]
  | .sessionEndClaimUnit _ => [.claims, .notices]
  | .teardownNotice _ => [.reports, .linkA, .linkB, .notices]
  | .reportHandover _ => [.reports, .linkA, .linkB, .notices]
  | .endOfTransmissionNotice _ => [.reports, .notices]
  | .retryExpiry _ _ => [.reports, .linkA, .linkB, .notices]
  | .ack _ => [.reports, .linkA, .linkB, .notices]
  | .sealTaken _ => [.linkA, .linkB, .schedule, .assembler, .cycles, .notices]
  | .dueTimeExpiry _ => [.schedule]
  | .triggerEdge _ => [.schedule, .notices]
  | .take => [.schedule, .engine, .notices]
  | .outcome => [.schedule, .cycles, .notices]
  | .lostChannelsSchedule => [.schedule, .cycles, .notices]
  | .haltEntrySchedule => [.schedule, .notices]
  | .itemsReturn _ => [.assembler, .sessions, .notices]
  | .lostChannelsSetAssembler => [.assembler, .notices]
  | .memberParkedNotice _ => [.cycles, .schedule, .notices]
  | .haltEntryCycleUnit => [.cycles, .schedule, .notices]
  | .stageAcceptance _ => [.engine, .notices]
  | .stageFailure _ => [.engine, .notices]
  | .stageSlotLost _ => [.engine, .notices]
  | .slotLostNotice _ => [.engine, .notices]
  | .haltEntryApplyEngine => [.engine, .notices]
  | .strobeAnswer => [.engine, .notices]
  | .withdrawnAnswer => [.engine, .notices]
  | .commitRecordsTaken => [.engine, .notices]
  | .captureExpiry _ => [.engine, .notices]
  | .captureReadbackEnd _ _ => [.engine, .notices]
  | .commitRecords => [.claims, .notices]
  | .captureItems _ => [.claims, .engine, .notices]
  | .slotReady _ => [.claims, .notices]
  | .slotLeftReady _ => [.claims, .notices]
  | .haltEntryClaimUnit => [.claims, .notices]
  | .safeAllValues => [.claims, .bus, .modules, .notices]
  | .rampExpiry _ => [.claims]
  | .claimWaitDeadline _ => [.claims, .notices]
  | .trigTransition _ _ => [.trigger, .notices]
  | .qualificationTimerExpiry _ => [.trigger, .notices]
  | .syncCommitNotice => [.trigger, .notices]
  | .pulseEnd => [.trigger]
  | .haltLineAssert => [.trigger]
  | .haltLineDeassert => [.trigger]
  | .haltMonitorTimerExpiry => [.trigger, .notices]
  | .readingChange _ _ => [.slots, .modules, .notices]
  | .settleTimerExpiry _ => [.slots, .modules, .notices, .free]
  | .powerGoodAssert _ => [.slots, .notices]
  | .powerGoodTimerExpiry _ => [.slots, .modules, .notices]
  | .powerGoodDeassert _ => [.slots, .modules, .notices]
  | .overcurrent _ _ => [.slots, .modules, .notices]
  | .busFailureNotice _ => [.slots, .modules, .notices]
  | .describeReply _ => [.slots, .modules, .notices]
  | .heldReadbackReply _ => [.slots, .notices]
  | .busRequest _ => [.bus, .modules, .engine, .notices]
  | .commitRequest => [.bus, .modules, .engine, .notices]
  | .withdrawal => [.bus, .notices]
  | .moduleReply _ _ => [.bus, .modules, .engine, .notices]
  | .replyTimeout => [.bus, .modules, .engine, .notices]
  | .broadcastEnd => [.bus, .modules, .engine, .notices]
  | .slotPoweredNotice _ => [.bus, .notices]
  | .leftPoweredNotice _ => [.bus, .notices]
  | .haltEntryBusController => [.bus, .modules, .engine, .notices]
  | .characterReceived l _ _ => [linkPart l]
  | .lineGoesToSpacing l => [linkPart l]

/-! ### Bounds -/

/-- R168, R172, R173: a Link Port's queues and counts. -/
def Link.bounded (k : Link) : Prop :=
  k.input.length ≤ Config.maxInput ∧ k.replies.length ≤ Config.maxReplies ∧ k.reports.length ≤ 32 ∧
  k.crcErrors ≤ Config.heldCount ∧ k.gapErrors ≤ Config.heldCount ∧
  k.busyReplies ≤ Config.heldCount ∧ k.breaks ≤ Config.heldCount

/-- R174: a session's report lists. -/
def ReportLists.bounded (x : ReportLists) : Prop :=
  x.outstanding.length ≤ Config.maxOutstanding ∧ x.held.length ≤ Config.maxHeld ∧
  x.dropped ≤ Config.heldCount

/-- R59, R160: rig time and the late margin. -/
def ClockBounded (s : State) : Prop := s.clock.rig ≤ Config.maxTime ∧ s.clock.lateMargin ≤ 65535

/-- R168, R172, R173: both Link Ports. -/
def LinksBounded (s : State) : Prop := s.linkA.bounded ∧ s.linkB.bounded

/-- R174: every session's report lists. -/
def ReportsBounded (s : State) : Prop := ∀ n, (s.lists n).bounded

/-- R172, R182: a frame waits at most once in a report queue, and only on the link of its session and with its
report in the outstanding list; a session whose teardown notice has been taken has nothing outstanding, and an
ending one has taken it or is still to take it. -/
def ReportQueuesTied (s : State) : Prop :=
  (∀ l, ((s.link l).reports.map fun f => (f.session, f.seq)).Nodup) ∧
  (∀ l, ∀ f ∈ (s.link l).reports, (∃ r, s.session f.session = some r ∧ r.link = l) ∧
    ∃ o ∈ (s.lists f.session).outstanding, o.uid = f.uid ∧ o.seq = f.seq) ∧
  (∀ n r, s.session n = some r → r.ending ≠ none →
    .sessionEnd .reportUnit n ∈ s.notices ∨ (s.lists n).torn = true) ∧
  (∀ n, (s.lists n).torn = true → (s.lists n).outstanding = [])

/-- R11, R24, R40, R78, R87: the Claim Wait List and one session's part of it, the Schedule, the Capture List,
the open sets and the members of a cycle. -/
def TablesBounded (s : State) : Prop :=
  s.claims.waits.length ≤ Config.maxWaits ∧
  (∀ n, (s.claims.waits.filter fun e => e.session = n).length ≤ 2) ∧
  s.sets.length ≤ Config.maxSets ∧ s.engine.captures.length ≤ Config.maxCaptures ∧
  (∀ n o, s.openSet n = some o → o.items.length ≤ 32) ∧
  (∀ n c, s.cycle n = some c → c.members.length ≤ 16)

/-- R134: the counts of the module bus. -/
def BusBounded (s : State) : Prop :=
  ∀ k, s.bus.retries.get k ≤ Config.heldCount ∧ s.bus.failures.get k ≤ Config.heldCount

/-- R4: the working values of a present channel lie in its descriptor's limits. -/
def Channel.limitsHold (x : Channel) : Prop :=
  x.descLower ≤ x.lower ∧ x.lower ≤ x.safe ∧ x.safe ≤ x.upper ∧ x.upper ≤ x.descUpper ∧
  x.descLower ≤ x.descSafe ∧ x.descSafe ≤ x.descUpper

/-- R124: every entry of a descriptor passes the checks. -/
def Descriptor.entriesOk (d : Descriptor) : Prop := ∀ e ∈ d.entries, entryOk e = true

/-- R4, R117: the working values of every present channel lie in its descriptor's limits, and no descriptor
that fails the checks is on its way to the Claim Unit or read back against. -/
def LimitsHold (s : State) : Prop :=
  (∀ c x, s.channel c = some x → x.limitsHold) ∧
  (∀ k d held, Notice.slotReady k d held ∈ s.notices → d.entriesOk) ∧
  (∀ k d, (s.slot k).state = .powering ∨ (s.slot k).state = .identifying →
    (s.slot k).descriptor = some d → d.entriesOk)

/-- R4, R5: the commanded value of every present channel lies in its working limits. -/
def CommandedInside (s : State) : Prop :=
  ∀ c x, s.channel c = some x → x.lower ≤ x.commanded ∧ x.commanded ≤ x.upper

/-- The targets of the commit records handed over lie in the working limits of the channels they write. -/
def RecordsInside (s : State) : Prop :=
  ∀ rs q, Notice.commitRecords rs q ∈ s.notices → ∀ r ∈ rs, ∀ x, s.channel r.channel = some x →
    x.lower ≤ r.target ∧ r.target ≤ x.upper

/-- R1, R11, R155: the owner of every OWNED channel and the session of every wait entry is a CONTROL session that is
OPEN, ending or not. R169 step 6: a request in a block's hands is one that the role of its session may send. -/
def OwnersOpen (s : State) : Prop :=
  (∀ c x o, s.channel c = some x → x.owned = some o → s.isControl o.owner = true) ∧
  (∀ e ∈ s.claims.waits, s.isControl e.session = true) ∧
  (∀ h r n, (s.link h.link).inHand = some (h, r) → boundSession h s = some n →
    s.isControl n = true ∨ observeMaySend r = true)

/-- What the items of a list of notices on their way back to the pool add up to. -/
def returning (ns : List Notice) : Nat :=
  (ns.map fun n =>
    match n with
    | .itemsReturn _ count => count
    | _ => 0).sum

/-- The items of the open sets. -/
def openItems (s : State) : Nat :=
  (allSessions.map fun n =>
    match s.openSet n with
    | some o => o.items.length
    | none => 0).sum

/-- R31, R36, R37: every entry of the Item Pool is free, in an open set, in a sealed set or on its way back,
and the ids of the sealed sets are distinct. -/
def PoolConserved (s : State) : Prop :=
  (s.sets.map (·.id)).Nodup ∧
  s.assembler.poolFree + openItems s + (s.sets.map fun x => x.items.length).sum + returning s.notices =
    Config.poolSize

/-- R36: the items of a session's open set and of its sealed sets, and those of it on their way back to the pool. -/
def heldItems (n : SessionIx) (s : State) : Nat :=
  (match s.openSet n with
    | some o => o.items.length
    | none => 0) +
  ((s.sets.filter fun x => x.owner = n).map fun x => x.items.length).sum +
  returning (s.notices.filter fun x => noticeLane x = .itemsReturn n)

/-- R36, R38: the items in use of every OPEN session are the items it holds, within its quota; a CLOSED record has none;
and the ids of the sealed sets are distinct. -/
def ItemsCounted (s : State) : Prop :=
  (s.sets.map (·.id)).Nodup ∧
  ∀ n, (∀ r, s.session n = some r → r.inUse = heldItems n s ∧ r.inUse ≤ r.quota) ∧
    (s.session n = none → heldItems n s = 0)

/-- R48: no more than one set is APPLYING, and the ids of the sealed sets are distinct. -/
def OneApplying (s : State) : Prop :=
  (s.sets.map (·.id)).Nodup ∧ (s.sets.filter fun x => !x.waiting).length ≤ 1

/-- R41, R47: the Ready List has no repeats and holds exactly the ids of the DUE sets, each of which has a due time,
and due times never decrease along it; the ids of the sealed sets are distinct. -/
def ReadyListed (s : State) : Prop :=
  (s.sets.map (·.id)).Nodup ∧ s.schedule.ready.Nodup ∧
  (∀ id, id ∈ s.schedule.ready ↔ ∃ x ∈ s.sets, x.id = id ∧ x.state = .due) ∧
  (∀ x ∈ s.sets, x.state = .due → x.dueTime ≠ none) ∧
  s.schedule.ready.Pairwise fun a b => dueTimeOf s.sets a ≤ dueTimeOf s.sets b

/-- R47: the Ready List is ordered by due time, and among equal due times by seal number. -/
def ReadyOrdered (s : State) : Prop :=
  s.schedule.ready.Pairwise fun a b => goesBefore s.sets a b = true

/-! ### Chains -/

/-- R43: `y` is an unresolved AFTER set of the Schedule that names `x` as its predecessor, and none of some sets that
are cancelled with a reason of their own (R54). -/
def DependsOn (s : State) (except : List Nat) (x y : SealedSet) : Prop :=
  y ∈ s.sets ∧ y.owner = x.owner ∧ y.dueTime = none ∧ (∃ d, y.due = .after x.id d) ∧ y.id ∉ except

/-- R44: `y` depends on `x` directly or through others. -/
def InChain (s : State) (except : List Nat) (x y : SealedSet) : Prop :=
  Relation.TransGen (DependsOn s except) x y

/-! ### Modules -/

/-- R65, R142 to R144: what the modules have done when the bytes of an attempt, numbered `no`, have gone out: those
that are powered and received them intact carry them out, and no other changes. Which received them is a free value
(assumption 17). A SAFE_ALL is carried out once its values are known (R138). -/
def ModulesHear (x : Txn) (no : Nat) (s t : State) : Prop :=
  ∀ k, t.module k =
    if (s.module k).powered = true ∧ Config.requestHeard no k = true then
      match x with
      | .stage j _ items => if j = k then (s.module k).stage items else s.module k
      | .driveSafe j values => if j = k then (s.module k).driveSafe values else s.module k
      | .abandon => (s.module k).abandon
      | .describe _ _ | .readback _ _ _ | .safeAll => s.module k
    else s.module k

/-! ### Requests -/

/-- The command of a request on a link. -/
def commandOf (h : Header) (r : Request) : Instr :=
  match r with
  | .sessionOpen role t => .sessionOpen h role t
  | .sessionClose => .sessionClose h
  | .sessionConfig t => .sessionConfig h t
  | .deviceStatus => .deviceStatus h
  | .deviceConfig margin => .deviceConfig h margin
  | .deviceReset kind => .deviceReset h kind
  | .linkStatus link clear => .linkStatus h link clear
  | .timeGet => .timeGet h
  | .timeSet time => .timeSet h time
  | .claim first last policy wait => .claim h first last policy wait
  | .release first last toSafe force => .release h first last toSafe force
  | .channelRead first last => .channelRead h first last
  | .channelConfig channel lower upper safe => .channelConfig h channel lower upper safe
  | .readback first last => .readback h first last
  | .setOpen kind late capture sync time predecessor delay offset =>
      .setOpen h kind late capture sync time predecessor delay offset
  | .setAdd sealFlag items => .setAdd h sealFlag items
  | .setDiscard => .setDiscard h
  | .setCancel setId => .setCancel h setId
  | .setList mode session firstSeal setId => .setList h mode session firstSeal setId
  | .cycleBegin first period repeats => .cycleBegin h first period repeats
  | .cycleEnd => .cycleEnd h
  | .cycleStop kind => .cycleStop h kind
  | .cycleStatus session position => .cycleStatus h session position
  | .triggerConfig line enabled edge debounce clear => .triggerConfig h line enabled edge debounce clear
  | .syncConfig polarity width => .syncConfig h polarity width
  | .triggerStatus => .triggerStatus h
  | .haltNow => .haltNow h
  | .resume => .resume h
  | .slotStatus slot => .slotStatus h slot
  | .slotDisable slot => .slotDisable h slot
  | .slotEnable slot => .slotEnable h slot
  | .slotReset slot => .slotReset h slot

/-- Nothing stands before a request on its link: the dispatch is ready, no request is in a block's hands and the
input queue is empty, so the request is taken as one that has just arrived (assumption 8). -/
def NothingBefore (h : Header) (s : State) : Prop :=
  (s.link h.link).dispatch = .ready ∧ (s.link h.link).inHand = none ∧ (s.link h.link).input = []

/-- The command is a request taken as one that has just arrived: it may refresh its session's lease (R152). -/
def ArrivesNow (i : Instr) (s : State) : Prop := ∃ h r, i = commandOf h r ∧ NothingBefore h s

/-- Where a request is taken (R169): at the Session Table, at a block that is told of a session's end (R155), or
at one that is not told. -/
def serverOf (r : Request) : Server :=
  match r with
  | .sessionOpen _ _ | .sessionClose | .sessionConfig _ | .deviceStatus | .deviceReset _ => .sessionTable
  | .deviceConfig _ | .timeGet | .timeSet _ => .notTold
  | .linkStatus _ _ => .told .linkPort
  | .claim _ _ _ _ | .release _ _ _ _ | .channelRead _ _ | .channelConfig _ _ _ _ => .told .claimUnit
  | .readback _ _ => .told .applyEngine
  | .setOpen _ _ _ _ _ _ _ _ | .setAdd _ _ | .setDiscard => .told .setAssembler
  | .setCancel _ | .setList _ _ _ _ => .told .schedule
  | .cycleBegin _ _ _ | .cycleEnd | .cycleStop _ | .cycleStatus _ _ => .told .cycleUnit
  | .triggerConfig _ _ _ _ _ | .syncConfig _ _ | .triggerStatus | .haltNow | .resume => .notTold
  | .slotStatus _ | .slotDisable _ | .slotEnable _ | .slotReset _ => .notTold

/-- The request stands at its block (step 7 of R169): it is in the block's hands, its session `n` is OPEN on
the link, the block has not learned of the session's end, and the body's encoding passes R186. -/
structure AtBlock (v : Server) (h : Header) (r : Request) (n : SessionIx) (s : State) : Prop where
  inHand : (s.link h.link).inHand = some (h, r)
  session : boundSession h s = some n
  notEnded : endedAt v n s = false
  encoding : encodingOk r = true

end Sys2Proof.Machine
end

