-- ==== Sys2Proof/Certificates/Slice0/Obligations.lean ====
section
/-! DEFINITION. The statements for the provers. The rule numbers in a docstring say which rules of spec/ its
content comes from; only the statements whose basis in OBLIGATIONS.json is 'stated' claim to hold a rule whole.
Where a statement speaks of a request, `AtBlock` says that the request stands at its block with a sound encoding
(steps 1 to 6 of R169 and R186 are behind it). -/

open Sys2Proof Sys2Proof.Machine

/-! ### The machine -/

/-- A step takes the command at the front of the queue and executes it with the queue's rest. The model's own
choice (assumption 3): on an empty queue a step lets 1 µs pass and nothing else; rig time stays at 2^48 − 1 (R59). -/
def Obligations.StepRunsTheQueue : Prop :=
  (∀ (c : Instr) (rest : List Instr) (s : State), s.pending = c :: rest →
    step s = exec c (s.withPending rest)) ∧
  (∀ s : State, s.pending = [] →
    ∃ t, step s = .next t ∧ OnlyChanges [.clock] s t ∧
      t.clock.rig = min (s.clock.rig + 1) (2 ^ 48 - 1) ∧ t.clock.uptime = s.clock.uptime + 1 ∧
      t.clock.lateMargin = s.clock.lateMargin)

/-- Every command that a line of the part can carry runs in every state, and every other one is refused by
name (assumption 34). -/
def Obligations.WellFormedCommandsRun : Prop :=
  (∀ (i : Instr) (s : State), i.wellFormed = true → ∃ t, exec i s = .next t) ∧
  (∀ (i : Instr) (s : State), i.wellFormed = false → exec i s = .refused .illFormed)

/-- The frame of every command: a command changes only the parts of the state that `touches` lists for it, a
request taken as one that has just arrived (assumption 8) its session's lease besides (R152), and none the queue
of commands. -/
def Obligations.CommandsChangeOnlyTheirParts : Prop :=
  ∀ (i : Instr) (s t : State), exec i s = .next t →
    (¬ ArrivesNow i s → OnlyChanges (touches i) s t) ∧
    (ArrivesNow i s → OnlyChanges (.sessions :: touches i) s t) ∧ t.pending = s.pending

/-! ### Invariants every step keeps -/

/-- R11, R24, R40, R59, R78, R87, R89, R134, R160, R168, R172, R173, R174: rig time and the late margin stay in
range, and no table, queue, list or held count grows past its bound. A report queue keeps to 32 frames because
each of its frames waits once and has its report outstanding. -/
def Obligations.StepKeepsEveryBound : Prop :=
  ∀ s t : State,
    ClockBounded s ∧ BusBounded s ∧ LinksBounded s ∧ ReportsBounded s ∧ TablesBounded s ∧ ReportQueuesTied s →
    step s = .next t →
    ClockBounded t ∧ BusBounded t ∧ LinksBounded t ∧ ReportsBounded t ∧ TablesBounded t ∧ ReportQueuesTied t

/-- R4: the working limits and safe value of every present channel stay ordered and inside its descriptor's
limits. R4, R5: the commanded value stays inside the working limits, if the targets of the commit records handed over
lie inside the working limits of the channels they write. (A record may come to a channel that has gone and come back
with another module since its set was built; R76 takes it as any other.) -/
def Obligations.StepKeepsChannelLimits : Prop :=
  (∀ s t : State, LimitsHold s → step s = .next t → LimitsHold t) ∧
  (∀ s t : State, LimitsHold s → CommandedInside s → RecordsInside s → step s = .next t → CommandedInside t)

/-- R1, R11, R155, R157: the owner of every OWNED channel, and the session of every wait entry, is a CONTROL session
that is OPEN, its teardown in progress or not. R169: the request in a block's hands is one that its session's
role may send. (That a record is not closed before the Claim Unit has taken the session's channels and entries
away is R156 and R157's order; that the command then waits is the model's way to keep it, assumption 10.) -/
def Obligations.StepKeepsOwnersOpen : Prop :=
  ∀ s t : State, OwnersOpen s → step s = .next t → OwnersOpen t

/-- R36, R37: what the pool has given is in an open set, in a sealed set or on its way back, 512 entries in
all, and sealed sets have ids of their own (R31). -/
def Obligations.StepConservesTheItemPool : Prop :=
  ∀ s t : State, PoolConserved s → step s = .next t → PoolConserved t

/-- R36 to R38: the items in use of every OPEN session are the items of its open set and of its sealed sets, with those
on their way back to the pool, and never exceed its quota; a CLOSED record has none. (That a record is not closed while
the session has items in use is R38's; that the command then waits is the model's way to keep it, assumption 10.) -/
def Obligations.StepKeepsItemsInUse : Prop :=
  ∀ s t : State, ItemsCounted s → step s = .next t → ItemsCounted t

/-- R48: at most one set is APPLYING. -/
def Obligations.StepKeepsOneApplyingSet : Prop :=
  ∀ s t : State, OneApplying s → step s = .next t → OneApplying t

/-- R41, R47: every step keeps the Ready List without repeats, holding exactly the ids of the DUE sets, each with a
due time, in an order along which due times never decrease; and among equal due times in the order in which the
seal numbers were given, except across a TIME_SET whose shift of a DUE due time is held at the ends of the range
(R61 keeps the list's order then: assumption 52). R31: the set id counter stays at 65534 or below. -/
def Obligations.StepKeepsTheReadyList : Prop :=
  (∀ s t : State, ReadyListed s → step s = .next t → ReadyListed t) ∧
  (∀ s t : State, ReadyListed s → ReadyOrdered s →
    (∀ h time rest, s.pending = .timeSet h time :: rest → ∀ x ∈ s.sets, ∀ v, x.state = .due →
      x.dueTime = some v → (s.clock.rig : Int) ≤ (v : Int) + time.toNat ∧
        (v : Int) + time.toNat - s.clock.rig ≤ 2 ^ 48 - 1) →
    step s = .next t → ReadyOrdered t) ∧
  (∀ s t : State, s.schedule.nextId ≤ 65534 → step s = .next t → t.schedule.nextId ≤ 65534)

/-- Every invariant holds right after a power-on reset. (The levels of the input lines at its end are the model's
choice: assumption 5.) -/
def Obligations.ResetMeetsTheInvariants : Prop :=
  ClockBounded State.reset ∧ BusBounded State.reset ∧ LinksBounded State.reset ∧
  ReportsBounded State.reset ∧ TablesBounded State.reset ∧ ReportQueuesTied State.reset ∧
  LimitsHold State.reset ∧ PoolConserved State.reset ∧ OneApplying State.reset ∧
  ReadyListed State.reset ∧ ReadyOrdered State.reset ∧ State.reset.schedule.nextId ≤ 65534 ∧
  CommandedInside State.reset ∧ RecordsInside State.reset ∧ OwnersOpen State.reset ∧ ItemsCounted State.reset

/-! ### Frames on the line -/

/-- R185: a body that a host writes from the request tables is read back as the request it stands for (a
SET_ADD's count byte counts up to 255 items). R183, R164: the frame of a request, from its length byte on, is a
whole frame whose CRC agrees, and its header and body are read back as they were written. -/
def Obligations.RequestsRoundTrip : Prop :=
  (∀ r : Request, (∀ f items, r = .setAdd f items → items.length ≤ 255) →
    parseRequest (kindOf r) (requestBody r) = .request r) ∧
  (∀ (session : Byte) (seq : Half) (r : Request), (requestBody r).length ≤ 240 →
    frameBytesOk ((requestFrame session seq r).drop 1) = true ∧
    crcAgrees ((requestFrame session seq r).drop 1) = true ∧
    readFrame ((requestFrame session seq r).drop 1) =
      { cls := 1, kind := kindOf r, session := session, seq := seq, body := requestBody r })

/-- R183, R184, R187: the bytes the part sends. A reply is a frame of class 2 that echoes the kind, session and
sequence of its request around outcome, reason and result; a report is one of class 3 with its kind, session and
sequence; the length byte counts what follows it up to the CRC, and the CRC is the 16-bit one of R183 over the
bytes between start byte and CRC. Fields are sent high byte first, an absent optional field as zeros behind a 0. The
report bodies are those of the report tables. The codes are those of the enumeration and reason tables, and a code of
a request is read as what it stands for. -/
def Obligations.OutgoingFramesHaveTheirBytes : Prop :=
  let frame (inner : List Byte) : List Byte :=
    0xD5 :: inner ++ [(crc16 inner).extractLsb' 8 8, (crc16 inner).extractLsb' 0 8]
  ((∀ r : Reply, outBytes (.reply r) = frame (
      [.ofNat 8 (r.body.length + 7), 2, r.kind, r.session, r.seq.extractLsb' 8 8, r.seq.extractLsb' 0 8,
        (match r.outcome with | .done => 0 | .refused => 1 | .busy => 2),
        (match r.reason with | some x => .ofNat 8 (reasonCode x) | none => 0)] ++ r.body)) ∧
    (∀ f : ReportFrame, outBytes (.report f) = frame (
      [.ofNat 8 ((reportBody f.report).length + 5), 3, reportKind f.report, .ofNat 8 (f.session.val + 1),
        .ofNat 8 (f.seq / 256), .ofNat 8 f.seq] ++ reportBody f.report))) ∧
  (crc16 [] = 0xFFFF ∧ ∀ (bytes : List Byte) (b : Byte), crc16 (bytes ++ [b]) =
    (List.range 8).foldl (fun c _ => if c.msb then (c <<< 1) ^^^ 0x1021 else c <<< 1)
      (crc16 bytes ^^^ (b ++ (0 : Byte)))) ∧
  ((∀ n, n < 2 ^ 16 → u16 n = [.ofNat 8 (n / 2 ^ 8), .ofNat 8 (n % 2 ^ 8)]) ∧
    (∀ n, n < 2 ^ 32 → u32 n = [.ofNat 8 (n / 2 ^ 24), .ofNat 8 (n / 2 ^ 16), .ofNat 8 (n / 2 ^ 8), .ofNat 8 n]) ∧
    (∀ n, n < 2 ^ 48 → u48 n = u16 (n / 2 ^ 32) ++ u32 (n % 2 ^ 32)) ∧
    (∀ v : Int, -2 ^ 15 ≤ v → v < 2 ^ 15 → i16 v = u16 (v % 2 ^ 16).toNat) ∧
    wFlag false = [0] ∧ wFlag true = [1] ∧
    (∀ (size : Nat) (enc : Nat → List Byte) (v : Nat), wOpt size enc (some v) = 1 :: enc v ∧
      wOpt size enc none = List.replicate (size + 1) 0) ∧
    (∀ name : List Byte, name.length ≤ 8 →
      (wName name).length = 9 ∧ wName name = u8 name.length ++ name ++ List.replicate (8 - name.length) 0)) ∧
  ((∀ x, reportKind (.setResult x) = 0x41 ∧ reportBody (.setResult x) =
      u16 x.setId ++ u32 x.sealNo ++ u8 (setOutcomeCode x.outcome) ++
      wOpt 1 (fun v => u8 (resultReasonCode v)) x.reason ++ u32 x.pass ++ wFlag x.parked ++
      wOpt 6 u48 x.dueTime ++ wOpt 6 u48 x.commitTime ++ wOpt 4 u32 x.lateness ++ u48 x.eventTime) ∧
    (∀ x, reportKind (.capture x) = 0x42 ∧ reportBody (.capture x) =
      u16 x.setId ++ u16 x.tag ++ u48 x.refTime ++ u48 x.captureTime ++ u8 x.items.length ++
      x.items.flatMap fun i => u8 i.channel.val ++ u8 (captureResultCode i.result) ++
        (if i.result = .value then i16 i.value else [0, 0])) ∧
    (∀ x, reportKind (.claimResult x) = 0x43 ∧ reportBody (.claimResult x) =
      u8 (claimOutcomeCode x.outcome) ++ u8 x.first.val ++ u8 x.last.val ++ u16 x.seq ++
      wOpt 1 (fun c : ChanIx => u8 c.val) x.lost) ∧
    (∀ x, reportKind (.cycleChange x) = 0x44 ∧ reportBody (.cycleChange x) =
      u8 0 ++ u8 (cycleEndCode x.reason) ++
      (match x.member with
        | none => [0, 0, 0, 0, 0]
        | some (id, why) => u8 1 ++ u16 id ++ u8 1 ++ u8 (resultReasonCode why)) ++
      u48 x.firstStart ++ u32 x.period ++ u32 x.repeats ++ u32 x.begun ++ wOpt 6 u48 x.lastStart ++
      u8 x.members ++ u48 x.eventTime) ∧
    (∀ count mark, reportKind (.queueLow count mark) = 0x45 ∧
      reportBody (.queueLow count mark) = u8 count ++ u8 mark) ∧
    (∀ x, reportKind (.slotChange x) = 0x50 ∧ reportBody (.slotChange x) =
      u8 x.slot.val ++ u8 (slotStateCode x.state) ++ u8 (slotStateCode x.previous) ++
      u8 (readingCode x.reading) ++ wOpt 1 (fun f => u8 (faultCode f)) x.fault ++
      wOpt 1 (fun f => u8 (railCode f)) x.rail ++ wOpt 1 wFlag x.held ++
      wOpt 7 (fun m : Nat × Nat × Nat => u16 m.1 ++ u32 m.2.1 ++ u8 m.2.2) x.summary ++ u48 x.eventTime) ∧
    (∀ x, reportKind (.haltChange x) = 0x51 ∧ reportBody (.haltChange x) =
      (match x.cause with
        | some c => u8 0 ++ u8 1 ++ u8 (haltCauseCode c)
        | none => u8 1 ++ u8 0 ++ u8 0) ++
      u8 (match x.session with | some n => n.val + 1 | none => 0) ++ u48 x.eventTime) ∧
    (∀ x, reportKind (.sessionLost x) = 0x52 ∧ reportBody (.sessionLost x) =
      u8 (x.session.val + 1) ++ u8 (endingCode x.cause) ++ u8 (linkCode x.link) ++ u8 (roleCode x.role) ++
      wName x.name ++ u48 x.eventTime) ∧
    (∀ x, reportKind (.deviation x) = 0x53 ∧ reportBody (.deviation x) =
      u8 x.channel.val ++ u16 x.setId ++ i16 x.target ++ i16 x.read ++ u16 x.tolerance ++ u48 x.readTime) ∧
    (∀ dropped time, reportKind (.overrun dropped time) = 0x5F ∧
      reportBody (.overrun dropped time) = u16 dropped ++ u48 time)) ∧
  (((∀ r, reasonCode r = match r with
      | .unknownKind => 0x01 | .badLength => 0x02 | .badField => 0x03 | .noSession => 0x04 | .role => 0x05
      | .tableFull => 0x07 | .absent => 0x10 | .held => 0x11 | .waitListFull => 0x12 | .notOwned => 0x13
      | .inUse => 0x14 | .noOpenSet => 0x20 | .setAlreadyOpen => 0x21 | .duplicateChannel => 0x22
      | .outOfLimits => 0x23 | .poolFull => 0x24 | .quota => 0x25 | .scheduleFull => 0x26 | .emptySet => 0x27
      | .spoiled => 0x28 | .predecessor => 0x29 | .noSuchSet => 0x2A | .tooLate => 0x2B | .halted => 0x30
      | .lineAsserted => 0x31 | .cycleState => 0x32 | .timeInUse => 0x33 | .slotState => 0x34
      | .lineInUse => 0x35 | .captureFull => 0x36) ∧
    (∀ r, resultReasonCode r = match r with
      | .halted => 0x30 | .moduleNoReply => 0x40 | .slotLost => 0x41 | .byRequest => 0x42
      | .channelReleased => 0x43 | .channelAbsent => 0x44 | .chainBroken => 0x45 | .cycleStopped => 0x46
      | .late => 0x47)) ∧
    ([Role.control, .observe].map roleCode = [0, 1] ∧ [LinkId.a, .b].map linkCode = [0, 1] ∧
      [LossPolicy.hold, .safe].map lossPolicyCode = [0, 1] ∧
      [ChannelKind.voltage, .current, .digital].map channelKindCode = [0, 1, 2] ∧
      [LatePolicy.apply, .discard].map latePolicyCode = [0, 1] ∧
      [SetState.pending, .due, .applying, .parked].map setStateCode = [0, 1, 2, 3] ∧
      [SetOutcome.applied, .failed, .cancelled, .discarded].map setOutcomeCode = [0, 1, 2, 3] ∧
      [CaptureResult.value, .superseded, .absent, .halted, .full].map captureResultCode = [0, 1, 2, 3, 4] ∧
      [ClaimOutcome.granted, .waiting, .timeout, .absent].map claimOutcomeCode = [0, 1, 2, 3] ∧
      [StopKind.afterPass, .now].map stopKindCode = [0, 1] ∧
      [CycleEndReason.complete, .stopped, .memberFailed, .memberCancelled, .halted].map cycleEndCode =
        [0, 1, 2, 3, 4] ∧
      [Edge.rising, .falling, .both].map edgeCode = [0, 1, 2] ∧
      [Debounce.off, .us5, .us50, .us500, .ms5].map debounceCode = [0, 1, 2, 3, 4] ∧
      [Polarity.activeHigh, .activeLow].map polarityCode = [0, 1] ∧ [Level.low, .high].map levelCode = [0, 1] ∧
      [ResetKind.hold, .drop].map resetKindCode = [0, 1] ∧
      [SlotState.empty, .settling, .powering, .identifying, .ready, .fault, .disabled].map slotStateCode =
        [0, 1, 2, 3, 4, 5, 6] ∧
      [Reading.vacant, .partialSeat, .seatedLow, .seatedHigh].map readingCode = [0, 1, 2, 3] ∧
      [Rail.v12, .v24].map railCode = [0, 1] ∧
      [FaultReason.misseated, .noPower, .overcurrent, .badDescriptor, .noReply].map faultCode =
        [0, 1, 2, 3, 4] ∧
      [EndingCause.close, .lease, .reportTimeout, .linkBreak].map endingCode = [0, 1, 2, 3]) ∧
    ((∀ d, dueKindCode d = match d with
        | .now => 0 | .atTime _ => 1 | .after _ _ => 2 | .trigger .trig0 => 3 | .trigger .trig1 => 4
        | .offset _ => 5) ∧
      (∀ c, cycleStateCode c = match c.map (·.phase) with
        | none => 0 | some .building => 1 | some .running => 2 | some (.stopping _) => 3) ∧
      (∀ c, haltCauseCode c = match c with | .line => 0 | .request _ => 1 | .reset => 2) ∧
      (∀ m, monitorCode m = match m with | .released => 0 | .qualifying _ => 1 | .asserted => 2) ∧
      (∀ w, engineCode w = match w.map (·.phase) with
        | none => 0 | some .staging => 1 | some .committing => 2 | some .withdrawing => 3
        | some .recording => 4) ∧
      (∀ r, receiverCode r = match r with | .hunt => 0 | .frame _ _ => 1 | .lineBreak => 2) ∧
      (∀ t, txnCode t = match t with
        | .describe _ _ => 1 | .stage _ _ _ => 2 | .readback _ _ _ => 3 | .driveSafe _ _ => 4
        | .abandon => 5 | .safeAll => 6)) ∧
    (∀ b : Byte, (∀ x, roleOf b = some x ↔ b.toNat = roleCode x) ∧
      (∀ x, linkOf b = some x ↔ b.toNat = linkCode x) ∧
      (∀ x, lossPolicyOf b = some x ↔ b.toNat = lossPolicyCode x) ∧
      (∀ x, stopKindOf b = some x ↔ b.toNat = stopKindCode x) ∧
      (∀ x, trigLineOf b = some x ↔ b.toNat = match x with | .trig0 => 0 | .trig1 => 1) ∧
      (∀ x, edgeOf b = some x ↔ b.toNat = edgeCode x) ∧
      (∀ x, debounceOf b = some x ↔ b.toNat = debounceCode x) ∧
      (∀ x, polarityOf b = some x ↔ b.toNat = polarityCode x) ∧
      (∀ x, resetKindOf b = some x ↔ b.toNat = resetKindCode x)))

/-! ### Requests and replies -/

/-- R169, R170, R171, R172: answering a request takes it out of its block's hands; the reply goes to an idle
transmitter at once, waits behind the frame in transmission, or, with 8 replies queued, is held by the
dispatch. The session's last-request cache keeps it; the reply to a SESSION_OPEN, DONE or REFUSED, becomes the
link's open cache, with the session that it opened. Nothing outside the request's Link Port changes. (That the
reply of a session which has ended as the Link Port knows it, or is no longer bound to the link, is not cached is the
model's reading: assumption 8.) -/
def Obligations.AnswerSendsTheReply : Prop :=
  ∀ (h : Header) (r : Request) (a : Answer) (opened : Option SessionIx) (s : State),
    let k := s.link h.link
    let t := answerOpened h r a opened s
    let x : Reply := { kind := kindOf r, session := h.session, seq := h.seq, outcome := a.outcome
                       reason := a.reason, body := a.body, resetReply := a.resetReply }
    (opened = none → answer h r a s = t) ∧
    OnlyChanges [linkPart h.link] s t ∧
    (t.link h.link).inHand = none ∧
    (k.replies = [] → k.transmission = none →
      (t.link h.link).transmission = some ⟨.reply x, outBytes (.reply x)⟩ ∧
      (t.link h.link).replies = [] ∧ (t.link h.link).dispatch = k.dispatch) ∧
    (∀ y, k.replies.length < 8 → k.transmission = some y →
      (t.link h.link).transmission = some y ∧ (t.link h.link).replies = k.replies ++ [x] ∧
      (t.link h.link).dispatch = k.dispatch) ∧
    (8 ≤ k.replies.length →
      (t.link h.link).transmission = k.transmission ∧ (t.link h.link).replies = k.replies ∧
      ((∀ y, k.dispatch ≠ .stopped y) → (t.link h.link).dispatch = .waiting x) ∧
      (∀ y, k.dispatch = .stopped y → (t.link h.link).dispatch = .stopped (some x))) ∧
    ((∃ role c, r = .sessionOpen role c) →
      (t.link h.link).openCache = some ⟨h.seq, { x with resetReply := false }, opened⟩ ∧
      (t.link h.link).cache = k.cache) ∧
    ((∀ role c, r ≠ .sessionOpen role c) →
      (t.link h.link).openCache = k.openCache ∧
      (∀ n, boundSession h s = some n → s.endedFor .linkPort n = false →
        (t.link h.link).cache.get n = some ⟨h.seq, { x with resetReply := false }⟩ ∧
        ∀ m, m ≠ n → (t.link h.link).cache.get m = k.cache.get m) ∧
      (∀ n, boundSession h s = some n → s.endedFor .linkPort n = true → (t.link h.link).cache = k.cache) ∧
      (boundSession h s = none → (t.link h.link).cache = k.cache))

/-- R169: DISPATCH takes the oldest request frame of a READY link through the seven steps; with no such frame,
or a request in a block's hands, it changes nothing. -/
def Obligations.DispatchFollowsItsSteps : Prop :=
  ∀ (l : LinkId) (s : State),
    ((s.link l).dispatch ≠ .ready ∨ (s.link l).inHand ≠ none ∨ (s.link l).input = [] →
      exec (.dispatch l) s = .next s) ∧
    (∀ (f : InFrame) (rest : List InFrame),
      (s.link l).dispatch = .ready → (s.link l).inHand = none → (s.link l).input = f :: rest →
      let u := s.withLink l { s.link l with input := rest }
      let h : Header := { link := l, session := f.session, seq := f.seq }
      (parseRequest f.kind f.body = .unknownKind →
        exec (.dispatch l) s = .next (refuseUncached h f.kind .unknownKind u)) ∧
      (parseRequest f.kind f.body = .badLength →
        exec (.dispatch l) s = .next (refuseUncached h f.kind .badLength u)) ∧
      (∀ role t, parseRequest f.kind f.body = .request (.sessionOpen role t) →
        (∀ e, (s.link l).openCache = some e → e.seq = f.seq →
          exec (.dispatch l) s = .next (placeReply l e.reply u)) ∧
        ((∀ e, (s.link l).openCache = some e → e.seq ≠ f.seq) →
          exec (.dispatch l) s = .next (handOver h (.sessionOpen role t) u))) ∧
      (∀ r, parseRequest f.kind f.body = .request r → (∀ role t, r ≠ .sessionOpen role t) →
        (boundSession h s = none → exec (.dispatch l) s = .next (refuseUncached h f.kind .noSession u)) ∧
        (∀ n, boundSession h s = some n →
          (s.isEnding n = true → exec (.dispatch l) s = .next (refuseUncached h f.kind .noSession u)) ∧
          (∀ e, s.isEnding n = false → (s.link l).cache.get n = some e → e.seq = f.seq →
            exec (.dispatch l) s = .next (placeReply l e.reply u)) ∧
          (s.isEnding n = false → (∀ e, (s.link l).cache.get n = some e → e.seq ≠ f.seq) →
            (s.isControl n = true ∨ observeMaySend r = true →
              exec (.dispatch l) s = .next (handOver h r u)) ∧
            (s.isControl n = false → observeMaySend r = false →
              exec (.dispatch l) s = .next (refuse h r .role u))))))

/-- A request command on a READY link whose input queue is empty first goes through the steps of R169, and its
frame refreshes its session's lease (R152; that it comes in so is the model's own convention, assumption 8): if
the steps hand it over, its block takes it at once, and if they answer it, that is all. One whose frame is the oldest
of the queue acts as DISPATCH first, and its block then takes it if DISPATCH has put it in its hands; one that is
neither in its block's hands nor next on its link changes nothing (both assumption 8's). R186: a request in its
block's hands whose body's encoding is not sound is refused BAD_FIELD, before anything else is looked at; the encoding
is sound when every presence byte and flag is 0 or 1, every enumeration holds a code of its table, and a name has up to
8 characters from 0x20 to 0x7E, of a field that is present. One of sound encoding whose session is no longer OPEN on
the link, or has ended as its block knows it, is refused NO_SESSION (assumption 8 deduces both). A SET_ADD whose seal
waits at the Schedule stays. -/
def Obligations.RequestsReachTheirBlock : Prop :=
  (∀ (h : Header) (r : Request) (s : State), (commandOf h r).wellFormed = true → NothingBefore h s →
    (∀ m inc x, .sealAsked m inc h x ∉ s.notices) →
    let u := refreshLease h.link h.session s
    (dispatchRequest h r u = handOver h r u → exec (commandOf h r) s = exec (commandOf h r) (handOver h r u)) ∧
    (((dispatchRequest h r u).link h.link).inHand = none →
      exec (commandOf h r) s = .next (dispatchRequest h r u))) ∧
  (∀ (h : Header) (r : Request) (s : State), (commandOf h r).wellFormed = true →
    (∀ role c, r ≠ .sessionOpen role c) → (s.link h.link).inHand = some (h, r) →
    (∀ m inc x, .sealAsked m inc h x ∉ s.notices) →
    (encodingOk r = false → exec (commandOf h r) s = .next (refuse h r .badField s)) ∧
    (encodingOk r = true → boundSession h s = none → exec (commandOf h r) s = .next (refuse h r .noSession s)) ∧
    (∀ n, encodingOk r = true → boundSession h s = some n → endedAt (serverOf r) n s = true →
      exec (commandOf h r) s = .next (refuse h r .noSession s))) ∧
  ((∀ (h : Header) (r : Request) (f : InFrame) (rest : List InFrame) (s : State),
    (commandOf h r).wellFormed = true → (s.link h.link).dispatch = .ready → (s.link h.link).inHand = none →
    (s.link h.link).input = f :: rest → f.session = h.session → f.seq = h.seq →
    parseRequest f.kind f.body = .request r → (∀ m inc x, .sealAsked m inc h x ∉ s.notices) →
    ∃ u, exec (.dispatch h.link) s = .next u ∧
      ((u.link h.link).inHand = some (h, r) → exec (commandOf h r) s = exec (commandOf h r) u) ∧
      ((u.link h.link).inHand ≠ some (h, r) → exec (commandOf h r) s = .next u)) ∧
  (∀ (h : Header) (r : Request) (s : State), (commandOf h r).wellFormed = true →
    (s.link h.link).inHand ≠ some (h, r) →
    ((s.link h.link).dispatch ≠ .ready ∨ (s.link h.link).inHand ≠ none ∨
      ∃ f rest, (s.link h.link).input = f :: rest ∧ ¬ (f.session = h.session ∧ f.seq = h.seq ∧
        parseRequest f.kind f.body = .request r)) →
    exec (commandOf h r) s = .next s)) ∧
  (∀ (h : Header) (f : Byte) (items : List RawItem) (m : SessionIx) (inc x : Nat) (s : State),
    (commandOf h (.setAdd f items)).wellFormed = true → .sealAsked m inc h x ∈ s.notices →
    exec (.setAdd h f items) s = .next s) ∧
  (∀ r : Request,
    let flag (b : Byte) : Prop := b = 0 ∨ b = 1
    let opt {α : Type} (o : Opt α) (ok : α → Prop) : Prop := o.presence = 0 ∨ o.presence = 1 ∧ ok o.value
    let name (x : RawName) : Prop := x.len.toNat ≤ 8 ∧
      ∀ c ∈ x.chars.toList.take x.len.toNat, 0x20 ≤ c.toNat ∧ c.toNat ≤ 0x7E
    let settings (x : RawSettings) : Prop := opt x.name name ∧ opt x.lease (fun _ => True) ∧
      opt x.quota (fun _ => True) ∧ opt x.lowMark (fun _ => True) ∧ opt x.retry (fun _ => True) ∧
      opt x.slotChange flag ∧ opt x.haltChange flag ∧ opt x.sessionLost flag ∧ opt x.deviation flag
    encodingOk r = true ↔
      match r with
      | .sessionOpen role x => role.toNat ≤ 1 ∧ settings x
      | .sessionConfig x => settings x
      | .deviceReset kind => kind.toNat ≤ 1
      | .linkStatus link clear => link.toNat ≤ 1 ∧ flag clear
      | .claim _ _ policy _ => policy.toNat ≤ 1
      | .release _ _ toSafe force => flag toSafe ∧ flag force
      | .setOpen kind late capture sync _ _ _ _ => kind.toNat ≤ 5 ∧ late.toNat ≤ 1 ∧ flag capture ∧ flag sync
      | .setAdd sealFlag _ => flag sealFlag
      | .setList mode _ _ _ => mode.toNat ≤ 2
      | .cycleStop kind => kind.toNat ≤ 1
      | .triggerConfig line enabled edge debounce clear =>
          line.toNat ≤ 1 ∧ flag enabled ∧ edge.toNat ≤ 2 ∧ debounce.toNat ≤ 4 ∧ flag clear
      | .syncConfig polarity _ => polarity.toNat ≤ 1
      | .sessionClose | .deviceStatus | .deviceConfig _ | .timeGet | .timeSet _ | .channelRead _ _
      | .channelConfig _ _ _ _ | .readback _ _ | .setDiscard | .setCancel _ | .cycleBegin _ _ _ | .cycleEnd
      | .cycleStatus _ _ | .triggerStatus | .haltNow | .resume | .slotStatus _ | .slotDisable _
      | .slotEnable _ | .slotReset _ => True)

/-! ### The links -/

/-- R164: a receiver in HUNT that is sent the start byte and then the characters of a whole frame whose CRC
agrees has the frame complete and is in HUNT again; nothing else of the Link Port changes. R164, R165, R166: what a
character, a gap deadline, the line's level and a break do to the receiver. A character of BREAK and a break already
counted change nothing. That a gap deadline or a break before its time, and a line that goes to spacing a second
time, change nothing is the model's choice (assumption 32), and so is that a complete frame not yet taken is kept
through a break (assumption 22), and the reply of another request than DEVICE_RESET that a STOPPED dispatch holds
(assumption 23). -/
def Obligations.LineEventsMoveTheReceiver : Prop :=
  (∀ (k : Link) (bytes : List Byte) (gap : Nat),
    k.receiver = .hunt → frameBytesOk bytes = true → crcAgrees bytes = true →
    (startByte :: bytes).foldl (fun x b => x.character b true gap) k =
      { k with complete := k.complete ++ [bytes] }) ∧
  (∀ (l : LinkId) (s : State),
    let k := s.link l
    let crcError := s.withLink l { k with receiver := .hunt, crcErrors := min (k.crcErrors + 1) 65535 }
    (∀ byte stop, k.receiver = .hunt →
      exec (.characterReceived l byte stop) s = .next (if stop = true ∧ byte = 0xD5 then
        s.withLink l { k with receiver := .frame [] (s.clock.uptime + 2000) } else s)) ∧
    (∀ byte bytes gap, k.receiver = .frame bytes gap →
      exec (.characterReceived l byte false) s = .next crcError) ∧
    (∀ byte bytes gap, k.receiver = .frame bytes gap →
      let all := bytes ++ [byte]
      let len := (rd8 all 0).toNat
      exec (.characterReceived l byte true) s = .next (
        if len < 5 ∨ 245 < len then crcError
        else if all.length < len + 3 then
          s.withLink l { k with receiver := .frame all (s.clock.uptime + 2000) }
        else if crcAgrees all then s.withLink l { k with receiver := .hunt, complete := k.complete ++ [all] }
        else crcError)) ∧
    (∀ byte stop, k.receiver = .lineBreak → exec (.characterReceived l byte stop) s = .next s) ∧
    (∀ bytes gap, k.receiver = .frame bytes gap →
      exec (.gapDeadlineExpiry l) s = .next (if gap ≤ s.clock.uptime then
        s.withLink l { k with receiver := .hunt, gapErrors := min (k.gapErrors + 1) 65535 } else s)) ∧
    ((∀ bytes gap, k.receiver ≠ .frame bytes gap) → exec (.gapDeadlineExpiry l) s = .next s) ∧
    (k.spacingSince = none →
      exec (.lineGoesToSpacing l) s = .next (s.withLink l { k with spacingSince := some s.clock.uptime })) ∧
    (∀ t, k.spacingSince = some t → exec (.lineGoesToSpacing l) s = .next s) ∧
    exec (.lineReturnsToMarking l) s = .next (s.withLink l
      { k with spacingSince := none, receiver := if k.receiver = .lineBreak then .hunt else k.receiver }) ∧
    (∀ t, k.spacingSince = some t → t + 1000 ≤ s.clock.uptime → k.receiver ≠ .lineBreak →
      exec (.linkBreak l) s = .next (post (.linkBroken l) (s.withLink l
        { k with receiver := .lineBreak, breaks := min (k.breaks + 1) 65535, input := [], openCache := none
                 dispatch := match k.dispatch with
                   | .waiting _ => .ready
                   | d => d }))) ∧
    ((k.spacingSince = none ∨ k.receiver = .lineBreak ∨ ∃ t, k.spacingSince = some t ∧
        s.clock.uptime < t + 1000) → exec (.linkBreak l) s = .next s))

/-- R152, R167, R168: a valid frame refreshes the lease of its session; a request joins the input queue or is
answered BUSY, an ACK goes to the Report Unit, and a frame of any other class is refused UNKNOWN_KIND. With 8
replies queued neither BUSY nor UNKNOWN_KIND is sent; the BUSY is counted all the same. A frame whose CRC does not
agree is counted. (That a frame may be given whole to a receiver in HUNT is the model's choice, assumption 22.) -/
def Obligations.FramesAreTaken : Prop :=
  ∀ (l : LinkId) (bytes : List Byte) (s : State), frameBytesOk bytes = true →
    let k := s.link l
    let f := readFrame bytes
    (k.complete = [] → k.receiver = .hunt → crcAgrees bytes = false →
      exec (.frameReceived l bytes) s =
        .next (s.withLink l { k with receiver := .hunt, crcErrors := min (k.crcErrors + 1) 65535 })) ∧
    (∀ u, ((∃ rest, k.complete = bytes :: rest ∧ u = s.withLink l { k with complete := rest }) ∨
        (k.complete = [] ∧ k.receiver = .hunt ∧ crcAgrees bytes = true ∧ u = s)) →
      let v := refreshLease l f.session u
      let j := v.link l
      let answered (o : ReplyOutcome) (reason : Option Reason) : Reply :=
        { kind := f.kind, session := f.session, seq := f.seq, outcome := o, reason := reason, body := []
          resetReply := false }
      let sends (x : Reply) (w : State) : Prop :=
        (8 ≤ k.replies.length → exec (.frameReceived l bytes) s = .next w) ∧
        (∀ y, k.replies.length < 8 → k.transmission = some y → exec (.frameReceived l bytes) s =
          .next (w.withLink l { w.link l with replies := k.replies ++ [x] })) ∧
        (∀ q rest, k.replies.length < 8 → k.transmission = none → k.replies ++ [x] = q :: rest →
          exec (.frameReceived l bytes) s = .next (w.withLink l
            { w.link l with replies := rest, transmission := some ⟨.reply q, outBytes (.reply q)⟩ }))
      (∀ n r, sessionOf f.session = some n → s.session n = some r → r.link = l → r.ending = none →
        v = u.withSession n
          (some { r with deadline := some (min (s.clock.rig + r.lease * 1000) (2 ^ 48 - 1)) })) ∧
      ((∀ n r, sessionOf f.session = some n → s.session n = some r → r.link ≠ l ∨ r.ending ≠ none) →
        v = u) ∧
      (f.cls.toNat = 1 → k.input.length < 4 →
        exec (.frameReceived l bytes) s = .next (v.withLink l { j with input := j.input ++ [f] })) ∧
      (f.cls.toNat = 1 → 4 ≤ k.input.length →
        sends (answered .busy none) (v.withLink l { j with busyReplies := min (j.busyReplies + 1) 65535 })) ∧
      (∀ n r, f.cls.toNat = 4 → sessionOf f.session = some n → s.session n = some r → r.link = l →
        r.ending = none → f.body = [] →
        exec (.frameReceived l bytes) s = .next (post (.ack l n r.incarnation f.seq.toNat) v)) ∧
      ((f.cls.toNat = 4 ∧ ∀ n r, sessionOf f.session = some n → s.session n = some r →
          r.link ≠ l ∨ r.ending ≠ none ∨ f.body ≠ []) →
        exec (.frameReceived l bytes) s = .next v) ∧
      (f.cls.toNat ≠ 1 → f.cls.toNat ≠ 4 → sends (answered .refused (some .unknownKind)) v))

/-- R172, R169, R161: the end of a frame tells the Report Unit of a report's end and the Session Table of the
reply that performs a reset; the transmitter then takes the oldest reply, or else the oldest report, and a reply
that a WAITING or STOPPED dispatch holds moves into the room; WAITING becomes READY, STOPPED stays (assumption
23), also when the frame was a report (assumption 48). FRAME_SENT on an idle transmitter changes nothing (assumption
32). -/
def Obligations.FrameSentFreesTheTransmitter : Prop :=
  ∀ (l : LinkId) (s : State),
    let k := s.link l
    (k.transmission = none → exec (.frameSent l) s = .next s) ∧
    (∀ x, k.transmission = some x → ∃ t, exec (.frameSent l) s = .next t ∧
      (∀ f, x.frame = .report f → t.notices = s.notices ++ [.frameEnd l f.session f.uid] ∧
        t.sessions = s.sessions) ∧
      (∀ r, x.frame = .reply r → t.notices = s.notices ∧
        t.sessions = { s.sessions with resetDue := s.sessions.resetDue || r.resetReply }) ∧
      (k.dispatch = .ready ∨ k.dispatch = .stopped none →
        (∀ r rest, k.replies = r :: rest →
          t.link l = { k with replies := rest, transmission := some ⟨.reply r, outBytes (.reply r)⟩ }) ∧
        (∀ f rest, k.replies = [] → k.reports = f :: rest →
          t.link l = { k with reports := rest, transmission := some ⟨.report f, outBytes (.report f)⟩ }) ∧
        (k.replies = [] → k.reports = [] → t.link l = { k with transmission := none })) ∧
      (∀ y r rest d, (k.dispatch = .waiting y ∧ d = .ready) ∨ (k.dispatch = .stopped (some y) ∧ d = .stopped none) →
        k.replies = r :: rest → rest.length < 8 →
        t.link l = { k with
          replies := rest ++ [y], dispatch := d
          transmission := some ⟨.reply r, outBytes (.reply r)⟩ }))

/-! ### Time -/

/-- R60: TIME_GET of a session of either role is handed to the Time Base and answered DONE with the rig time,
and the answer changes nothing but the link it goes out on. -/
def Obligations.TimeGetAnswersRigTime : Prop :=
  (∀ (h : Header) (n : SessionIx) (s : State), AtBlock .notTold h .timeGet n s →
    exec (.timeGet h) s = .next (answer h .timeGet (doneWith (u48 s.clock.rig)) s) ∧
    OnlyChanges [linkPart h.link] s (answer h .timeGet (doneWith (u48 s.clock.rig)) s)) ∧
  (∀ (h : Header) (n : SessionIx) (s : State), boundSession h s = some n → s.isEnding n = false →
    (s.link h.link).cache.get n = none → dispatchRequest h .timeGet s = handOver h .timeGet s)

/-- R61, R9, R85, R105, R106, R153, R160: TIME_SET is refused TIME_IN_USE while a timed set or a cycle exists;
otherwise rig time becomes the given time, and every time-bearing field moves by the difference, held between 0
and 2^48 − 1 (assumption 33). A ramp or a latest halt entry that would end below 0 is removed, and a ramp that would
start there is rebased (R9). (What is on its way between blocks moves too: assumption 12; the halt entry time that
the Trigger Unit shows and the time at which a teardown began do not: assumption 49.) DEVICE_CONFIG sets the late
margin and answers the old and the new value. -/
def Obligations.TimeBaseTakesItsRequests : Prop :=
  (∀ (h : Header) (n : SessionIx) (margin : Half) (s : State), AtBlock .notTold h (.deviceConfig margin) n s →
    exec (.deviceConfig h margin) s = .next (answer h (.deviceConfig margin)
      (doneWith (u16 s.clock.lateMargin ++ u16 margin.toNat))
      (s.withClock { s.clock with lateMargin := margin.toNat }))) ∧
  (∀ (h : Header) (n : SessionIx) (time : Time) (s : State), AtBlock .notTold h (.timeSet time) n s →
    (((∃ x ∈ s.sets, x.due.timed = true) ∨ ∃ m c, s.cycle m = some c) →
      exec (.timeSet h time) s = .next (refuse h (.timeSet time) .timeInUse s)) ∧
    ((∀ x ∈ s.sets, x.due.timed = false) → (∀ m, s.cycle m = none) →
      exec (.timeSet h time) s = .next (answer h (.timeSet time)
        (doneWith (u48 s.clock.rig ++ u48 time.toNat)) (setTime time.toNat s)))) ∧
  (∀ (time : Nat) (s : State),
    let d : Int := time - s.clock.rig
    let t := setTime time s
    t.clock = { s.clock with rig := time } ∧
    t.sets = s.sets.map (fun x => if x.state = .due ∨ x.state = .applying then
      { x with dueTime := x.dueTime.map (shiftTime d) } else x) ∧
    t.schedule.ready = s.schedule.ready ∧
    (∀ n, t.session n = (s.session n).map fun r => if r.ending = none then
      { r with deadline := r.deadline.map (shiftTime d) } else r) ∧
    t.claims.waits = s.claims.waits.map (fun e => { e with deadline := shiftTime d e.deadline }) ∧
    (∀ x, s.claims.haltEntry = some x → t.claims.haltEntry =
      if (x : Int) + d < 0 then none else some (shiftTime d x)) ∧
    (s.claims.haltEntry = none → t.claims.haltEntry = none) ∧
    (∀ c, s.channel c = none → t.channel c = none) ∧
    (∀ c x, s.channel c = some x → x.ramp = none → t.channel c = some x) ∧
    (∀ c x r, s.channel c = some x → x.ramp = some r →
      ((r.endTime : Int) + d < 0 → t.channel c = some { x with ramp := none }) ∧
      (0 ≤ (r.endTime : Int) + d → (r.startTime : Int) + d < 0 → t.channel c = some { x with
        ramp := some { r with
          start := x.interpolated (Int.toNat (-d)), startTime := 0, endTime := shiftTime d r.endTime } }) ∧
      (0 ≤ (r.endTime : Int) + d → 0 ≤ (r.startTime : Int) + d → t.channel c = some { x with
        ramp := some { r with startTime := shiftTime d r.startTime, endTime := shiftTime d r.endTime } })) ∧
    t.engine.work = s.engine.work.map (fun w => { w with commitTime := w.commitTime.map (shiftTime d) }) ∧
    t.engine.captures = s.engine.captures.map (fun e => if e.reading = true then e else
      { e with captureTime := shiftTime d e.captureTime }) ∧
    (∀ l, t.trig l = { s.trig l with candidate := (s.trig l).candidate.map (shiftTime d) }) ∧
    t.trigger.sync = { s.trigger.sync with
      pulse := s.trigger.sync.pulse.map fun p => { p with pulseEnd := shiftTime d p.pulseEnd } } ∧
    t.trigger.halted = s.trigger.halted ∧
    t.notices = s.notices.map (shiftNotice d)) ∧
  (∀ (d : Int) (t : Nat), ((t : Int) + d < 0 → shiftTime d t = 0) ∧
    (0 ≤ (t : Int) + d → (shiftTime d t : Int) = min ((t : Int) + d) (2 ^ 48 - 1)))

/-- R18, R58, R100, R115, R130, R159, R173: the status requests are answered DONE with what they ask for, every
field read from the state as the request is taken, and change nothing but the link they stand on (LINK_STATUS
with its clear flag also sets the four counts of the link it names to 0). A request that names no channel range
of up to 4, no slot, no session, no member position or no link is refused BAD_FIELD. The order and size of the
fields are assumption 21's, what CYCLE_STATUS shows of a listed member whose set has left is assumption 15's,
that it sends the members as paged entries alone is assumption 21's too, and which sets a SUMMARY walks once the
seal number counter has wrapped is assumption 16's, and before that it walks those with the given seal number or
a higher one; where the fields named after a list stand is assumption 55's; the bytes of each kind of field are
in `OutgoingFramesHaveTheirBytes`. -/
def Obligations.StatusRequestsReadTheState : Prop :=
  ∀ (h : Header) (n : SessionIx) (s : State),
    let now := u48 s.clock.rig
    let halt : List Byte :=
      match s.trigger.halted with
      | none => List.replicate 11 0
      | some x => u8 1 ++ u8 1 ++ u8 (haltCauseCode x.cause) ++
          u8 (match x.cause with
            | .request m => m.val + 1
            | .line | .reset => 0) ++ u8 1 ++ u48 x.time
    let itemsOf (items : List Item) : List Byte :=
      u8 items.length ++ items.flatMap fun i => u8 i.channel.val ++ i16 i.target ++ u16 i.ramp
    let dueOf (d : Due) : List Byte :=
      match d with
      | .after p delay => u16 p ++ u32 delay ++ u32 0
      | .offset v => u16 0 ++ u32 0 ++ u32 v
      | .now | .atTime _ | .trigger _ => List.replicate 10 0
    (AtBlock .sessionTable h .deviceStatus n s →
      let session (m : SessionIx) : List Byte :=
        match s.session m with
        | none => List.replicate 22 0
        | some r =>
            u8 1 ++ wOpt 1 (fun e : Ending => u8 (endingCode e.cause)) r.ending ++ u8 (linkCode r.link) ++
            u8 (roleCode r.role) ++ wName r.name ++ u16 r.inUse ++ u16 r.quota ++ u16 r.lease ++
            u8 (s.lists m).outstanding.length ++ u8 (s.lists m).held.length
      let chans (f : Option Channel → Bool) := u8 (allChannels.filter fun c => f (s.channel c)).length
      let sets (x : SetState) := u8 (s.sets.filter fun y => y.state = x).length
      let b := s.bus
      exec (.deviceStatus h) s = .next (answer h .deviceStatus (doneWith (
        now ++ u16 s.clock.lateMargin ++ halt ++
        u32 (match s.linkA.rate with
          | .baud921600 => 921600
          | .baud460800 => 460800) ++
        session 0 ++ session 1 ++ session 2 ++ session 3 ++
        chans (fun c => c.isNone) ++ chans (fun c => c.any fun x => x.owned.isNone) ++
        chans (fun c => c.any fun x => x.owned.isSome) ++ u8 s.claims.waits.length ++
        u16 s.assembler.poolFree ++ sets .pending ++ sets .due ++ sets .applying ++ sets .parked ++
        u8 s.schedule.ready.length ++ u32 s.schedule.lastSeal ++
        u8 (engineCode s.engine.work) ++ wOpt 2 (fun w : Work => u16 w.setId) s.engine.work ++
        u8 s.engine.captures.length ++
        (allSlots.flatMap fun k => u8 (slotStateCode (s.slot k).state) ++ u8 (readingCode (s.slot k).reading)) ++
        wFlag b.current.isSome ++ u8 (match b.current with | some p => txnCode p.txn | none => 0) ++
        wOpt 1 (fun k : SlotIx => u8 k.val) (b.current.bind fun p => p.txn.slot) ++
        u8 (match b.current with | some p => p.attempt | none => 0) ++
        u8 b.safeQ.length ++ u8 b.applyQ.length ++ u8 b.identifyQ.length ++ u8 b.readbackQ.length ++
        wFlag b.commit.isSome ++
        allSlots.flatMap fun k => wFlag (b.live.get k) ++ u16 (b.retries.get k) ++ u16 (b.failures.get k))) s)) ∧
    (AtBlock .notTold h .triggerStatus n s →
      let line (l : TrigLine) : List Byte :=
        let r := s.trig l
        wFlag r.enabled ++ u8 (edgeCode r.edge) ++ u8 (debounceCode r.debounce) ++ u8 (levelCode r.qualified) ++
        wFlag r.candidate.isSome ++ u32 r.count ++ wOpt 6 u48 r.lastStamp ++
        u8 (s.sets.filter fun x => x.state = .pending && x.due = .trigger l).length
      let x := s.trigger.sync
      exec (.triggerStatus h) s = .next (answer h .triggerStatus (doneWith (
        line .trig0 ++ line .trig1 ++ u8 (polarityCode x.polarity) ++ u16 x.width ++
        wFlag x.pulse.isSome ++ wOpt 6 (fun p : Pulse => u48 p.pulseEnd) x.pulse ++ u32 x.count ++
        halt ++ u8 (monitorCode s.trigger.monitor) ++ now)) s)) ∧
    (∀ link clear l, AtBlock (.told .linkPort) h (.linkStatus link clear) n s → linkOf link = some l →
      let k := s.link l
      let bound := allSessions.filter fun m => (s.session m).any fun r => r.link = l
      let t := answer h (.linkStatus link clear) (doneWith (
        u32 (match k.rate with
          | .baud921600 => 921600
          | .baud460800 => 460800) ++ u8 (receiverCode k.receiver) ++
        u8 k.input.length ++ u8 k.replies.length ++ u8 k.reports.length ++
        u8 bound.length ++ bound.flatMap (fun m => u8 (m.val + 1)) ++ wFlag k.openCache.isSome ++
        u16 k.crcErrors ++ u16 k.gapErrors ++ u16 k.busyReplies ++ u16 k.breaks)) s
      exec (.linkStatus h link clear) s = .next (if clear = 1 then
        t.withLink l { t.link l with crcErrors := 0, gapErrors := 0, busyReplies := 0, breaks := 0 } else t)) ∧
    (∀ slot k, AtBlock .notTold h (.slotStatus slot) n s → slotOf slot = some k →
      let x := s.slot k
      exec (.slotStatus h slot) s = .next (answer h (.slotStatus slot) (doneWith (
        u8 (slotStateCode x.state) ++ u8 (readingCode x.reading) ++ u48 x.stateTime ++
        wOpt 1 (fun r => u8 (railCode r)) x.rail ++ wOpt 1 (fun f => u8 (faultCode f)) x.fault ++
        wFlag x.held ++
        (match x.descriptor with
          | none => List.replicate 11 0
          | some d => u8 1 ++ u8 (if d.valid then 0 else 1) ++ [d.railCode] ++ u16 d.model ++ u32 d.serial ++
              u8 d.count ++ u8 d.entries.length ++ d.entries.flatMap fun e =>
                [e.kind] ++ i16 e.lower ++ i16 e.upper ++ i16 e.safe ++ u16 e.tolerance ++ u16 e.settle) ++
        now)) s)) ∧
    (∀ first last a b, AtBlock (.told .claimUnit) h (.channelRead first last) n s →
      chanOf first = some a → chanOf last = some b → a ≤ b → b.val ≤ a.val + 3 →
      let entry (c : ChanIx) : List Byte :=
        match s.channel c with
        | none => u8 c.val ++ List.replicate 55 0
        | some x =>
            u8 c.val ++ (match x.owned with
              | none => [1, 0, 0, 0]
              | some o => u8 2 ++ u8 (o.owner.val + 1) ++ u8 1 ++ u8 (lossPolicyCode o.policy)) ++
            u8 (channelKindCode x.kind) ++ i16 x.descLower ++ i16 x.descUpper ++ i16 x.descSafe ++
            u16 x.tolerance ++ u16 x.settle ++ i16 x.lower ++ i16 x.upper ++ i16 x.safe ++ i16 x.commanded ++
            wOpt 16 (fun r : Ramp => i16 r.start ++ i16 r.target ++ u48 r.startTime ++ u48 r.endTime) x.ramp ++
            i16 (x.interpolated s.clock.rig) ++ wOpt 2 u16 x.appliedBy ++
            wOpt 8 (fun v : Int × Nat => i16 v.1 ++ u48 v.2) x.lastReadback ++ wFlag x.deviation
      let range := allChannels.filter fun c => a ≤ c && c ≤ b
      exec (.channelRead h first last) s = .next (answer h (.channelRead first last)
        (doneWith (u8 range.length ++ range.flatMap entry)) s)) ∧
    (∀ session position m, AtBlock (.told .cycleUnit) h (.cycleStatus session position) n s →
      sessionOf session = some m → position.toNat ≤ 15 →
      let entry (id : Nat) : List Byte :=
        match s.findSet id with
        | none => u16 id ++ List.replicate 12 0
        | some x => u16 id ++ u32 (match x.due with | .offset v => v | _ => 0) ++ u8 (setStateCode x.state) ++
            wOpt 6 u48 x.dueTime
      (s.cycle m = none → exec (.cycleStatus h session position) s =
        .next (answer h (.cycleStatus session position) (doneWith (
          u8 0 ++ u8 (m.val + 1) ++ List.replicate 33 0 ++ now)) s)) ∧
      (∀ c, s.cycle m = some c →
        let rest := c.members.drop position.toNat
        let stop : List Byte :=
          match c.phase with
          | .stopping k => u8 1 ++ u8 (stopKindCode k)
          | .building | .running => [0, 0]
        exec (.cycleStatus h session position) s = .next (answer h (.cycleStatus session position) (doneWith (
          u8 (cycleStateCode (some c)) ++ u8 (m.val + 1) ++ u8 1 ++ u48 c.firstStart ++ u8 1 ++ u32 c.period ++
          u8 1 ++ u32 c.repeats ++ u8 1 ++ u32 c.begun ++ wOpt 6 u48 c.current ++ stop ++
          u8 (rest.take 8).length ++ (rest.take 8).flatMap entry ++ wFlag (decide (8 < rest.length)) ++ now)) s))) ∧
    (∀ session first setId, AtBlock (.told .schedule) h (.setList 0 session first setId) n s →
      session.toNat ≤ 4 →
      let walk := s.sets.filter fun x =>
        rankedFrom first.toNat s x && (session = 0 || sessionOf session = some x.owner)
      let entry (x : SealedSet) : List Byte :=
        u16 x.id ++ u8 (x.owner.val + 1) ++ u8 (setStateCode x.state) ++ u8 (dueKindCode x.due) ++
        wOpt 6 u48 x.dueTime ++ u32 x.sealNo ++ u8 (latePolicyCode x.late) ++ wFlag x.capture ++
        wFlag x.sync ++ wFlag x.member ++ u8 x.items.length ++
        (match x.due with
          | .after p delay => u16 p ++ u32 delay
          | .offset v => u32 v ++ u16 0
          | .now | .atTime _ | .trigger _ => List.replicate 6 0)
      exec (.setList h 0 session first setId) s = .next (answer h (.setList 0 session first setId)
        (doneWith (u8 (walk.take 8).length ++ (walk.take 8).flatMap entry ++
          wFlag (decide (8 < walk.length)))) s)) ∧
    (∀ first x, (∀ y ∈ s.sets, y.sealNo ≤ s.schedule.lastSeal) → x ∈ s.sets →
      (rankedFrom first s x = true ↔ first ≤ x.sealNo)) ∧
    (∀ session first setId, AtBlock (.told .schedule) h (.setList 1 session first setId) n s →
      (∀ x, s.findSet setId.toNat = some x → exec (.setList h 1 session first setId) s =
        .next (answer h (.setList 1 session first setId) (doneWith (
          u16 x.id ++ u8 (x.owner.val + 1) ++ u8 (dueKindCode x.due) ++ wOpt 6 u48 x.dueTime ++
          dueOf x.due ++ u8 (latePolicyCode x.late) ++ wFlag x.capture ++ wFlag x.sync ++ u32 x.sealNo ++
          u48 x.sealTime ++ u8 (setStateCode x.state) ++ wFlag x.member ++ itemsOf x.items)) s)) ∧
      (s.findSet setId.toNat = none → exec (.setList h 1 session first setId) s =
        .next (refuse h (.setList 1 session first setId) .noSuchSet s))) ∧
    (∀ session first setId m, AtBlock (.told .schedule) h (.setList 2 session first setId) n s →
      sessionOf session = some m →
      (∀ o, s.openSet m = some o → exec (.setList h 2 session first setId) s =
        .next (answer h (.setList 2 session first setId) (doneWith (
          u8 (m.val + 1) ++ u8 (dueKindCode o.due) ++
          (match o.due with
            | .atTime t => u8 1 ++ u48 t
            | .now | .after _ _ | .trigger _ | .offset _ => List.replicate 7 0) ++
          dueOf o.due ++ u8 (latePolicyCode o.late) ++ wFlag o.capture ++ wFlag o.sync ++ itemsOf o.items ++
          (match o.spoiled with
            | none => [0, 0, 0]
            | some c => u8 1 ++ u8 1 ++ u8 c.val))) s)) ∧
      (s.openSet m = none → exec (.setList h 2 session first setId) s =
        .next (refuse h (.setList 2 session first setId) .noOpenSet s))) ∧
    ((∀ link clear, (s.link h.link).inHand = some (h, .linkStatus link clear) → boundSession h s = some n →
        endedAt (.told .linkPort) n s = false → linkOf link = none ∨ flagOf clear = none →
        exec (.linkStatus h link clear) s = .next (refuse h (.linkStatus link clear) .badField s)) ∧
      (∀ slot, AtBlock .notTold h (.slotStatus slot) n s → 4 ≤ slot.toNat →
        exec (.slotStatus h slot) s = .next (refuse h (.slotStatus slot) .badField s)) ∧
      (∀ first last, AtBlock (.told .claimUnit) h (.channelRead first last) n s →
        31 < first.toNat ∨ 31 < last.toNat ∨ last.toNat < first.toNat ∨ first.toNat + 3 < last.toNat →
        exec (.channelRead h first last) s = .next (refuse h (.channelRead first last) .badField s)) ∧
      (∀ session position, AtBlock (.told .cycleUnit) h (.cycleStatus session position) n s →
        session = 0 ∨ 4 < session.toNat ∨ 15 < position.toNat →
        exec (.cycleStatus h session position) s =
          .next (refuse h (.cycleStatus session position) .badField s)) ∧
      (∀ session first setId, AtBlock (.told .schedule) h (.setList 0 session first setId) n s →
        4 < session.toNat → exec (.setList h 0 session first setId) s =
          .next (refuse h (.setList 0 session first setId) .badField s)) ∧
      (∀ session first setId, AtBlock (.told .schedule) h (.setList 2 session first setId) n s →
        session = 0 ∨ 4 < session.toNat → exec (.setList h 2 session first setId) s =
          .next (refuse h (.setList 2 session first setId) .badField s)) ∧
      (∀ mode session first setId, (s.link h.link).inHand = some (h, .setList mode session first setId) →
        boundSession h s = some n → endedAt (.told .schedule) n s = false → 3 ≤ mode.toNat →
        exec (.setList h mode session first setId) s =
          .next (refuse h (.setList mode session first setId) .badField s)))

/-! ### Sessions -/

/-- R149: SESSION_OPEN is refused BAD_FIELD or TABLE_FULL, or opens the lowest-numbered CLOSED record with its
settings, absent ones at the defaults of the record table, and with nothing of an earlier session of the id. (The
record table gives the name no default: that an absent name becomes the empty name is the model's choice, assumption
53.) R151, R57:
SESSION_CONFIG is refused BAD_FIELD or IN_USE and then changes nothing, or puts every setting that is present
into effect, leaves the others and answers them all; a setting is present when its presence byte is 1, and the ranges
are those of the record table. (The replies' order and sizes are assumption 21's; the number of the opening is
the model's own, assumption 11.) -/
def Obligations.SessionsOpenAndAreConfigured : Prop :=
  (∀ (h : Header) (role : Byte) (raw : RawSettings) (s : State),
    (s.link h.link).inHand = some (h, .sessionOpen role raw) →
    let r : Request := .sessionOpen role raw
    let c := settingsOf raw
    ((roleOf role = none ∨ encodingOk r = false ∨ h.session ≠ 0 ∨ settingsInRange c = false) →
      exec (.sessionOpen h role raw) s = .next (refuse h r .badField s)) ∧
    (∀ k, roleOf role = some k → encodingOk r = true → h.session = 0 → settingsInRange c = true →
      ((∀ n, s.session n ≠ none) → exec (.sessionOpen h role raw) s = .next (refuse h r .tableFull s)) ∧
      (∀ n, s.session n = none → (∀ m, m < n → s.session m ≠ none) →
        let lease := c.lease.getD 5000
        let t := openSession h.link n k c s
        exec (.sessionOpen h role raw) s = .next (answerOpened h r
          (doneWith (u8 (n.val + 1) ++ u8 (roleCode k) ++ u16 lease ++ u16 (c.quota.getD 128) ++ u16 1 ++
            wFlag s.isHalted ++ u48 s.clock.rig)) (some n) t) ∧
        t.session n = some
          { ending := none, link := h.link, role := k, name := c.name.getD [], lease := lease
            deadline := some (min (s.clock.rig + lease * 1000) (2 ^ 48 - 1)), quota := c.quota.getD 128
            inUse := 0, lowMark := c.lowMark.getD 0, retry := c.retry.getD 200
            subs := ⟨c.slotChange.getD true, c.haltChange.getD true, c.sessionLost.getD true,
              c.deviation.getD true⟩
            openTime := s.clock.rig, incarnation := s.sessions.opened + 1 } ∧
        (∀ m, m ≠ n → t.session m = s.session m) ∧
        t.lists n = { nextSeq := 1, held := [], outstanding := [], dropped := 0, torn := false } ∧
        t.schedule.armed.get n = false ∧ t.cycle n = none ∧ (t.link h.link).cache.get n = none))) ∧
  (∀ (h : Header) (raw : RawSettings) (n : SessionIx) (k : Session) (s : State),
    AtBlock .sessionTable h (.sessionConfig raw) n s → s.session n = some k →
    let r : Request := .sessionConfig raw
    let c := settingsOf raw
    (settingsInRange c = false → exec (.sessionConfig h raw) s = .next (refuse h r .badField s)) ∧
    (∀ q, settingsInRange c = true → c.quota = some q → q < k.inUse →
      exec (.sessionConfig h raw) s = .next (refuse h r .inUse s)) ∧
    (settingsInRange c = true → (∀ q, c.quota = some q → k.inUse ≤ q) →
      let k' : Session := { k with
        name := c.name.getD k.name, lease := c.lease.getD k.lease, quota := c.quota.getD k.quota
        lowMark := c.lowMark.getD k.lowMark, retry := c.retry.getD k.retry
        deadline := if c.lease.isSome then
          some (min (s.clock.rig + c.lease.getD 0 * 1000) (2 ^ 48 - 1)) else k.deadline
        subs := ⟨c.slotChange.getD k.subs.slotChange, c.haltChange.getD k.subs.haltChange,
          c.sessionLost.getD k.subs.sessionLost, c.deviation.getD k.subs.deviation⟩ }
      let t := s.withSession n (some k')
      let reply := doneWith (wName k'.name ++ u16 k'.lease ++ u16 k'.quota ++ u8 k'.lowMark ++ u16 k'.retry ++
        wFlag k'.subs.slotChange ++ wFlag k'.subs.haltChange ++ wFlag k'.subs.sessionLost ++
        wFlag k'.subs.deviation ++ u16 k'.inUse ++ u8 (roleCode k'.role) ++ u8 (linkCode k'.link) ++
        u48 (k'.deadline.getD 0))
      let count := (s.sets.filter fun x => x.owner = n && !x.member &&
        (x.state = .pending || x.state = .due)).length
      (c.lowMark = none → exec (.sessionConfig h raw) s = .next (answer h r reply t)) ∧
      (∀ m, c.lowMark = some m → exec (.sessionConfig h raw) s = .next (answer h r reply
        (t.withSchedule { t.schedule with
          armed := t.schedule.armed.put n (decide (0 < m) && decide (m ≤ count)) }))))) ∧
  (∀ (raw : RawSettings),
    let c := settingsOf raw
    let given {α β : Type} (o : Opt α) (f : α → β) : Option β := if o.presence = 1 then some (f o.value) else none
    let set (b : Byte) : Bool := b = 1
    c.name = given raw.name (fun x => x.chars.toList.take x.len.toNat) ∧
    c.lease = given raw.lease BitVec.toNat ∧ c.quota = given raw.quota BitVec.toNat ∧
    c.lowMark = given raw.lowMark BitVec.toNat ∧ c.retry = given raw.retry BitVec.toNat ∧
    c.slotChange = given raw.slotChange set ∧ c.haltChange = given raw.haltChange set ∧
    c.sessionLost = given raw.sessionLost set ∧ c.deviation = given raw.deviation set) ∧
  (∀ c : Settings, settingsInRange c = true ↔
    (∀ v, c.lease = some v → 100 ≤ v ∧ v ≤ 60000) ∧ (∀ v, c.quota = some v → v ≤ 512) ∧
    (∀ v, c.lowMark = some v → v ≤ 64) ∧ (∀ v, c.retry = some v → 20 ≤ v ∧ v ≤ 2000))

/-- R152, R154, R155, R158: each of the four causes begins the teardown of a session that is OPEN and not
ending: the cause and the time are recorded, the lease deadline is dropped and the seven blocks are told.
An ending session and a CLOSED record are left as they are. (A lease expiry before its time: assumption 32; a
notice about an earlier opening of the id: assumption 11; the sessions a break ends: assumption 31, and their order:
assumption 46.) R156, R157: an
answer of a teardown is noted, and the third hands the session's end to the Claim Unit; the record is then closed,
with a SESSION_LOST report unless the session closed itself. (When the last answer and the closing may be taken is
the model's choice, assumption 10.) -/
def Obligations.TeardownsBeginAndFinish : Prop :=
  ((∀ (c : EndingCause) (n : SessionIx) (s : State),
    (s.session n = none → beginTeardown c n s = s) ∧
    (∀ k e, s.session n = some k → k.ending = some e → beginTeardown c n s = s) ∧
    (∀ k, s.session n = some k → k.ending = none →
      beginTeardown c n s =
        (s.withSession n (some { k with
          ending := some ⟨c, s.clock.rig, false, false, false⟩, deadline := none })).withNotices
        (s.notices ++ [.sessionEnd .reportUnit n, .sessionEnd .linkPort n, .sessionEnd .setAssembler n,
          .sessionEnd .schedule n, .sessionEnd .cycleUnit n, .sessionEnd .applyEngine n,
          .sessionEnd .claimUnit n]))) ∧
  (∀ (h : Header) (n : SessionIx) (s : State), AtBlock .sessionTable h .sessionClose n s →
    exec (.sessionClose h) s =
      .next (answer h .sessionClose (doneWith (u8 (n.val + 1))) (beginTeardown .close n s))) ∧
  (∀ (n : SessionIx) (k : Session) (t : Nat) (s : State), s.session n = some k → k.deadline = some t →
    exec (.leaseExpiry n) s = .next (if t ≤ s.clock.rig then beginTeardown .lease n s else s)) ∧
  (∀ (n : SessionIx) (k : Session) (i : Nat) (s : State),
    headNotice (.retriesExhausted n) s = some (.retriesExhausted n i) → s.session n = some k →
    exec (.reportRetriesExhausted n) s = .next (if k.incarnation = i then
      beginTeardown .reportTimeout n (dropNotice (.retriesExhausted n) s)
      else dropNotice (.retriesExhausted n) s)) ∧
  (∀ (l : LinkId) (s : State), headNotice (.linkBroken l) s = some (.linkBroken l) →
    ∃ t, exec (.linkBreakNotice l) s = .next t ∧ OnlyChanges [.sessions, .notices] s t ∧
      (∀ n, t.session n = (s.session n).map fun k => if k.link = l ∧ k.ending = none then
        { k with ending := some ⟨.linkBreak, s.clock.rig, false, false, false⟩, deadline := none } else k) ∧
      t.notices = (dropNotice (.linkBroken l) s).notices ++
        (allSessions.filter fun n => (s.session n).any fun k => k.link = l && k.ending.isNone).flatMap fun n =>
          [.sessionEnd .reportUnit n, .sessionEnd .linkPort n, .sessionEnd .setAssembler n,
            .sessionEnd .schedule n, .sessionEnd .cycleUnit n, .sessionEnd .applyEngine n,
            .sessionEnd .claimUnit n])) ∧
  ((∀ (n : SessionIx) (b : AnswerBlock) (k : Session) (e : Ending) (s : State),
    headNotice (.teardownAnswer b n) s = some (.teardownAnswer b n) → s.session n = some k →
    k.ending = some e →
    let e' : Ending := { e with
      assembler := e.assembler || b = .setAssembler, schedule := e.schedule || b = .schedule
      engine := e.engine || b = .applyEngine }
    let last := e'.assembler && e'.schedule && e'.engine
    let t := (dropNotice (.teardownAnswer b n) s).withSession n (some { k with ending := some e' })
    (last = false → exec (.teardownAnswer n b) s = .next t) ∧
    (last = true → (∀ x ∈ s.sets, x.owner = n → x.state ≠ .applying) →
      exec (.teardownAnswer n b) s = .next (post (.claimSessionEnd n) t)) ∧
    (last = true → (∃ x ∈ s.sets, x.owner = n ∧ x.state = .applying) →
      exec (.teardownAnswer n b) s = .next s)) ∧
  (∀ (n : SessionIx) (k : Session) (e : Ending) (s : State),
    headNotice (.recordClose n) s = some (.recordClose n) → s.session n = some k → k.ending = some e →
    let t := (dropNotice (.recordClose n) s).withSession n none
    ((∃ b, .sessionEnd b n ∈ s.notices) ∨ (∃ c, .itemsReturn n c ∈ s.notices) ∨ 0 < k.inUse ∨
        (∃ c, s.owns n c = true) ∨ (∃ w ∈ s.claims.waits, w.session = n) →
      exec (.sessionRecordClose n) s = .next s) ∧
    ((∀ b, .sessionEnd b n ∉ s.notices) → (∀ c, .itemsReturn n c ∉ s.notices) → k.inUse = 0 →
      (∀ c, s.owns n c = false) → (∀ w ∈ s.claims.waits, w.session ≠ n) →
      exec (.sessionRecordClose n) s = .next (if e.cause = .close then t else
        post (.report .sessionTable none (.sessionLost
          { session := n, cause := e.cause, link := k.link, role := k.role, name := k.name
            eventTime := e.time })) t))))

/-- R19, R38, R56, R70, R74, R75, R85, R98, R155, R156, R171, R182: what each block does with the notice of a
session's end, and the Apply Engine's part of it by the state it is in. The channels driven safe are those the session
owns with loss policy SAFE (R19). -/
def Obligations.BlocksDropAnEndedSession : Prop :=
  (∀ (n : SessionIx) (s : State),
    (headNotice (.sessionEnd .linkPort n) s = some (.sessionEnd .linkPort n) →
      ∀ k, s.session n = some k →
        let u := dropNotice (.sessionEnd .linkPort n) s
        let j := u.link k.link
        exec (.sessionEndLinkPort n) s = .next (u.withLink k.link { j with
          cache := j.cache.put n none
          openCache := if j.openCache.any (fun e => e.session = some n) then none else j.openCache })) ∧
    (headNotice (.sessionEnd .setAssembler n) s = some (.sessionEnd .setAssembler n) →
      ∀ k o, s.session n = some k → s.openSet n = some o →
        ∃ t, exec (.sessionEndSetAssembler n) s = .next t ∧ t.openSet n = none ∧
          (∀ m, m ≠ n → t.openSet m = s.openSet m) ∧
          t.assembler.poolFree = s.assembler.poolFree + o.items.length ∧
          t.session n = some { k with inUse := k.inUse - o.items.length } ∧
          t.notices = (dropNotice (.sessionEnd .setAssembler n) s).notices ++
            [.teardownAnswer .setAssembler n]) ∧
    (headNotice (.sessionEnd .setAssembler n) s = some (.sessionEnd .setAssembler n) → s.openSet n = none →
      exec (.sessionEndSetAssembler n) s = .next (post (.teardownAnswer .setAssembler n)
        (dropNotice (.sessionEnd .setAssembler n) s))) ∧
    (headNotice (.sessionEnd .schedule n) s = some (.sessionEnd .schedule n) → (s.sets.map (·.id)).Nodup →
      ∃ t, exec (.sessionEndSchedule n) s = .next t ∧ OnlyChanges [.schedule, .cycles, .notices] s t ∧
        (∀ m, m ≠ n → t.cycle m = s.cycle m) ∧
        t.sets = s.sets.filter (fun x => !(x.owner = n && x.waiting)) ∧
        t.schedule = { s.schedule with
          sets := t.sets
          ready := ((s.sets.filter fun x => x.owner = n && x.waiting).map (·.id)).foldl List.erase s.schedule.ready
          armed := s.schedule.armed.put n false } ∧
        (s.schedule.ready.Nodup → ∀ id, id ∈ t.schedule.ready ↔
          id ∈ s.schedule.ready ∧ ∀ x ∈ s.sets, x.id = id → x.owner ≠ n ∨ x.state = .applying) ∧
        t.notices = (dropNotice (.sessionEnd .schedule n) s).notices ++
          (s.sets.filter fun x => x.owner = n && x.waiting).map
            (fun x => .itemsReturn n x.items.length) ++ [.teardownAnswer .schedule n]) ∧
    (headNotice (.sessionEnd .cycleUnit n) s = some (.sessionEnd .cycleUnit n) →
      exec (.sessionEndCycleUnit n) s =
        .next ((dropNotice (.sessionEnd .cycleUnit n) s).withCycle n none)) ∧
    (headNotice (.sessionEnd .applyEngine n) s = some (.sessionEnd .applyEngine n) →
      exec (.sessionEndApplyEngine n) s =
        .next (endSessionEngine n (dropCaptures n (dropNotice (.sessionEnd .applyEngine n) s)))) ∧
    (headNotice (.sessionEnd .claimUnit n) s = some (.sessionEnd .claimUnit n) →
      exec (.sessionEndWaitEntries n) s = .next ((dropNotice (.sessionEnd .claimUnit n) s).withWaits
        (s.claims.waits.filter fun e => e.session ≠ n))) ∧
    (headNotice (.claimSessionEnd n) s = some (.claimSessionEnd n) →
      let u := (dropNotice (.claimSessionEnd n) s).withWaits (s.claims.waits.filter fun e => e.session ≠ n)
      exec (.sessionEndClaimUnit n) s = .next (post (.recordClose n) (grantPass
        (freeChannels (fun c => u.owns n c) (fun c => ownsSafe n u c) u)))) ∧
    (headNotice (.sessionEnd .reportUnit n) s = some (.sessionEnd .reportUnit n) →
      ∃ t, exec (.teardownNotice n) s = .next t ∧
        t.lists n = { s.lists n with held := [], outstanding := [], dropped := 0, torn := true } ∧
        (∀ m, m ≠ n → t.lists m = s.lists m) ∧
        ∀ k, s.session n = some k →
          (t.link k.link).reports = (s.link k.link).reports.filter (fun f => f.session ≠ n) ∧
          (t.link k.link).transmission = (s.link k.link).transmission)) ∧
  (∀ (n : SessionIx) (s : State),
    (let gone := s.engine.captures.filter fun e => e.owner = n
     let t := s.withEngine { s.engine with captures := s.engine.captures.filter fun e => e.owner ≠ n }
     dropCaptures n s =
       if gone = [] then t else post (.withdraw (.readbacks (gone.map (·.entry)))) t) ∧
    ((∀ w, s.engine.work = some w → w.owner ≠ n) →
      endSessionEngine n s = post (.teardownAnswer .applyEngine n) s) ∧
    (∀ w, s.engine.work = some w → w.owner = n →
      let idle := s.withEngine { s.engine with work := none }
      (w.phase = .staging → endSessionEngine n s = postAll
        ([.withdraw (.stages w.take)] ++ (if w.abandon then [] else [.busRequest .applyEngine .abandon]) ++
          [.outcome w.take w.setId .removed, .teardownAnswer .applyEngine n]) idle) ∧
      (w.phase = .committing → endSessionEngine n s = post (.withdraw (.commit w.take))
        (s.withEngine { s.engine with
          work := some { w with phase := .withdrawing, cause := some .sessionEnd, ended := true } })) ∧
      (w.phase = .withdrawing ∨ w.phase = .recording → endSessionEngine n s =
        s.withEngine { s.engine with work := some { w with ended := true } }))) ∧
  (∀ (n : SessionIx) (c : ChanIx) (s : State),
    (s.owns n c = true ↔ ∃ x p, s.channel c = some x ∧ x.owned = some ⟨n, p⟩) ∧
    (ownsSafe n s c = true ↔ ∃ x, s.channel c = some x ∧ x.owned = some ⟨n, .safe⟩))

/-! ### Channels and claims -/

/-- R10, R11: CLAIM is answered by the first case of its table. A grant gives every channel of the range to
the session with the requested policy and leaves the rest of each record; WAITING appends one entry; a
refusal changes nothing. R12: the grant pass goes through the Claim Wait List from the oldest entry to the
newest; an entry whose range is FREE or its session's own when it is reached is granted and leaves the list with
CLAIM_RESULT GRANTED, any other stays. (That the pass also serves an entry of a session that is ending, until the Claim
Unit has taken its own notice of the end and removed the entry, is the model's reading: assumption 10.) -/
def Obligations.ClaimsAreGrantedOrWait : Prop :=
  (∀ (h : Header) (first last policy : Byte) (wait : Half) (n : SessionIx) (s : State),
    AtBlock (.told .claimUnit) h (.claim first last policy wait) n s →
    let r : Request := .claim first last policy wait
    ((31 < first.toNat ∨ 31 < last.toNat ∨ last.toNat < first.toNat ∨ 60000 < wait.toNat) →
      exec (.claim h first last policy wait) s = .next (refuse h r .badField s)) ∧
    (∀ a b p, chanOf first = some a → chanOf last = some b → a ≤ b → lossPolicyOf policy = some p →
      wait.toNat ≤ 60000 →
      ((∃ c, a ≤ c ∧ c ≤ b ∧ s.channel c = none) →
        exec (.claim h first last policy wait) s = .next (refuse h r .absent s)) ∧
      ((∀ c, a ≤ c → c ≤ b → ∃ x, s.channel c = some x ∧ (x.owner = none ∨ x.owner = some n)) →
        let t := grantRange n a b p s
        let u := answer h r (doneWith (u8 0)) t
        exec (.claim h first last policy wait) s =
          .next (if s.claims.waits.any (fun e => e.session = n) then grantPass u else u) ∧
        (∀ c, t.channel c = (s.channel c).map fun x =>
          if a ≤ c ∧ c ≤ b then { x with owned := some ⟨n, p⟩ } else x) ∧
        OnlyChanges [.claims] s t ∧ t.claims.waits = s.claims.waits) ∧
      ((∀ c, a ≤ c → c ≤ b → s.channel c ≠ none) →
        (∃ c x m, a ≤ c ∧ c ≤ b ∧ s.channel c = some x ∧ x.owner = some m ∧ m ≠ n) →
        (wait = 0 → exec (.claim h first last policy wait) s = .next (refuse h r .held s)) ∧
        (wait ≠ 0 → 8 ≤ s.claims.waits.length ∨
            2 ≤ (s.claims.waits.filter fun e => e.session = n).length →
          exec (.claim h first last policy wait) s = .next (refuse h r .waitListFull s)) ∧
        (wait ≠ 0 → s.claims.waits.length < 8 →
            (s.claims.waits.filter fun e => e.session = n).length < 2 →
          exec (.claim h first last policy wait) s = .next (answer h r (doneWith (u8 1))
            (s.withWaits (s.claims.waits ++
              [{ session := n, first := a, last := b, policy := p
                 deadline := min (s.clock.rig + wait.toNat * 1000) (2 ^ 48 - 1)
                 seq := h.seq.toNat }]))))))) ∧
  ((∀ s : State, grantPass s = s.claims.waits.foldl grantEntry s) ∧
  (∀ (e : WaitEntry) (s : State),
    ((∀ c, e.first ≤ c → c ≤ e.last → ∃ x, s.channel c = some x ∧
        (x.owner = none ∨ x.owner = some e.session)) →
      let t := grantRange e.session e.first e.last e.policy (s.withWaits (s.claims.waits.erase e))
      (∀ k, s.session e.session = some k →
        grantEntry s e = post (.report .claimUnit (some (e.session, k.incarnation)) (.claimResult
          { outcome := .granted, first := e.first, last := e.last, seq := e.seq, lost := none })) t) ∧
      (s.session e.session = none → grantEntry s e = t)) ∧
    ((∃ c, e.first ≤ c ∧ c ≤ e.last ∧ ∀ x, s.channel c = some x →
        x.owner ≠ none ∧ x.owner ≠ some e.session) → grantEntry s e = s)))

/-- R4, R8, R15, R16, R19: RELEASE is refused BAD_FIELD or IN_USE, or frees the channels of the range that the
session owns, after cancelling the sets that write them. A channel freed to safe is driven to its working safe
value, any freed channel reverts to its descriptor's values, and each slot with a driven channel gets exactly one
DRIVE_SAFE, which names each of them once; nothing else is handed over. (That none is handed over for a slot whose
live mark is clear, where R8 has one queued and R135 answers it "slot lost" at once and does not queue it, is the
model's choice: assumption 56; the order of the slots and of the indices, left open here, is assumption 46's.) -/
def Obligations.ReleaseFreesChannels : Prop :=
  (∀ (h : Header) (first last toSafe force : Byte) (n : SessionIx) (s : State),
    AtBlock (.told .claimUnit) h (.release first last toSafe force) n s →
    let r : Request := .release first last toSafe force
    ((31 < first.toNat ∨ 31 < last.toNat ∨ last.toNat < first.toNat) →
      exec (.release h first last toSafe force) s = .next (refuse h r .badField s)) ∧
    (∀ a b, chanOf first = some a → chanOf last = some b → a ≤ b →
      let cs := allChannels.filter fun c => decide (a ≤ c) && decide (c ≤ b) && s.owns n c
      let writers := s.sets.filter fun x => x.owner = n && x.writesAny cs
      (((∃ x ∈ writers, x.state = .applying) ∨ (writers ≠ [] ∧ force ≠ 1)) →
        exec (.release h first last toSafe force) s = .next (refuse h r .inUse s)) ∧
      ((∀ x ∈ writers, x.state ≠ .applying) → (writers = [] ∨ force = 1) →
        let lost := cs.map fun c => (⟨c, n⟩ : LostChannel)
        let t := answer h r (doneWith (u8 cs.length))
          (freeChannels cs.contains (fun c => decide (toSafe = 1) && cs.contains c)
            (cancelLostAll .channelReleased lost s))
        (cs = [] → exec (.release h first last toSafe force) s = .next t) ∧
        (cs ≠ [] → exec (.release h first last toSafe force) s =
          .next (grantPass (post (.lostToAssembler lost) t)))))) ∧
  (∀ (freed driven : ChanIx → Bool) (s : State),
    let t := freeChannels freed driven s
    (∀ c x, s.channel c = some x → freed c = false → t.channel c = some x) ∧
    (∀ c x, s.channel c = some x → freed c = true → driven c = false →
      t.channel c = some { x with
        owned := none, lower := x.descLower, upper := x.descUpper, safe := x.descSafe }) ∧
    (∀ c x, s.channel c = some x → freed c = true → driven c = true →
      t.channel c = some { x with
        owned := none, lower := x.descLower, upper := x.descUpper, safe := x.descSafe
        commanded := x.safe, ramp := none, appliedBy := none, deviation := false }) ∧
    (∀ c, s.channel c = none → t.channel c = none) ∧ t.claims.waits = s.claims.waits ∧
    ∃ drives : List (SlotIx × List (Nat × Int)),
      t.notices = s.notices ++ drives.map (fun d => .busRequest .claimUnit (.driveSafe d.1 d.2)) ∧
      (drives.map (·.1)).Nodup ∧
      (∀ k, k ∈ drives.map (·.1) ↔ s.bus.live.get k = true ∧
        ∃ c y, s.channel c = some y ∧ driven c = true ∧ slotOfChan c = k) ∧
      ∀ d ∈ drives, (d.2.map (·.1)).Nodup ∧ ∀ i v, (i, v) ∈ d.2 ↔
        ∃ c y, s.channel c = some y ∧ driven c = true ∧ slotOfChan c = d.1 ∧ i = indexOfChan c ∧ v = y.safe)

/-- R17: CHANNEL_CONFIG is refused by the first check that fails, or changes the channel's working limits and
safe value and spoils an open set that writes it. -/
def Obligations.ChannelConfigFollowsItsTable : Prop :=
  ∀ (h : Header) (channel : Byte) (lower upper safe : Half) (n : SessionIx) (s : State),
    AtBlock (.told .claimUnit) h (.channelConfig channel lower upper safe) n s →
    let r : Request := .channelConfig channel lower upper safe
    let i : Instr := .channelConfig h channel lower upper safe
    (31 < channel.toNat → exec i s = .next (refuse h r .badField s)) ∧
    (∀ c, chanOf channel = some c →
      (s.channel c = none → exec i s = .next (refuse h r .absent s)) ∧
      (∀ x, s.channel c = some x →
        let ordered := x.descLower ≤ signed lower ∧ signed lower ≤ signed safe ∧
          signed safe ≤ signed upper ∧ signed upper ≤ x.descUpper
        let inside := signed lower ≤ x.commanded ∧ x.commanded ≤ signed upper
        let written := ∃ y ∈ s.sets, y.owner = n ∧ y.writes c = true
        (x.owner ≠ some n → exec i s = .next (refuse h r .notOwned s)) ∧
        (x.owner = some n → (¬ ordered ∨ ¬ inside) → exec i s = .next (refuse h r .outOfLimits s)) ∧
        (x.owner = some n → ordered → inside → written → exec i s = .next (refuse h r .inUse s)) ∧
        (x.owner = some n → ordered → inside → ¬ written →
          exec i s = .next (answer h r (doneWith []) (spoil n [c] (s.withChannels (s.claims.channels.put c
            (some { x with lower := signed lower, upper := signed upper, safe := signed safe }))))))))

/-- R2, R3: a slot that becomes READY gives its channels fresh records and runs the grant pass; one that
leaves READY makes its channels ABSENT, drops each wait entry whose range holds one of them, with a CLAIM_RESULT
ABSENT that names the lowest of them, and tells the Set Assembler and the Schedule exactly the lost channels that had
an owner. (The order of these reports: assumption 46.) -/
def Obligations.ChannelsComeAndGoWithTheirSlot : Prop :=
  (∀ (k : SlotIx) (d : Descriptor) (held : Option HeldValues) (s : State),
    headNotice (.slotToClaim k) s = some (.slotReady k d held) →
    ∃ t, exec (.slotReady k) s = .next (grantPass t) ∧
      t.notices = (dropNotice (.slotToClaim k) s).notices ∧ t.claims.waits = s.claims.waits ∧
      (∀ c, slotOfChan c ≠ k → t.channel c = s.channel c) ∧
      (∀ c, slotOfChan c = k → d.entries.length ≤ indexOfChan c → t.channel c = none) ∧
      (∀ c e kind, slotOfChan c = k → d.entries[indexOfChan c]? = some e →
        channelKindOf e.kind = some kind →
        let x : Channel :=
          { owned := none, kind := kind, descLower := e.lower, descUpper := e.upper, descSafe := e.safe
            tolerance := e.tolerance, settle := e.settle, lower := e.lower, upper := e.upper
            safe := e.safe, commanded := e.safe, ramp := none, appliedBy := none, lastReadback := none
            deviation := false }
        (held = none → t.channel c = some x) ∧
        (∀ v, held = some v → t.channel c = some { x with
          commanded := max e.lower (min e.upper (v.values.getD (indexOfChan c) 0))
          lastReadback := some (v.values.getD (indexOfChan c) 0, v.time) }))) ∧
  (∀ (k : SlotIx) (s : State), headNotice (.slotToClaim k) s = some (.slotLeftReady k) →
    ∃ t, exec (.slotLeftReady k) s = .next t ∧
      (∀ c, slotOfChan c = k → t.channel c = none) ∧
      (∀ c, slotOfChan c ≠ k → t.channel c = s.channel c) ∧
      let gone (c : ChanIx) : Bool := slotOfChan c = k && (s.channel c).isSome
      let named (e : WaitEntry) : Option ChanIx := allChannels.find? fun c => gone c && e.first ≤ c && c ≤ e.last
      let lost : List LostChannel := allChannels.filterMap fun c =>
        if slotOfChan c = k then (s.channel c).bind fun x => x.owner.map fun n => ⟨c, n⟩ else none
      (∀ e c, named e = some c → gone c = true ∧ e.first ≤ c ∧ c ≤ e.last ∧
        ∀ d, d < c → e.first ≤ d → gone d = false) ∧
      (∀ c n, ⟨c, n⟩ ∈ lost ↔ slotOfChan c = k ∧ ∃ x, s.channel c = some x ∧ x.owner = some n) ∧
      t.claims.waits = s.claims.waits.filter (fun e => (named e).isNone) ∧
      t.notices = (dropNotice (.slotToClaim k) s).notices ++
        (s.claims.waits.filterMap fun e =>
          match named e, s.session e.session with
          | some c, some r => some (.report .claimUnit (some (e.session, r.incarnation)) (.claimResult
              { outcome := .absent, first := e.first, last := e.last, seq := e.seq, lost := some c }))
          | _, _ => none) ++
        (if lost = [] then [] else [.lostToAssembler lost, .lostToSchedule lost]))

/-- R5, R6, R76, R77: the commit records of a set are taken in order. A record of an ABSENT channel is
dropped, a safe-overtaken one leaves its channel as halt entry does, and any other makes the target the
commanded value, with a ramp from the interpolated value when it has a ramp time. -/
def Obligations.CommitRecordsReachTheChannels : Prop :=
  (∀ (rs : List CommitRecord) (queued : Bool) (s : State),
    headNotice .commitRecords s = some (.commitRecords rs queued) →
    exec .commitRecords s =
      .next (post .recordsTaken (rs.foldl (takeRecord queued) (dropNotice .commitRecords s)))) ∧
  (∀ (queued : Bool) (s : State) (r : CommitRecord),
    let overtaken := queued = true ∨ ∃ t, s.claims.haltEntry = some t ∧ r.commitTime ≤ t
    (s.channel r.channel = none → takeRecord queued s r = s) ∧
    (∀ x, s.channel r.channel = some x →
      let keep (y : Channel) := s.withChannels (s.claims.channels.put r.channel (some y))
      (overtaken → takeRecord queued s r =
        keep { x with commanded := x.safe, ramp := none, appliedBy := none, deviation := false }) ∧
      (¬ overtaken → r.ramp = 0 → takeRecord queued s r =
        keep { x with commanded := r.target, ramp := none, appliedBy := some r.setId, deviation := false }) ∧
      (¬ overtaken → 0 < r.ramp → takeRecord queued s r =
        keep { x with
          commanded := r.target, appliedBy := some r.setId, deviation := false
          ramp := some { start := x.interpolated r.commitTime, target := r.target, startTime := r.commitTime
                         endTime := min (r.commitTime + r.ramp * 1000) (2 ^ 48 - 1) } }))) ∧
  (∀ (x : Channel) (t : Nat),
    (x.ramp = none → x.interpolated t = x.commanded) ∧
    (∀ r, x.ramp = some r → (r.endTime ≤ t → x.interpolated t = r.target) ∧
      (t < r.endTime → x.interpolated t = r.start +
        ((r.target - r.start) * ((t : Int) - r.startTime)).tdiv ((r.endTime : Int) - r.startTime))))

/-- R6, R13, R20, R76, R138: the Claim Unit's expiries, its halt entry, and the values of a SAFE_ALL. That an
expiry whose time has not been reached changes nothing is the model's choice (assumption 32), and so is that halt entry
taken after RESUME acts as one before it (assumption 47). R144: the modules that receive the SAFE_ALL, a free value
(assumption 17), drive every output safe. -/
def Obligations.ClaimUnitExpiriesHaltAndSafeValues : Prop :=
  (∀ (c : ChanIx) (x : Channel) (r : Ramp) (s : State), s.channel c = some x → x.ramp = some r →
    exec (.rampExpiry c) s = .next (if r.endTime ≤ s.clock.rig then
      s.withChannels (s.claims.channels.put c (some { x with ramp := none })) else s)) ∧
  (∀ (i : Nat) (e : WaitEntry) (k : Session) (s : State), s.claims.waits[i]? = some e →
    s.session e.session = some k →
    exec (.claimWaitDeadline i) s = .next (if e.deadline ≤ s.clock.rig then
      post (.report .claimUnit (some (e.session, k.incarnation)) (.claimResult
        { outcome := .timeout, first := e.first, last := e.last, seq := e.seq, lost := none }))
        (s.withWaits (s.claims.waits.eraseIdx i)) else s)) ∧
  (∀ (time : Option Nat) (s : State),
    headNotice (.halt .claimUnit) s = some (.haltEntry .claimUnit time) →
    ∃ t, exec .haltEntryClaimUnit s = .next t ∧ t.claims.haltEntry = time ∧
      t.claims.waits = s.claims.waits ∧ t.notices = (dropNotice (.halt .claimUnit) s).notices ∧
      ∀ c, t.channel c = (s.channel c).map fun x =>
        { x with commanded := x.safe, ramp := none, appliedBy := none, deviation := false }) ∧
  (∀ (p : InProgress) (s : State), headNotice .safeAllValues s = some .safeAllValues →
    s.bus.current = some p → p.txn = .safeAll →
    let values := allChannels.map fun c => (s.channel c).map (·.safe)
    ∃ t, exec .safeAllValues s = .next t ∧
      t.bus = { s.bus with current := some { p with
        safeValues := some values, wire := txnBytes .safeAll (some values) } } ∧
      (∀ k, t.module k = if (s.module k).powered = true ∧ Config.requestHeard p.attemptNo k = true then
        (s.module k).safeAll k values else s.module k) ∧
      t.notices = (dropNotice .safeAllValues s).notices ∧
      t.claims.waits = s.claims.waits ∧ t.claims.haltEntry = s.claims.haltEntry ∧
      ∀ c, t.channel c = (s.channel c).map fun x =>
        { x with commanded := x.safe, ramp := none, appliedBy := none, deviation := false })

/-! ### Building sets -/

/-- R23: SET_OPEN is refused by the first check that fails, or creates an empty open set with the header it
gives, its due kind and late policy by their codes, and answers how many items the session may still add. -/
def Obligations.SetOpenFollowsItsTable : Prop :=
  ∀ (h : Header) (kind late capture sync : Byte) (time : Time) (predecessor : Half) (delay offset : Long)
    (n : SessionIx) (k : Session) (s : State),
    let r : Request := .setOpen kind late capture sync time predecessor delay offset
    let i : Instr := .setOpen h kind late capture sync time predecessor delay offset
    AtBlock (.told .setAssembler) h r n s → s.session n = some k →
    let badPredecessor := kind = 2 ∧ (predecessor.toNat = 0 ∨ predecessor.toNat = 65535)
    (badPredecessor → exec i s = .next (refuse h r .badField s)) ∧
    (∀ o, ¬ badPredecessor → s.openSet n = some o → exec i s = .next (refuse h r .setAlreadyOpen s)) ∧
    (¬ badPredecessor → s.openSet n = none →
      ∃ d p, (match kind.toNat with
          | 0 => d = .now
          | 1 => d = .atTime time.toNat
          | 2 => d = .after predecessor.toNat delay.toNat
          | 3 => d = .trigger .trig0
          | 4 => d = .trigger .trig1
          | 5 => d = .offset offset.toNat
          | _ => False) ∧
        (late = 0 ∧ p = .apply ∨ late = 1 ∧ p = .discard) ∧
        exec i s = .next (answer h r
          (doneWith (u8 (min (k.quota - k.inUse) (min s.assembler.poolFree 32))))
          (s.withOpenSet n (some
            { due := d, late := p, capture := capture = 1, sync := sync = 1, items := []
              spoiled := none }))))

/-- R25: an item passes when its channel is OWNED by the session, its target lies in the working limits, a
DIGITAL item is 0 or 1 without a ramp, and the channel is not there already; the first check it fails gives the
reason. R24 to R26, R29: a SET_ADD that fails a check takes no item and does not seal; its reply carries the
detail of 12_message_formats.md. (A SET_ADD whose own seal waits at the Schedule is not taken twice.) R27, R28: one that
passes puts its items, in their order and each with its channel, target and ramp, into the open set behind those there,
takes them from the pool and adds them to the session's items in use; without SEAL it is answered DONE with the counts,
with SEAL an empty set is refused EMPTY_SET and any other goes to the Schedule to be sealed. -/
def Obligations.SetAddFollowsItsTable : Prop :=
  (∀ (n : SessionIx) (earlier : List Byte) (i : RawItem) (s : State),
    (31 < i.channel.toNat → itemFault n earlier i s = some .badField) ∧
    (∀ c, chanOf i.channel = some c →
      ((∀ x, s.channel c = some x → x.owner ≠ some n) → itemFault n earlier i s = some .notOwned) ∧
      (∀ x, s.channel c = some x → x.owner = some n →
        let inside := x.lower ≤ signed i.target ∧ signed i.target ≤ x.upper
        let digitalOk := x.kind = .digital →
          (signed i.target = 0 ∨ signed i.target = 1) ∧ i.ramp = 0
        (¬ inside → itemFault n earlier i s = some .outOfLimits) ∧
        (inside → ¬ digitalOk → itemFault n earlier i s = some .badField) ∧
        (inside → digitalOk → i.channel ∈ earlier → itemFault n earlier i s = some .duplicateChannel) ∧
        (inside → digitalOk → i.channel ∉ earlier → itemFault n earlier i s = none)))) ∧
  (∀ (h : Header) (sealFlag : Byte) (items : List RawItem) (n : SessionIx) (k : Session) (s : State),
    let r : Request := .setAdd sealFlag items
    AtBlock (.told .setAssembler) h r n s → s.session n = some k → items.length ≤ 47 →
    (∀ m inc x, .sealAsked m inc h x ∉ s.notices) →
    let refused (o : Option OpenSet) (reason : Reason) (position : Option Nat) (channel : Option Byte) :=
      (Host.Outcome.next (answer h r
        { outcome := .refused, reason := some reason
          body := wOpt 1 u8 position ++ wOpt 1 (fun c : Byte => [c]) channel ++ u8 0 ++
            u8 (match o with | some p => p.items.length | none => 0) ++ u16 k.inUse ++
            u16 s.assembler.poolFree
          resetReply := false } s) : Host.Outcome State Fault Refusal)
    (16 < items.length → exec (.setAdd h sealFlag items) s = refused (s.openSet n) .badField none none) ∧
    (items.length ≤ 16 → s.openSet n = none →
      exec (.setAdd h sealFlag items) s = refused none .noOpenSet none none) ∧
    (∀ o, items.length ≤ 16 → s.openSet n = some o →
      (∀ c, o.spoiled = some c →
        exec (.setAdd h sealFlag items) s = refused (some o) .spoiled none (some (BitVec.ofNat 8 c.val))) ∧
      (o.spoiled = none → 32 < o.items.length + items.length →
        exec (.setAdd h sealFlag items) s = refused (some o) .badField (some (32 - o.items.length)) none) ∧
      (o.spoiled = none → o.items.length + items.length ≤ 32 →
        let there := o.items.map fun i => BitVec.ofNat 8 i.channel.val
        let passes (p : Nat) := ∀ j i, j < p → items[j]? = some i →
          itemFault n (((items.take j).map (·.channel)).reverse ++ there) i s = none
        (∀ p i reason, passes p → items[p]? = some i →
          itemFault n (((items.take p).map (·.channel)).reverse ++ there) i s = some reason →
          exec (.setAdd h sealFlag items) s = refused (some o) reason (some p) (some i.channel)) ∧
        (passes items.length → k.quota < k.inUse + items.length →
          exec (.setAdd h sealFlag items) s = refused (some o) .quota none none) ∧
        (passes items.length → k.inUse + items.length ≤ k.quota →
          s.assembler.poolFree < items.length →
          exec (.setAdd h sealFlag items) s = refused (some o) .poolFull none none)))) ∧
  (∀ (h : Header) (sealFlag : Byte) (items : List RawItem) (n : SessionIx) (k : Session) (o : OpenSet)
    (s : State),
    let r : Request := .setAdd sealFlag items
    let there := o.items.map fun i => BitVec.ofNat 8 i.channel.val
    AtBlock (.told .setAssembler) h r n s → s.session n = some k → s.openSet n = some o →
    (∀ m inc x, .sealAsked m inc h x ∉ s.notices) →
    items.length ≤ 16 → o.spoiled = none → o.items.length + items.length ≤ 32 →
    (∀ j i, items[j]? = some i →
      itemFault n (((items.take j).map (·.channel)).reverse ++ there) i s = none) →
    k.inUse + items.length ≤ k.quota → items.length ≤ s.assembler.poolFree →
    ∃ (t : State) (kept : List Item), OnlyChanges [.assembler, .sessions] s t ∧
      t.openSet n = some { o with items := o.items ++ kept } ∧ kept.length = items.length ∧
      (∀ (j : Nat) (i : RawItem) (x : Item), items[j]? = some i → kept[j]? = some x →
        x.channel.val = i.channel.toNat ∧ x.target = i.target.toInt ∧ x.ramp = i.ramp.toNat) ∧
      (∀ m, m ≠ n → t.openSet m = s.openSet m) ∧
      t.assembler.poolFree = s.assembler.poolFree - items.length ∧
      t.session n = some { k with inUse := k.inUse + items.length } ∧
      (∀ m, m ≠ n → t.session m = s.session m) ∧
      (sealFlag = 0 → exec (.setAdd h sealFlag items) s = .next (answer h r
        (doneWith (u8 items.length ++ u8 (o.items.length + items.length) ++
          u16 (k.inUse + items.length) ++ u16 (s.assembler.poolFree - items.length))) t)) ∧
      (sealFlag = 1 → o.items.length + items.length = 0 → exec (.setAdd h sealFlag items) s =
        .next (answer h r
          { outcome := .refused, reason := some .emptySet
            body := List.replicate 6 0 ++ u16 k.inUse ++ u16 s.assembler.poolFree
            resetReply := false } t)) ∧
      (sealFlag = 1 → 0 < o.items.length + items.length → exec (.setAdd h sealFlag items) s =
        .next (post (.sealAsked n k.incarnation h items.length) t)))

/-- R35: SET_DISCARD carries no fields and is refused NO_OPEN_SET without an open set. Otherwise, whatever the
halt state, the open set is removed, spoiled or not, its items return to the pool, no report is made, no sealed
set is touched, and the reply is DONE with the number of items, 0 to 32. -/
def Obligations.SetDiscardReturnsTheItems : Prop :=
  (∀ body, parseRequest 0x22 body = if body = [] then .request .setDiscard else .badLength) ∧
  (∀ (h : Header) (n : SessionIx) (k : Session) (s : State),
    AtBlock (.told .setAssembler) h .setDiscard n s → s.session n = some k →
    (s.openSet n = none → exec (.setDiscard h) s = .next (refuse h .setDiscard .noOpenSet s)) ∧
    (∀ o, s.openSet n = some o → ∃ t,
      exec (.setDiscard h) s = .next (answer h .setDiscard (doneWith (u8 o.items.length)) t) ∧
      OnlyChanges [.assembler, .sessions] s t ∧
      t.openSet n = none ∧ (∀ m, m ≠ n → t.openSet m = s.openSet m) ∧
      t.assembler.poolFree = s.assembler.poolFree + o.items.length ∧
      t.session n = some { k with inUse := k.inUse - o.items.length } ∧
      (∀ m, m ≠ n → t.session m = s.session m) ∧ (TablesBounded s → o.items.length ≤ 32)))

/-- R34, R36, R37: items handed back return to the pool and leave the session's items in use; a notice of lost
channels spoils the open set of a former owner that writes one of them, by the lowest such channel, and
leaves every other open set as it is. (A notice taken after the former owner's id has been opened anew spoils the new
session's open set: assumption 40.) -/
def Obligations.AssemblerTakesReturnsAndLosses : Prop :=
  (∀ (n : SessionIx) (count : Nat) (k : Session) (s : State),
    headNotice (.itemsReturn n) s = some (.itemsReturn n count) → s.session n = some k →
    ∃ t, exec (.itemsReturn n) s = .next t ∧ t.assembler.poolFree = s.assembler.poolFree + count ∧
      t.assembler.openSets = s.assembler.openSets ∧
      t.session n = some { k with inUse := k.inUse - count } ∧
      (∀ m, m ≠ n → t.session m = s.session m) ∧ t.notices = (dropNotice (.itemsReturn n) s).notices) ∧
  (∀ (lost : List LostChannel) (s : State), headNotice .lostToAssembler s = some (.lostToAssembler lost) →
    ∃ t, exec .lostChannelsSetAssembler s = .next t ∧ t.assembler.poolFree = s.assembler.poolFree ∧
      ∀ n, (s.openSet n = none → t.openSet n = none) ∧
        ∀ o, s.openSet n = some o →
          let hit (c : ChanIx) := ⟨c, n⟩ ∈ lost ∧ ∃ i ∈ o.items, i.channel = c
          (o.spoiled ≠ none ∨ (∀ c, ¬ hit c) → t.openSet n = some o) ∧
          (∀ c, o.spoiled = none → hit c → (∀ d, d < c → ¬ hit d) →
            t.openSet n = some { o with spoiled := some c }))

/-! ### The Schedule -/

/-- R28, R30 to R33: a seal is refused by the first check that fails, with the counts of the SET_ADD, and
then the open set stays; otherwise the Schedule takes the set with a fresh id and the next seal number, in the
state its due kind calls for, and the open set's place is emptied. R31: with fewer than 64 sets the id is the first
value from the set id counter on that is not 0 and no live set's id, within 65 values, and the counter goes on behind
it, from 65534 to 0. A seal whose session is CLOSED or open anew, or
whose open set the session's end has discarded, is refused NO_SESSION with the items taken (assumption 13); an open
set spoiled since its SET_ADD is sealed all the same (assumption 39). -/
def Obligations.SealFollowsItsTable : Prop :=
  (∀ (n : SessionIx) (h : Header) (r : Request) (taken inc : Nat) (s : State),
    headNotice (.sealAsked n) s = some (.sealAsked n inc h taken) → 0 < inc →
    (s.link h.link).inHand = some (h, r) →
    let u := dropNotice (.sealAsked n) s
    let gone (inUse : Nat) :=
      (Host.Outcome.next (answer h r
        { outcome := .refused, reason := some .noSession
          body := List.replicate 4 0 ++ u8 taken ++ u8 0 ++ u16 inUse ++ u16 s.assembler.poolFree
          resetReply := false } u) : Host.Outcome State Fault Refusal)
    ((∀ k, s.session n = some k → k.incarnation ≠ inc) → exec (.sealTaken n) s = gone 0) ∧
    (∀ k, s.session n = some k → k.incarnation = inc → s.openSet n = none →
      exec (.sealTaken n) s = gone k.inUse)) ∧
  (∀ (n : SessionIx) (h : Header) (r : Request) (taken : Nat) (k : Session) (o : OpenSet) (s : State),
    headNotice (.sealAsked n) s = some (.sealAsked n k.incarnation h taken) → s.session n = some k →
    (s.link h.link).inHand = some (h, r) → s.openSet n = some o →
    let u := dropNotice (.sealAsked n) s
    let refused (reason : Reason) (channel : Option Byte) :=
      (Host.Outcome.next (answer h r
        { outcome := .refused, reason := some reason
          body := [0, 0] ++ (match channel with | some c => [1, c] | none => [0, 0]) ++ u8 taken ++
            u8 o.items.length ++ u16 k.inUse ++ u16 s.assembler.poolFree
          resetReply := false } u) : Host.Outcome State Fault Refusal)
    let owned := ∀ i ∈ o.items, u.owns n i.channel = true
    (u.endedFor .schedule n = true → exec (.sealTaken n) s = refused .noSession none) ∧
    (∀ (p : Nat) (i : Item), u.endedFor .schedule n = false → o.items[p]? = some i → u.owns n i.channel = false →
      (∀ (j : Nat) (b : Item), j < p → o.items[j]? = some b → u.owns n b.channel = true) →
      exec (.sealTaken n) s = refused .notOwned (some (BitVec.ofNat 8 i.channel.val))) ∧
    (u.endedFor .schedule n = false → owned → u.haltedFor .schedule = true →
      exec (.sealTaken n) s = refused .halted none) ∧
    (u.endedFor .schedule n = false → owned → u.haltedFor .schedule = false → 64 ≤ u.sets.length →
      exec (.sealTaken n) s = refused .scheduleFull none) ∧
    (u.endedFor .schedule n = false → owned → u.haltedFor .schedule = false → u.sets.length < 64 →
      (∀ p d, o.due = .after p d → (∀ x, u.findSet p = some x → x.owner ≠ n) →
        exec (.sealTaken n) s = refused .predecessor none) ∧
      (∀ v, o.due = .offset v → (∀ c, u.cycle n = some c → c.phase ≠ .building ∨ 16 ≤ c.members.length) →
        exec (.sealTaken n) s = refused .cycleState none) ∧
      (∀ v c, o.due = .offset v → u.cycle n = some c → c.phase = .building → c.members.length < 16 →
        c.period ≤ v → exec (.sealTaken n) s = refused .badField none) ∧
      (((∃ t, o.due = .now ∨ o.due = .atTime t) ∨ (∃ l, o.due = .trigger l) ∨
          (∃ p d x, o.due = .after p d ∧ u.findSet p = some x ∧ x.owner = n) ∨
          (∃ v c, o.due = .offset v ∧ u.cycle n = some c ∧ c.phase = .building ∧ c.members.length < 16 ∧
            v < c.period)) →
        let id := chooseId 66 u.sets u.schedule.nextId
        let no := (u.schedule.lastSeal + 1) % 2 ^ 32
        exec (.sealTaken n) s = .next (answer h r
          (doneWith (u8 taken ++ u8 o.items.length ++ u16 id ++ u32 no ++ u48 u.clock.rig)) (sealSet n o u))))) ∧
  (∀ (sets : List SealedSet) (next : Nat), sets.length < 64 → next ≤ 65534 →
    let after (v : Nat) := if v < 65534 then v + 1 else 0
    let id := chooseId 66 sets next
    (∀ x ∈ sets, x.id ≠ id) ∧ 1 ≤ id ∧ id ≤ 65534 ∧ nextSetId id = after id ∧
    ∃ j, j < 65 ∧ id = after^[j] next ∧ ∀ i, i < j → after^[i] next = 0 ∨ ∃ x ∈ sets, x.id = after^[i] next)

/-- R30, R31, R41, R42, R46, R89: what a seal makes of the open set, by its due kind, when its id is fresh (as
`SealFollowsItsTable` says it is with fewer than 64 sets). R47: a set that is DUE at once takes its place on the
Ready List: the list goes on to hold the DUE sets in their order. -/
def Obligations.SealedSetsTakeTheirState : Prop :=
  ∀ (n : SessionIx) (o : OpenSet) (s : State),
    let id := chooseId 66 s.sets s.schedule.nextId
    (∀ x ∈ s.sets, x.id ≠ id) →
    let t := sealSet n o s
    let base : SealedSet :=
      { id := id, owner := n, due := o.due, dueTime := none, late := o.late, capture := o.capture
        sync := o.sync, items := o.items, sealNo := (s.schedule.lastSeal + 1) % 2 ^ 32
        sealTime := s.clock.rig, state := .pending, member := false, pass := 0 }
    t.openSet n = none ∧ t.schedule.lastSeal = base.sealNo ∧
    t.schedule.nextId = (if id < 65534 then id + 1 else 0) ∧
    (ReadyListed s → ReadyOrdered s → ReadyListed t ∧ ReadyOrdered t) ∧
    (o.due = .now → t.sets = s.sets ++ [{ base with state := .due, dueTime := some s.clock.rig }] ∧
      id ∈ t.schedule.ready) ∧
    (∀ v, o.due = .atTime v →
      (v ≤ s.clock.rig → t.sets = s.sets ++ [{ base with state := .due, dueTime := some v }] ∧
        id ∈ t.schedule.ready) ∧
      (s.clock.rig < v → t.sets = s.sets ++ [{ base with dueTime := some v }] ∧
        t.schedule.ready = s.schedule.ready)) ∧
    ((∃ p d, o.due = .after p d) ∨ (∃ l, o.due = .trigger l) →
      t.sets = s.sets ++ [base] ∧ t.schedule.ready = s.schedule.ready) ∧
    (∀ v c, o.due = .offset v → s.cycle n = some c →
      t.sets = s.sets ++ [{ base with state := .parked, member := true }] ∧
      t.cycle n = some { c with members := c.members ++ [id] })

/-- R42, R45, R47, R103: an expired due time makes its PENDING set DUE (an expiry before its time changes nothing:
assumption 32), an edge makes the oldest set bound to its line DUE with the edge stamp, or none when it was taken
while HALTED (that the edge carries this is assumption 7's), and a set that becomes DUE joins the Ready List in its
order: by due time, and among equal due times by its place in the order of the seal numbers, in which the sets
stand. -/
def Obligations.SetsFallDueInOrder : Prop :=
  (∀ (id : Half) (x : SealedSet) (v : Nat) (s : State), s.findSet id.toNat = some x → x.state = .pending →
    x.dueTime = some v →
    exec (.dueTimeExpiry id) s = .next (if v ≤ s.clock.rig then makeDue x.id v s else s)) ∧
  (∀ (l : TrigLine) (stamp : Nat) (halted : Bool) (s : State),
    headNotice (.edge l) s = some (.edge l stamp halted) →
    let u := dropNotice (.edge l) s
    let bound := s.sets.filter fun x => x.state = .pending && x.due = .trigger l
    (bound = [] ∨ halted = true → exec (.triggerEdge l) s = .next u) ∧
    (∀ x rest, bound = x :: rest → halted = false → exec (.triggerEdge l) s = .next (makeDue x.id stamp u))) ∧
  (∀ (id v : Nat) (s : State),
    let changed := s.withSets
      (s.sets.map fun x => if x.id = id then { x with state := .due, dueTime := some v } else x)
    let t := makeDue id v s
    t = joinReady id changed ∧ t.sets = changed.sets ∧ t.schedule.ready = (joinReady id changed).schedule.ready ∧
    OnlyChanges [.schedule] s t ∧ t.schedule.nextId = s.schedule.nextId ∧
    t.schedule.lastSeal = s.schedule.lastSeal ∧ t.schedule.armed = s.schedule.armed) ∧
  (∀ (id v : Nat) (x : SealedSet) (s : State), ReadyListed s → ReadyOrdered s → s.findSet id = some x →
    x.state ≠ .due → ReadyListed (makeDue id v s) ∧ ReadyOrdered (makeDue id v s)) ∧
  (∀ (id : Nat) (s : State), (s.sets.map (·.id)).Nodup → id ∈ s.sets.map (·.id) →
    id ∉ s.schedule.ready → (∀ a ∈ s.schedule.ready, a ∈ s.sets.map (·.id)) →
    s.schedule.ready.Pairwise (fun a b => goesBefore s.sets a b = true) →
    let t := joinReady id s
    t.schedule.ready.Pairwise (fun a b => goesBefore t.sets a b = true) ∧
    t.schedule.ready.Perm (id :: s.schedule.ready)) ∧
  (∀ (sets : List SealedSet) (i j : Nat) (x y : SealedSet), (sets.map (·.id)).Nodup → sets[i]? = some x →
    sets[j]? = some y →
    (goesBefore sets x.id y.id = true ↔ x.dueTime.getD 0 < y.dueTime.getD 0 ∨
      x.dueTime.getD 0 = y.dueTime.getD 0 ∧ i < j))

/-- R41, R44, R46, R48, R49, R64, R70, R92: TAKE does nothing while a set is APPLYING or the Ready List is empty;
otherwise it takes the head. A head that the late check discards leaves with DISCARDED LATE, or is parked when it is a
cycle member, and the next is taken; a head that passes becomes APPLYING and its STAGEs are queued, slot by slot; the
set of an ending session goes back to be removed. (That a member keeps its flag, and is parked, when the Cycle Unit
has ended its cycle already and the Schedule's own notice is still to come: assumptions 15 and 43.) -/
def Obligations.TakeFollowsTheReadyList : Prop :=
  (∀ s : State, (s.schedule.ready = [] ∨ s.engine.work ≠ none ∨ ∃ x ∈ s.sets, x.state = .applying) →
    exec .take s = .next s) ∧
  (∀ (id : Nat) (rest : List Nat) (x : SealedSet) (s : State),
    s.engine.work = none → (∀ y ∈ s.sets, y.state ≠ .applying) → s.haltedFor .applyEngine = false →
    s.schedule.ready = id :: rest → s.findSet id = some x →
    let late := x.late = .discard ∧ x.dueTime.getD 0 + s.clock.lateMargin < s.clock.rig
    let u := s.withReady rest
    (late → exec .take s = .next (queueChecks (takeHeads rest.length (discardLate x u)))) ∧
    (late → x.member = false → discardLate x u = breakChain x [] (leaveSet x .discarded (some .late) none u)) ∧
    (late → x.member = true → discardLate x u = breakChain x [] (post (.memberParked x.owner x.id)
      (changeSet x.id (fun y => { y with state := .parked, dueTime := none })
        (handResult x .discarded (some .late) true none u)))) ∧
    (¬ late →
      let slots := allSlots.filter fun k => x.items.any fun i => slotOfChan i.channel = k
      let w : Work :=
        { take := s.engine.takes + 1, phase := .staging, setId := x.id, owner := x.owner
          capture := x.capture, sync := x.sync, items := x.items.map fun i => ⟨i, settleOf s i.channel⟩
          slots := slots.map fun k => ⟨k, .queued, false⟩, cause := none, commitTime := none
          abandon := false, ended := false }
      let v := (changeSet x.id (fun y => { y with state := .applying }) u).withEngine
        { s.engine with takes := s.engine.takes + 1 }
      (s.isEnding x.owner = true → exec .take s = .next (queueChecks
        (post (.outcome w.take x.id .removed) (v.withWork none)))) ∧
      (s.isEnding x.owner = false → (∀ k ∈ slots, s.bus.live.get k = true) →
        exec .take s = .next (queueChecks (postAll (slots.map fun k =>
          .busRequest .applyEngine (.stage k w.take ((x.items.filter fun i => slotOfChan i.channel = k).map
            fun i => ⟨indexOfChan i.channel, i.target, i.ramp⟩))) (v.withWork (some w))))) ∧
      (s.isEnding x.owner = false → (∃ k ∈ slots, s.bus.live.get k = false) →
        ∃ t, exec .take s = .next (queueChecks t) ∧ t.engine.work = none ∧
          .outcome w.take x.id (.failed .slotLost) ∈ t.notices)))

/-- R41, R43, R44, R46, R50, R51, R56, R92, R96, R97: the outcome of the APPLYING set: APPLIED leaves, or is parked
when it is a cycle member, unless its cycle is STOPPING under NOW or the Schedule is HALTED; FAILED leaves and breaks
its chain, and a member's failure ends its cycle, which is one that lists it; the set of an ended session is removed
without report. (That it is removed by itself, breaking no chain, also when dependants of it are still in the Schedule
because the Schedule's own notice of the end is still to come, is the model's reading: assumption 51; that a member
keeps its flag, and is parked, when the Cycle Unit has ended its cycle already and the Schedule's own notice is still
to come, assumptions 15's and 43's; that QUEUE_LOW comes after the CYCLE_CHANGE of the event, assumption 41's.) -/
def Obligations.OutcomesAreTaken : Prop :=
  ∀ (take id : Nat) (o : EngineOutcome) (x : SealedSet) (s : State),
    headNotice .outcome s = some (.outcome take id o) →
    (s.sets.find? fun y => y.id = id && y.state = .applying) = some x →
    let u := dropNotice .outcome s
    let among (c : Cycle) := x.member = true ∧ s.cycle x.owner = some c ∧ x.id ∈ c.members
    let stopping := ∃ c, among c ∧ c.phase = .stopping .now
    (u.endedFor .schedule x.owner = true ∨ o = .removed ∨ o = .failed .sessionEnd →
      exec .outcome s = .next (queueChecks (dropMember x.owner x.id (removeSet x u)))) ∧
    (u.endedFor .schedule x.owner = false →
      (∀ c, o = .applied c →
        let t := resolveChain x c (leaveSet x .applied none (some c) u)
        (stopping → exec .outcome s = .next (queueChecks (endStoppedCycle x.owner t))) ∧
        (¬ stopping → x.member = false ∨ u.haltedFor .schedule = true →
          exec .outcome s = .next (queueChecks t)) ∧
        (¬ stopping → x.member = true → u.haltedFor .schedule = false →
          exec .outcome s = .next (queueChecks (resolveChain x c (post (.memberParked x.owner x.id)
            (changeSet x.id (fun y => { y with state := .parked, dueTime := none })
              (handResult x .applied none true (some c) u))))))) ∧
      (∀ f why, o = .failed f → reasonOfCause f = some why →
        let t := breakChain x [] (leaveSet x .failed (some why) none u)
        ((∀ c, ¬ among c) → exec .outcome s = .next (queueChecks t)) ∧
        (stopping → exec .outcome s = .next (queueChecks (endStoppedCycle x.owner t))) ∧
        (∀ c, among c → ¬ stopping → exec .outcome s = .next (queueChecks
          (endCycleEarly x.owner c .memberFailed x.id why [] (dropMember x.owner x.id t))))))

/-- R50 to R52, R56, R92: what leaving does: the set and its place on the Ready List go, its items and, for an OPEN
session, its SET_RESULT are handed over in that order; a member that is parked again keeps its place and has a
SET_RESULT with parked "yes" alone. R50, R56: a set removed without report is taken off its cycle's member list. R43:
the unresolved dependants of a committed set get the commit time plus their delay, and those DUE at once their place
on the Ready List. R94, R96: a cycle that a member
ends early loses its other members as `ChainsBreakAndMembersStop` says of stopped members, its APPLYING one is detached
with the pass it was taken in, and it and one STOPPING under NOW when its APPLYING member's outcome is taken end with
CYCLE_CHANGE. R57: after
an event of the Schedule a session's queue count is compared with its low mark once. (The pass of a member whose cycle
its session's end has taken away: assumption 43; that the sessions are gone through in ascending order is the model's
choice: assumption 46.) -/
def Obligations.SetsLeaveResolveAndAreCounted : Prop :=
  ((∀ (x : SealedSet) (outcome : SetOutcome) (reason : Option ResultReason) (commit : Option Nat) (s : State),
    let pass :=
      match s.cycle x.owner with
      | some c => if x.member = true ∧ x.id ∈ c.members then c.begun else x.pass
      | none => x.pass
    let result (parked : Bool) : List Notice :=
      match s.session x.owner with
      | some k => [.report .schedule (some (x.owner, k.incarnation)) (.setResult
          { setId := x.id, sealNo := x.sealNo, outcome := outcome, reason := reason, pass := pass
            parked := parked, dueTime := x.dueTime, commitTime := commit
            lateness := commit.map fun c => min (c - x.dueTime.getD c) (2 ^ 32 - 1)
            eventTime := s.clock.rig })]
      | none => []
    let gone := s.withSchedule { s.schedule with
      sets := s.sets.filter (fun y => y.id ≠ x.id), ready := s.schedule.ready.erase x.id }
    let back : Notice := .itemsReturn x.owner x.items.length
    (∀ parked, handResult x outcome reason parked commit s = s.withNotices (s.notices ++ result parked)) ∧
    removeSet x s = gone.withNotices (s.notices ++ [back]) ∧
    leaveSet x outcome reason commit s = gone.withNotices (s.notices ++ [back] ++ result false)) ∧
  (∀ (n : SessionIx) (id : Nat) (s : State),
    (s.cycle n = none → dropMember n id s = s) ∧
    (∀ c, s.cycle n = some c →
      dropMember n id s = s.withCycle n (some { c with members := c.members.erase id }))) ∧
  (∀ (n : SessionIx) (s : State),
    (s.cycle n = none → endStoppedCycle n s = s) ∧
    (∀ c k, s.cycle n = some c → s.session n = some k →
      endStoppedCycle n s = post (.report .schedule (some (n, k.incarnation)) (.cycleChange
        { reason := .stopped, member := none, firstStart := c.firstStart, period := c.period
          repeats := c.repeats, begun := c.begun, lastStart := if c.begun = 0 then none else c.current
          members := c.members.length, eventTime := s.clock.rig })) (s.withCycle n none))) ∧
  (∀ (x : SealedSet) (commit : Nat) (s : State), (s.sets.map (·.id)).Nodup →
    let t := resolveChain x commit s
    OnlyChanges [.schedule] s t ∧
    t.sets = s.sets.map (fun y =>
      match y.due with
      | .after p delay =>
        if y.owner = x.owner ∧ y.dueTime = none ∧ p = x.id then
          let v := min (commit + delay) (2 ^ 48 - 1)
          { y with dueTime := some v, state := if v ≤ s.clock.rig then .due else .pending }
        else y
      | _ => y) ∧
    (ReadyListed s → ReadyOrdered s → ReadyListed t ∧ ReadyOrdered t)) ∧
  (∀ (n : SessionIx) (c : Cycle) (reason : CycleEndReason) (id : Nat) (why : ResultReason)
      (except : List Nat) (k : Session) (s : State), s.session n = some k →
    let t := endCycleEarly n c reason id why except s
    let u := stopMembers c except s
    t = post (.report .schedule (some (n, k.incarnation)) (.cycleChange
      { reason := reason, member := some (id, why), firstStart := c.firstStart, period := c.period
        repeats := c.repeats, begun := c.begun, lastStart := if c.begun = 0 then none else c.current
        members := c.members.length, eventTime := s.clock.rig }))
      ((u.withSets (u.sets.map fun x => if x.id ∈ c.members ∧ x.state = .applying then
        { x with member := false, pass := c.begun } else x)).withCycle n none) ∧
    t.cycle n = none ∧ (∀ x ∈ t.sets, x.id ∈ c.members → x.state = .applying → x.member = false))) ∧
  ((∀ s : State, queueChecks s = allSessions.foldl queueCheck s) ∧
  (∀ (n : SessionIx) (k : Session) (s : State), s.session n = some k →
    let count := (s.sets.filter fun x => x.owner = n && !x.member &&
      (x.state = .pending || x.state = .due)).length
    let armed (b : Bool) := { s.schedule with armed := s.schedule.armed.put n b }
    (k.lowMark = 0 → queueCheck s n = s) ∧
    (0 < k.lowMark → k.lowMark ≤ count → queueCheck s n = s.withSchedule (armed true)) ∧
    (count < k.lowMark → s.schedule.armed.get n = false → queueCheck s n = s) ∧
    (count < k.lowMark → s.schedule.armed.get n = true →
      queueCheck s n = post (.report .schedule (some (n, k.incarnation)) (.queueLow count k.lowMark))
        (s.withSchedule (armed false)))))

/-- R44: the chain of a set is broken: every set that depends on it, directly or through others, and no other set,
leaves with CHAIN_BROKEN, each after the set it depends on and the dependants of one set in seal-number order. R54,
R94 to R96: sets cancelled with a reason of their own leave in the order given, each followed by its chain, and no
chain takes one of them along; so do the members of a cycle that is stopped or ends early, but for one that is
APPLYING. (Where a chain branches, the order is assumption 14's.) -/
def Obligations.ChainsBreakAndMembersStop : Prop :=
  (∀ (x : SealedSet) (except : List Nat) (s : State), (s.sets.map (·.id)).Nodup →
    (∀ y ∈ s.sets, y.id = x.id → y.dueTime ≠ none ∨ ∀ p d, y.due ≠ .after p d) →
    ∃ broken : List SealedSet, broken.Nodup ∧ (∀ y, y ∈ broken ↔ InChain s except x y) ∧
      broken.Pairwise (fun a b => ¬ DependsOn s except b a) ∧
      (∀ p, (broken.filter fun y => match y.due with
        | .after q _ => q = p
        | _ => false).Sublist s.sets) ∧
      breakChain x except s =
        broken.foldl (fun t y => leaveSet y .cancelled (some .chainBroken) none t) s) ∧
  (∀ (x : SealedSet) (reason : ResultReason) (except : List Nat) (s : State),
    cancelSet x reason except s =
      breakChain x except (dropMember x.owner x.id (leaveSet x .cancelled (some reason) none s))) ∧
  (∀ (ids : List Nat) (reason : ResultReason) (s : State), (s.sets.map (·.id)).Nodup → ids.Nodup →
    let t := cancelSets ids reason s
    OnlyChanges [.schedule, .cycles, .notices] s t ∧
    t = ((ids.filterMap s.findSet).filter (·.waiting)).foldl (fun u x => cancelSet x reason ids u) s ∧
    (∀ y ∈ t.sets, y ∈ s.sets ∧ (y.id ∈ ids → y.state = .applying)) ∧
    (∀ y ∈ s.sets, (y.id ∉ ids ∨ y.state = .applying) →
      (∀ x ∈ s.sets, x.id ∈ ids → x.state ≠ .applying → ¬ InChain s ids x y) → y ∈ t.sets)) ∧
  (∀ (c : Cycle) (except : List Nat) (s : State), (s.sets.map (·.id)).Nodup → c.members.Nodup →
    (∀ x ∈ s.sets, x.id ∈ c.members → ∃ v, x.due = .offset v) →
    let t := stopMembers c except s
    OnlyChanges [.schedule, .cycles, .notices] s t ∧
    t = ((c.members.filterMap s.findSet).filter (·.waiting)).foldl
      (fun u x => cancelSet x .cycleStopped except u) s ∧
    (∀ y ∈ t.sets, y ∈ s.sets ∧ (y.id ∈ c.members → y.state = .applying)) ∧
    (∀ y ∈ s.sets, (y.id ∉ c.members ∨ y.state = .applying) →
      (∀ x ∈ s.sets, x.id ∈ c.members → x.state ≠ .applying → ¬ InChain s except x y) → y ∈ t.sets))

/-- R53, R54, R55, R94: SET_CANCEL follows its table; with set id 0 it cancels every PENDING or DUE set of the session
that is no member, with BY_REQUEST and in seal-number order, and no other. Lost channels cancel the sets of their
former owners that write them, with CHANNEL_RELEASED or CHANNEL_ABSENT, each to its owner; such a member ends its
cycle, and its fellow members leave with CYCLE_STOPPED; a dependant leaves with CHAIN_BROKEN, and every other set
stays. Halt entry cancels every waiting set, each with a SET_RESULT to its owner, and leaves only the APPLYING one
(also one taken after RESUME: assumption 47).
(QUEUE_LOW follows the CYCLE_CHANGE of the same event: assumption 41; a notice of lost channels taken after the former
owner's id has been opened anew acts on the new session's sets: assumption 40.) -/
def Obligations.SetsAreCancelled : Prop :=
  (∀ (h : Header) (setId : Half) (n : SessionIx) (s : State),
    AtBlock (.told .schedule) h (.setCancel setId) n s →
    let r : Request := .setCancel setId
    (setId = 0 →
      let ids := (s.sets.filter fun x => x.owner = n && !x.member &&
        (x.state = .pending || x.state = .due)).map (·.id)
      exec (.setCancel h setId) s =
        .next (answer h r (doneWith (u8 ids.length)) (queueChecks (cancelSets ids .byRequest s))) ∧
      ((s.sets.map (·.id)).Nodup →
        (∀ y ∈ s.sets, y.owner = n → y.dueTime = none → (∃ p d, y.due = .after p d) →
          y.state = .pending ∧ y.member = false) →
        let t := cancelSets ids .byRequest s
        OnlyChanges [.schedule, .cycles, .notices] s t ∧ t.sets = s.sets.filter (fun x => x.id ∉ ids) ∧
        (∀ k, s.session n = some k → t.notices = s.notices ++
          (s.sets.filter fun x => x.id ∈ ids).flatMap fun x => [.itemsReturn n x.items.length,
            .report .schedule (some (n, k.incarnation)) (.setResult
              { setId := x.id, sealNo := x.sealNo, outcome := .cancelled, reason := some .byRequest
                pass := x.pass, parked := false, dueTime := x.dueTime, commitTime := none, lateness := none
                eventTime := s.clock.rig })]))) ∧
    (setId ≠ 0 → (∀ x, s.findSet setId.toNat = some x → x.owner ≠ n) →
      exec (.setCancel h setId) s = .next (refuse h r .noSuchSet s)) ∧
    (∀ x, setId ≠ 0 → s.findSet setId.toNat = some x → x.owner = n →
      (x.state = .applying → exec (.setCancel h setId) s = .next (refuse h r .tooLate s)) ∧
      (x.state ≠ .applying → x.member = true →
        exec (.setCancel h setId) s = .next (refuse h r .cycleState s)) ∧
      (x.state ≠ .applying → x.member = false →
        exec (.setCancel h setId) s = .next (answer h r (doneWith (u8 1)) (queueChecks
          (breakChain x [] (dropMember n x.id (leaveSet x .cancelled (some .byRequest) none s)))))))) ∧
  (∀ (lost : List LostChannel) (s : State), headNotice .lostToSchedule s = some (.lostToSchedule lost) →
    exec .lostChannelsSchedule s =
      .next (cancelLostAll .channelAbsent lost (dropNotice .lostToSchedule s))) ∧
  (∀ (why : ResultReason) (lost : List LostChannel) (s : State), (s.sets.map (·.id)).Nodup →
    (∀ n c, s.cycle n = some c → c.members.Nodup ∧ ∀ y ∈ s.sets, y.id ∈ c.members →
      y.owner = n ∧ y.member = true ∧ ∃ v, y.due = .offset v) →
    let t := cancelLostAll why lost s
    let direct (x : SealedSet) : Bool :=
      x.state ≠ .applying && x.items.any fun i => lost.contains ⟨i.channel, x.owner⟩
    let ids := (s.sets.filter direct).map (·.id)
    let left (x : SealedSet) (reason : ResultReason) : Prop :=
      (∀ y ∈ t.sets, y.id ≠ x.id) ∧ .itemsReturn x.owner x.items.length ∈ t.notices ∧
      ∀ k, s.session x.owner = some k → ∃ y : SetResult, y.setId = x.id ∧ y.sealNo = x.sealNo ∧
        y.outcome = .cancelled ∧ y.reason = some reason ∧ y.parked = false ∧
        .report .schedule (some (x.owner, k.incarnation)) (.setResult y) ∈ t.notices
    let hit (c : Cycle) (x : SealedSet) : Prop :=
      s.cycle x.owner = some c ∧ x.id ∈ c.members ∧
        (s.sets.find? fun y => direct y && decide (y.id ∈ c.members)) = some x
    OnlyChanges [.schedule, .cycles, .notices] s t ∧
    (∀ x ∈ s.sets, direct x = true → (∀ c, s.cycle x.owner = some c → x.id ∉ c.members) → left x why) ∧
    (∀ c x, hit c x → left x why ∧ t.cycle x.owner = none ∧
      (∀ k, s.session x.owner = some k → .report .schedule (some (x.owner, k.incarnation)) (.cycleChange
        { reason := .memberCancelled, member := some (x.id, why), firstStart := c.firstStart
          period := c.period, repeats := c.repeats, begun := c.begun
          lastStart := if c.begun = 0 then none else c.current, members := c.members.length
          eventTime := s.clock.rig }) ∈ t.notices) ∧
      (∀ y ∈ s.sets, y.id ∈ c.members → y.id ≠ x.id → y.state ≠ .applying → left y .cycleStopped) ∧
      (∀ y ∈ s.sets, y.id ∈ c.members → y.state = .applying →
        { y with member := false, pass := c.begun } ∈ t.sets)) ∧
    (∀ x y, x ∈ s.sets → (direct x = true ∨ ∃ c z, hit c z ∧ x.id ∈ c.members ∧ x.state ≠ .applying) →
      InChain s ids x y → left y .chainBroken) ∧
    (∀ y ∈ s.sets, direct y = false → (∀ c z, hit c z → y.id ∉ c.members) →
      (∀ x ∈ s.sets, direct x = true ∨ (∃ c z, hit c z ∧ x.id ∈ c.members ∧ x.state ≠ .applying) →
        ¬ InChain s ids x y) → y ∈ t.sets)) ∧
  (∀ (time : Option Nat) (s : State), headNotice (.halt .schedule) s = some (.haltEntry .schedule time) →
    (s.sets.map (·.id)).Nodup →
    ∃ t, exec .haltEntrySchedule s = .next t ∧ t.sets = s.sets.filter (fun x => x.state = .applying) ∧
      ∀ x k, x ∈ s.sets → x.state ≠ .applying → s.session x.owner = some k →
        ∃ y : SetResult, y.setId = x.id ∧ y.sealNo = x.sealNo ∧ y.outcome = .cancelled ∧
          y.reason = some .halted ∧ y.parked = false ∧
          .report .schedule (some (x.owner, k.incarnation)) (.setResult y) ∈ t.notices)

/-! ### Cycles -/

/-- R88, R90, R95, R96: CYCLE_BEGIN, CYCLE_END and CYCLE_STOP follow their tables. (QUEUE_LOW follows the
CYCLE_CHANGE of the same event: assumption 41. That CYCLE_BEGIN counts the part as HALTED from the Cycle Unit's own
taking of halt entry on is the model's clause: assumption 7.) -/
def Obligations.CycleRequestsFollowTheirTables : Prop :=
  (∀ (h : Header) (first : Time) (period repeats : Long) (n : SessionIx) (s : State),
    let r : Request := .cycleBegin first period repeats
    let i : Instr := .cycleBegin h first period repeats
    AtBlock (.told .cycleUnit) h r n s →
    (period.toNat < 1000 → exec i s = .next (refuse h r .badField s)) ∧
    (∀ c, 1000 ≤ period.toNat → s.cycle n = some c → exec i s = .next (refuse h r .cycleState s)) ∧
    (1000 ≤ period.toNat → s.cycle n = none → s.haltedFor .cycleUnit = true →
      exec i s = .next (refuse h r .halted s)) ∧
    (1000 ≤ period.toNat → s.cycle n = none → s.haltedFor .cycleUnit = false →
      exec i s = .next (answer h r (doneWith (u48 s.clock.rig)) (s.withCycle n (some
        { phase := .building, firstStart := first.toNat, period := period.toNat
          repeats := repeats.toNat, begun := 0, current := none, members := [] }))))) ∧
  (∀ (h : Header) (n : SessionIx) (s : State), AtBlock (.told .cycleUnit) h .cycleEnd n s →
    ((∀ c, s.cycle n = some c → c.phase ≠ .building ∨ c.members = []) →
      exec (.cycleEnd h) s = .next (refuse h .cycleEnd .cycleState s)) ∧
    (∀ c, s.cycle n = some c → c.phase = .building → c.members ≠ [] →
      exec (.cycleEnd h) s = .next (answer h .cycleEnd
        (doneWith (u8 c.members.length ++ u48 s.clock.rig))
        (startPass n { c with phase := .running } c.firstStart s)))) ∧
  (∀ (h : Header) (kind : Byte) (n : SessionIx) (s : State),
    let r : Request := .cycleStop kind
    let i : Instr := .cycleStop h kind
    AtBlock (.told .cycleUnit) h r n s →
    (s.cycle n = none → exec i s = .next (refuse h r .cycleState s)) ∧
    (∀ c, s.cycle n = some c →
      (∀ k, c.phase = .stopping k → (kind = 0 ∨ k = .now) →
        exec i s = .next (answer h r (doneWith (u8 3)) s)) ∧
      (c.phase = .running → kind = 0 → exec i s = .next (answer h r (doneWith (u8 3))
        (s.withCycle n (some { c with phase := .stopping .afterPass })))) ∧
      (c.phase = .building ∨ kind = 1 ∧ c.phase ≠ .stopping .now →
        let u := stopMembers c [] s
        let applying := ∃ x ∈ s.sets, x.id ∈ c.members ∧ x.state = .applying
        (¬ applying → ∀ k, s.session n = some k →
          exec i s = .next (answer h r (doneWith (u8 0))
            (queueChecks (post (.report .schedule (some (n, k.incarnation)) (.cycleChange
              { reason := .stopped, member := none, firstStart := c.firstStart, period := c.period
                repeats := c.repeats, begun := c.begun
                lastStart := if c.begun = 0 then none else c.current
                members := c.members.length, eventTime := s.clock.rig })) (u.withCycle n none))))) ∧
        (applying → ∃ k, u.cycle n = some k ∧
          exec i s = .next (answer h r (doneWith (u8 3))
            (queueChecks (u.withCycle n (some { k with phase := .stopping .now }))))))))

/-- R91 to R93, R95, R97: the start of a pass counts it, records its start, and makes each member DUE, in its place
on the Ready List, or PENDING, with the start plus its offset as due time; at the finish of a pass every member leaves
before any member's chain is broken; a member parked finishes the pass once every member is PARKED, and
then the next pass is started or the cycle ends and takes its members with it. At halt entry every cycle ends
HALTED and its APPLYING members are detached. (QUEUE_LOW follows the CYCLE_CHANGE of the same event: assumption 41; a
member sealed or parked again after RESUME stays when the Cycle Unit takes the entry last: assumption 15.) -/
def Obligations.PassesRunAndCyclesEnd : Prop :=
  ((∀ (n : SessionIx) (c : Cycle) (start : Nat) (s : State), (s.sets.map (·.id)).Nodup → c.members.Nodup →
    let t := startPass n c start s
    OnlyChanges [.cycles, .schedule] s t ∧
    t.cycle n = some { c with current := some start, begun := min (c.begun + 1) (2 ^ 32 - 1) } ∧
    (∀ m, m ≠ n → t.cycle m = s.cycle m) ∧
    t.sets = s.sets.map (fun x =>
      match x.due with
      | .offset o =>
        if x.id ∈ c.members then
          let v := min (start + o) (2 ^ 48 - 1)
          { x with dueTime := some v, state := if v ≤ s.clock.rig then .due else .pending }
        else x
      | _ => x) ∧
    (ReadyListed s → ReadyOrdered s → ReadyListed t ∧ ReadyOrdered t)) ∧
  (∀ (n : SessionIx) (c : Cycle) (reason : CycleEndReason) (k : Session) (s : State),
    s.session n = some k →
    let t := finishCycle n c reason s
    OnlyChanges [.cycles, .schedule, .notices] s t ∧
    let members := c.members.filterMap s.findSet
    let removed := c.members.foldl (fun u id =>
      match u.findSet id with
      | some x => removeSet x u
      | none => u) s
    let broken := members.foldl (fun u x => breakChain x [] u) removed
    t = post (.report .schedule (some (n, k.incarnation)) (.cycleChange
      { reason := reason, member := none, firstStart := c.firstStart, period := c.period
        repeats := c.repeats, begun := c.begun, lastStart := if c.begun = 0 then none else c.current
        members := c.members.length, eventTime := s.clock.rig })) (broken.withCycle n none) ∧
    (∀ x ∈ t.sets, x ∈ s.sets ∧ x.id ∉ c.members))) ∧
  ((∀ (n : SessionIx) (id : Nat) (s : State), headNotice (.memberParked n) s = some (.memberParked n id) →
    let u := dropNotice (.memberParked n) s
    (s.cycle n = none → exec (.memberParkedNotice n) s = .next u) ∧
    (∀ c, s.cycle n = some c →
      let finished := id ∈ c.members ∧ ∀ m ∈ c.members, ∃ x, s.findSet m = some x ∧ x.state = .parked
      let next := c.current.getD c.firstStart + c.period
      let remain := (c.repeats = 0 ∨ c.begun < c.repeats) ∧ next ≤ 2 ^ 48 - 1
      (¬ finished ∨ c.phase = .building ∨ c.phase = .stopping .now →
        exec (.memberParkedNotice n) s = .next u) ∧
      (finished → c.phase = .running → remain →
        exec (.memberParkedNotice n) s = .next (startPass n c next u)) ∧
      (finished → c.phase = .running → ¬ remain →
        exec (.memberParkedNotice n) s = .next (queueChecks (finishCycle n c .complete u))) ∧
      (finished → c.phase = .stopping .afterPass → remain →
        exec (.memberParkedNotice n) s = .next (queueChecks (finishCycle n c .stopped u))) ∧
      (finished → c.phase = .stopping .afterPass → ¬ remain →
        exec (.memberParkedNotice n) s = .next (queueChecks (finishCycle n c .complete u))))) ∧
  (∀ (time : Option Nat) (s : State),
    headNotice (.halt .cycleUnit) s = some (.haltEntry .cycleUnit time) →
    ∃ t, exec .haltEntryCycleUnit s = .next t ∧ OnlyChanges [.cycles, .schedule, .notices] s t ∧
      (∀ n, t.cycle n = none) ∧
      t.sets.map (·.id) = s.sets.map (·.id) ∧
      (∀ x ∈ t.sets, x.state = .applying → x.member = true → ∀ n c, s.cycle n = some c → x.id ∉ c.members) ∧
      ∀ n c k, s.cycle n = some c → s.session n = some k →
        .report .cycleUnit (some (n, k.incarnation)) (.cycleChange
          { reason := .halted, member := none, firstStart := c.firstStart, period := c.period
            repeats := c.repeats, begun := c.begun, lastStart := if c.begun = 0 then none else c.current
            members := c.members.length, eventTime := s.clock.rig }) ∈ t.notices))

/-! ### Applying a set -/

/-- R66 to R69: while STAGING, an acceptance marks its slot and the last one hands over the COMMIT request; a
failed or removed STAGE, the loss of a slot and halt entry fail the set, and nothing that concerns another set
or another state has an effect; an IDLE engine takes each of these notices and changes nothing. (A halt entry that
the engine takes after RESUME acts as one before it: assumption 47.) -/
def Obligations.StagingFollowsItsTable : Prop :=
  (∀ (k : SlotIx) (s : State), s.engine.work = none →
    (∀ take e, headNotice (.stageEnd k) s = some (.stageEnd k take e) →
      let u := dropNotice (.stageEnd k) s
      (e = .accepted → exec (.stageAcceptance k) s = .next u) ∧
      (e = .failed → exec (.stageFailure k) s = .next u) ∧
      (e = .slotLost → exec (.stageSlotLost k) s = .next u)) ∧
    (∀ take, headNotice (.engineSlotLost k) s = some (.engineSlotLost k take) →
      exec (.slotLostNotice k) s = .next (dropNotice (.engineSlotLost k) s)) ∧
    (∀ time, headNotice (.halt .applyEngine) s = some (.haltEntry .applyEngine time) →
      exec .haltEntryApplyEngine s = .next (dropNotice (.halt .applyEngine) s))) ∧
  (∀ (k : SlotIx) (w : Work) (s : State), s.engine.work = some w →
    let marked (m : SlotMark) := w.slots.map fun t => if t.slot = k then { t with mark := m } else t
    let pendingLoss := ∃ t, (w.slots.find? fun t => t.slot = k) = some t ∧ t.lossPending = true
    let fails (u : State) (c : Cause) : State :=
      let v := post (.withdraw (.stages w.take)) u
      let a := if c = .halted ∨ w.abandon = true then v else post (.busRequest .applyEngine .abandon) v
      post (.outcome w.take w.setId (.failed c)) (a.withWork none)
    (∀ take e, headNotice (.stageEnd k) s = some (.stageEnd k take e) →
      let u := dropNotice (.stageEnd k) s
      (e = .accepted →
        (take ≠ w.take ∨ w.phase ≠ .staging → exec (.stageAcceptance k) s = .next u) ∧
        (take = w.take → w.phase = .staging → pendingLoss →
          exec (.stageAcceptance k) s = .next (fails u .slotLost)) ∧
        (take = w.take → w.phase = .staging → ¬ pendingLoss →
          (∀ t ∈ w.slots, t.slot = k ∨ t.mark = .accepted) →
          exec (.stageAcceptance k) s = .next (post (.commitRequest
            { take := take, slots := w.slots.map (·.slot), sync := w.sync })
            (u.withWork (some { w with slots := marked .accepted, phase := .committing })))) ∧
        (take = w.take → w.phase = .staging → ¬ pendingLoss →
          (∃ t ∈ w.slots, t.slot ≠ k ∧ t.mark ≠ .accepted) →
          exec (.stageAcceptance k) s = .next (u.withWork (some { w with slots := marked .accepted })))) ∧
      (e = .failed → exec (.stageFailure k) s =
        .next (if take = w.take ∧ w.phase = .staging then fails u .moduleNoReply else u)) ∧
      (e = .slotLost → exec (.stageSlotLost k) s =
        .next (if take = w.take ∧ w.phase = .staging then fails u .slotLost else u))) ∧
    (∀ take, headNotice (.engineSlotLost k) s = some (.engineSlotLost k take) →
      let u := dropNotice (.engineSlotLost k) s
      (take ≠ w.take ∨ w.phase = .withdrawing ∨ w.phase = .recording →
        exec (.slotLostNotice k) s = .next u) ∧
      (take = w.take → w.phase = .committing →
        exec (.slotLostNotice k) s = .next (post (.withdraw (.commit take))
          (u.withWork (some { w with phase := .withdrawing, cause := some .slotLost })))) ∧
      (∀ t, take = w.take → w.phase = .staging → (w.slots.find? fun t => t.slot = k) = some t →
        (t.mark = .inProgress → exec (.slotLostNotice k) s = .next (u.withWork (some { w with
          slots := w.slots.map fun x => if x.slot = k then { x with lossPending := true } else x }))) ∧
        (t.mark ≠ .inProgress → exec (.slotLostNotice k) s = .next (fails u .slotLost)))) ∧
    (∀ time, headNotice (.halt .applyEngine) s = some (.haltEntry .applyEngine time) →
      let u := dropNotice (.halt .applyEngine) s
      (w.phase = .staging → exec .haltEntryApplyEngine s = .next (fails u .halted)) ∧
      (w.phase = .committing → exec .haltEntryApplyEngine s = .next (post (.withdraw (.commit w.take))
        (u.withWork (some { w with phase := .withdrawing, cause := some .halted })))) ∧
      (w.phase = .withdrawing ∨ w.phase = .recording → exec .haltEntryApplyEngine s = .next u)))

/-- R73 to R75, R79: a strobe answer commits the set and hands the Claim Unit its commit records; a withdrawn
answer fails the set with the first recorded cause, or with the controller's reason; once the records are taken
the outcome is handed over and a set with the CAPTURE flag gets its capture entry, or, with 16 entries in the list,
a CAPTURE report FULL, whose capture time is the model's choice (assumption 42). An IDLE engine takes each of these
notices and changes nothing. -/
def Obligations.CommitAnswersSettleTheSet : Prop :=
  (∀ s : State, s.engine.work = none →
    (∀ a, headNotice .commitAnswer s = some (.commitAnswer a) →
      let u := dropNotice .commitAnswer s
      (∀ time queued, a = .strobe time queued → exec .strobeAnswer s = .next u) ∧
      ((∀ time queued, a ≠ .strobe time queued) → exec .withdrawnAnswer s = .next u)) ∧
    (headNotice .recordsTaken s = some .recordsTaken →
      exec .commitRecordsTaken s = .next (dropNotice .recordsTaken s))) ∧
  (∀ (w : Work) (s : State), s.engine.work = some w →
    (∀ a, headNotice .commitAnswer s = some (.commitAnswer a) →
      let u := dropNotice .commitAnswer s
      let awaits := w.phase = .committing ∨ w.phase = .withdrawing
      (∀ time queued, a = .strobe time queued →
        (awaits → exec .strobeAnswer s = .next (post
          (.commitRecords (w.items.map fun i => ⟨i.item.channel, i.item.target, i.item.ramp, w.setId, time⟩)
            queued)
          (u.withWork (some { w with phase := .recording, cause := none, commitTime := some time })))) ∧
        (¬ awaits → exec .strobeAnswer s = .next u)) ∧
      ((∀ time queued, a ≠ .strobe time queued) → (¬ awaits → exec .withdrawnAnswer s = .next u) ∧
        (awaits → ∀ c, (w.cause = some c ∨
            w.cause = none ∧ (a = .slotLost ∧ c = .slotLost ∨ a = .safeDrive ∧ c = .halted)) →
          let v := if c = .halted ∨ w.abandon = true then u else post (.busRequest .applyEngine .abandon) u
          (w.ended = false → exec .withdrawnAnswer s =
            .next (post (.outcome w.take w.setId (.failed c)) (v.withWork none))) ∧
          (w.ended = true → exec .withdrawnAnswer s = .next (post (.teardownAnswer .applyEngine w.owner)
            (post (.outcome w.take w.setId .removed) (v.withWork none))))))) ∧
    (headNotice .recordsTaken s = some .recordsTaken →
      let u := dropNotice .recordsTaken s
      (w.phase ≠ .recording → exec .commitRecordsTaken s = .next u) ∧
      (∀ t, w.phase = .recording → w.commitTime = some t →
        let v := post (.outcome w.take w.setId (.applied t)) (u.withWork none)
        (w.ended = true → exec .commitRecordsTaken s = .next (post (.teardownAnswer .applyEngine w.owner)
          (post (.outcome w.take w.setId .removed) (u.withWork none)))) ∧
        (w.ended = false → w.capture = false → exec .commitRecordsTaken s = .next v) ∧
        (w.ended = false → w.capture = true →
          let longest := (w.items.map fun i => i.item.ramp * 1000 + i.settle).foldl max 0
          let time := min (t + longest) (2 ^ 48 - 1)
          (s.engine.captures.length < 16 → exec .commitRecordsTaken s = .next (v.withEngine
            { v.engine with
              entries := s.engine.entries + 1
              captures := s.engine.captures ++
                [{ entry := s.engine.entries + 1, take := w.take, owner := w.owner, setId := w.setId, tag := 0
                   refTime := t, captureTime := time, reading := false
                   items := w.items.map fun i => ⟨i.item.channel, some i.item.target, none, none⟩
                   slots := [] }] })) ∧
          (16 ≤ s.engine.captures.length → ∀ k, s.session w.owner = some k →
            exec .commitRecordsTaken s = .next (post (.report .applyEngine (some (w.owner, k.incarnation))
              (.capture { setId := w.setId, tag := 0, refTime := t, captureTime := time
                          items := w.items.map fun i => ⟨i.item.channel, .full, 0⟩ })) v))))))

/-- R52, R80, R81, R84: READBACK is refused or makes a capture entry and its capture at once; a WAITING entry whose
capture time is reached is captured, once the Schedule has taken the outcome of its set and so handed over the
SET_RESULT; a capture gives each ABSENT channel its result and asks one READBACK of
every slot with channels to read, or, while HALTED, reads none; the end of a READBACK is taken into its entry,
and an entry whose READBACKs have all ended goes to the Claim Unit. (A CAPTURE_EXPIRY before its time, or of an
entry that is being read, changes nothing: assumption 32; an entry names the take of its set by a number of the model's
own, 0 for a READBACK: assumption 27; the order of the READBACKs and of their indices: assumption
46.) -/
def Obligations.CapturesAreMadeAndRead : Prop :=
  (∀ (h : Header) (first last : Byte) (n : SessionIx) (s : State),
    AtBlock (.told .applyEngine) h (.readback first last) n s →
    let r : Request := .readback first last
    ((31 < first.toNat ∨ 31 < last.toNat ∨ last.toNat < first.toNat) →
      exec (.readback h first last) s = .next (refuse h r .badField s)) ∧
    (∀ a b, chanOf first = some a → chanOf last = some b → a ≤ b →
      (16 ≤ s.engine.captures.length →
        exec (.readback h first last) s = .next (refuse h r .captureFull s)) ∧
      (s.engine.captures.length < 16 →
        let channels := allChannels.filter fun c => decide (a ≤ c) && decide (c ≤ b)
        let e : CaptureEntry :=
          { entry := s.engine.entries + 1, take := 0, owner := n, setId := 0, tag := h.seq.toNat
            refTime := s.clock.rig, captureTime := s.clock.rig, reading := false
            items := channels.map fun c => ⟨c, none, none, none⟩, slots := [] }
        exec (.readback h first last) s = .next (answer h r (doneWith (u16 h.seq.toNat ++ u8 channels.length))
          (makeCapture e (s.withEngine
            { s.engine with entries := e.entry, captures := s.engine.captures ++ [e] })))))) ∧
  (∀ (entry : Nat) (e : CaptureEntry) (s : State),
    (s.engine.captures.find? fun x => x.entry = entry) = some e →
    (e.reading = false → e.captureTime ≤ s.clock.rig → (∀ id o, .outcome e.take id o ∉ s.notices) →
      exec (.captureExpiry entry) s = .next (makeCapture e s)) ∧
    (e.reading = true ∨ s.clock.rig < e.captureTime ∨ (∃ id o, .outcome e.take id o ∈ s.notices) →
      exec (.captureExpiry entry) s = .next s)) ∧
  (∀ (e : CaptureEntry) (s : State),
    let swap (x : CaptureEntry) := s.engine.captures.map fun y => if y.entry = e.entry then x else y
    (s.isHalted = true → makeCapture e s = post (.captureComplete e.entry) (s.withCaptures (swap { e with
      reading := true, slots := []
      items := e.items.map fun i =>
        { i with result := some (if s.channel i.channel = none then .absent else .halted) } }))) ∧
    (s.isHalted = false →
      let absent (i : CaptureItem) := (s.channel i.channel).isNone || !s.bus.live.get (slotOfChan i.channel)
      let items := e.items.map fun i => if absent i then { i with result := some .absent } else i
      let due (k : SlotIx) := items.filter fun i => slotOfChan i.channel = k && i.result.isNone
      let slots := allSlots.filter fun k => !(due k).isEmpty
      let t := (postAll (slots.map fun k => .busRequest .applyEngine
        (.readback k (.capture e.entry) ((due k).map fun i => indexOfChan i.channel))) s).withCaptures
          (swap { e with reading := true, items := items, slots := slots.map fun k => ⟨k, none⟩ })
      makeCapture e s = if slots = [] then post (.captureComplete e.entry) t else t)) ∧
  (∀ (entry : Nat) (k : SlotIx) (r : ReadEnd) (e : CaptureEntry) (s : State),
    headNotice (.readEnd entry k) s = some (.readEnd entry k r) →
    (s.engine.captures.find? fun x => x.entry = entry) = some e →
    let waits (i : CaptureItem) := slotOfChan i.channel = k ∧ i.result = none
    let x : CaptureEntry := { e with
      items := endRead k r e.items
      slots := e.slots.map fun y => if y.slot = k then { y with ended := some s.clock.rig } else y }
    let t := (dropNotice (.readEnd entry k) s).withCaptures
      (s.engine.captures.map fun y => if y.entry = e.entry then x else y)
    exec (.captureReadbackEnd entry k) s = .next
      (if ∀ y ∈ e.slots, y.slot = k ∨ y.ended ≠ none then post (.captureComplete e.entry) t else t) ∧
    (∀ i ∈ e.items, ¬ waits i → i ∈ x.items) ∧
    ((∀ v, r ≠ .answered v) → x.items =
      e.items.map fun i => if waits i then { i with result := some .absent } else i) ∧
    (∀ v, r = .answered v → v.length = (e.items.filter waits).length →
      x.items.map (·.result) = e.items.map (·.result) ∧
      (x.items.filter waits).map (·.read) = v.map some))

/-- R82, R83: the Claim Unit takes the items of a complete entry in order, and the entry leaves with a CAPTURE
report. A value read for a channel that still carries the set's commit is VALUE and is recorded; a value
outside the tolerance of a set capture's target is a DEVIATION. (That the DEVIATIONs go in item order: assumption
46.) -/
def Obligations.CaptureItemsAreTaken : Prop :=
  (∀ (entry : Nat) (e : CaptureEntry) (k : Session) (s : State),
    headNotice (.captureComplete entry) s = some (.captureComplete entry) →
    (s.engine.captures.find? fun x => x.entry = entry) = some e → s.session e.owner = some k →
    let taken := e.items.foldl (takeItem e) (dropNotice (.captureComplete entry) s, [])
    exec (.captureItems entry) s = .next (post (.report .applyEngine (some (e.owner, k.incarnation))
      (.capture { setId := e.setId, tag := e.tag, refTime := e.refTime, captureTime := e.captureTime
                  items := taken.2 }))
      (taken.1.withCaptures (s.engine.captures.filter fun x => x.entry ≠ e.entry)))) ∧
  (∀ (e : CaptureEntry) (s : State) (done : List CapturedItem) (i : CaptureItem),
    (∀ r, i.result = some r → r ≠ .value → takeItem e (s, done) i = (s, done ++ [⟨i.channel, r, 0⟩])) ∧
    (i.result = none → s.channel i.channel = none →
      takeItem e (s, done) i = (s, done ++ [⟨i.channel, .absent, 0⟩])) ∧
    (∀ x, i.result = none → s.channel i.channel = some x →
      (s.isHalted = true → takeItem e (s, done) i = (s, done ++ [⟨i.channel, .halted, 0⟩])) ∧
      (s.isHalted = false → e.setId ≠ 0 → x.appliedBy ≠ some e.setId →
        takeItem e (s, done) i = (s, done ++ [⟨i.channel, .superseded, 0⟩])) ∧
      (∀ v, s.isHalted = false → (e.setId = 0 ∨ x.appliedBy = some e.setId) → i.read = some v →
        let readAt := ((e.slots.find? fun y => y.slot = slotOfChan i.channel).bind (·.ended)).getD 0
        let keep (y : Channel) := s.withChannels (s.claims.channels.put i.channel (some y))
        let items := done ++ [⟨i.channel, .value, v⟩]
        (i.target = none →
          takeItem e (s, done) i = (keep { x with lastReadback := some (v, readAt) }, items)) ∧
        (∀ g, i.target = some g →
          (|v - g| ≤ x.tolerance →
            takeItem e (s, done) i = (keep { x with lastReadback := some (v, readAt) }, items)) ∧
          ((x.tolerance : Int) < |v - g| →
            takeItem e (s, done) i = (post (.report .applyEngine none (.deviation
              { channel := i.channel, setId := e.setId, target := g, read := v, tolerance := x.tolerance
                readTime := readAt }))
              (keep { x with lastReadback := some (v, readAt), deviation := true }), items))))))

/-! ### Trigger lines, SYNC_OUT and halt -/

/-- R102 to R104: a transition starts, ends or completes a qualification; a qualified edge of an enabled line
that is of the configured kind is counted, stamped and handed to the Schedule; TRIGGER_CONFIG follows its table. (That
the edge handed over carries whether the part is HALTED is the model's clause: assumption 7; a qualification timer
before its time: assumption 32; a new debounce that ends exactly now: assumption 36.) R106, R107: a SYNC commit starts
a pulse or extends the one in progress, the pulse's end takes the line to the inactive level, and SYNC_CONFIG changes
the configured values, and the level only while INACTIVE. (PULSE_END before its time: assumption 32; the level field:
assumption 35.) -/
def Obligations.TriggerAndSyncLinesFollowTheirRules : Prop :=
  (∀ (l : TrigLine) (level : Level) (s : State),
    let r := s.trig l
    (r.candidate = none → level = r.qualified → exec (.trigTransition l level) s = .next s) ∧
    (r.candidate = none → level ≠ r.qualified → r.debounce = .off →
      exec (.trigTransition l level) s = .next (qualify l s.clock.rig s)) ∧
    (r.candidate = none → level ≠ r.qualified → r.debounce ≠ .off →
      exec (.trigTransition l level) s = .next (s.withTrig l
        { r with candidate := some s.clock.rig, timer := some (s.clock.uptime + debounceTime r.debounce) })) ∧
    (r.candidate ≠ none → level = r.qualified →
      exec (.trigTransition l level) s = .next (s.withTrig l { r with candidate := none, timer := none })) ∧
    (r.candidate ≠ none → level ≠ r.qualified → exec (.trigTransition l level) s = .next s)) ∧
  (∀ (l : TrigLine) (stamp t : Nat) (s : State), (s.trig l).candidate = some stamp → (s.trig l).timer = some t →
    exec (.qualificationTimerExpiry l) s = .next (if t ≤ s.clock.uptime then qualify l stamp s else s)) ∧
  (∀ (l : TrigLine) (stamp : Nat) (s : State),
    let r := s.trig l
    let rising := r.qualified = .low
    let acted := r.enabled = true ∧ (r.edge = .both ∨ rising ∧ r.edge = .rising ∨ ¬ rising ∧ r.edge = .falling)
    let q := { r with
      qualified := if r.qualified = .low then .high else .low, candidate := none, timer := none }
    (acted → qualify l stamp s = post (.edge l stamp s.trigger.halted.isSome)
      (s.withTrig l { q with count := (r.count + 1) % 2 ^ 32, lastStamp := some stamp })) ∧
    (¬ acted → qualify l stamp s = s.withTrig l q)) ∧
  (∀ (h : Header) (line enabled edge debounce clear : Byte) (n : SessionIx) (s : State),
    let r : Request := .triggerConfig line enabled edge debounce clear
    let i : Instr := .triggerConfig h line enabled edge debounce clear
    ((s.link h.link).inHand = some (h, r) → boundSession h s = some n →
      trigLineOf line = none ∨ flagOf enabled = none ∨ edgeOf edge = none ∨ debounceOf debounce = none ∨
        flagOf clear = none →
      exec i s = .next (refuse h r .badField s)) ∧
    (∀ l e d, AtBlock .notTold h r n s →
      trigLineOf line = some l → edgeOf edge = some e → debounceOf debounce = some d →
      let foreign := ∃ x ∈ s.sets, x.state = .pending ∧ x.due = .trigger l ∧ x.owner ≠ n
      let x := s.trig l
      let y := { x with
        enabled := enabled = 1, edge := e, debounce := d
        count := if clear = 1 then 0 else x.count
        lastStamp := if clear = 1 then none else x.lastStamp }
      let u := s.withTrig l y
      let reply (t : State) := (Host.Outcome.next (answer h r (doneWith (wFlag (t.trig l).enabled ++
        u8 (edgeCode (t.trig l).edge) ++ u8 (debounceCode (t.trig l).debounce) ++ u32 (t.trig l).count ++
        u8 (levelCode (t.trig l).qualified))) t) : Host.Outcome State Fault Refusal)
      (foreign → exec i s = .next (refuse h r .lineInUse s)) ∧
      (¬ foreign → x.candidate = none → exec i s = reply u) ∧
      (∀ c, ¬ foreign → x.candidate = some c →
        ((d = .off ∨ c + debounceTime d < s.clock.rig) → exec i s = reply (qualify l c u)) ∧
        (d ≠ .off → s.clock.rig ≤ c + debounceTime d → exec i s = reply (s.withTrig l
          { y with timer := some (s.clock.uptime + (c + debounceTime d - s.clock.rig)) }))))) ∧
  (∀ (time : Nat) (s : State), headNotice .syncCommit s = some (.syncCommit time) →
    let u := dropNotice .syncCommit s
    let x := s.trigger.sync
    let keep (y : SyncOut) := u.withTrigger { s.trigger with sync := y }
    (x.pulse = none → exec .syncCommitNotice s = .next (keep { x with
      pulse := some ⟨x.width, min (time + x.width) (2 ^ 48 - 1)⟩, count := (x.count + 1) % 2 ^ 32
      level := if x.polarity = .activeHigh then .high else .low })) ∧
    (∀ p, x.pulse = some p → exec .syncCommitNotice s = .next (keep { x with
      pulse := some { p with pulseEnd := min (time + p.width) (2 ^ 48 - 1) } }))) ∧
  (∀ (p : Pulse) (s : State), s.trigger.sync.pulse = some p →
    exec .pulseEnd s = .next (if p.pulseEnd ≤ s.clock.rig then
      s.withTrigger { s.trigger with sync := { s.trigger.sync with
        pulse := none, level := if s.trigger.sync.polarity = .activeHigh then .low else .high } } else s)) ∧
  [Debounce.off, .us5, .us50, .us500, .ms5].map debounceTime = [0, 5, 50, 500, 5000] ∧
  (∀ (h : Header) (polarity : Byte) (width : Half) (n : SessionIx) (s : State),
    let r : Request := .syncConfig polarity width
    ((s.link h.link).inHand = some (h, r) → boundSession h s = some n →
      polarityOf polarity = none ∨ width.toNat < 1 ∨ 1000 < width.toNat →
      exec (.syncConfig h polarity width) s = .next (refuse h r .badField s)) ∧
    (∀ p, AtBlock .notTold h r n s → polarityOf polarity = some p → 1 ≤ width.toNat → width.toNat ≤ 1000 →
      exec (.syncConfig h polarity width) s = .next (answer h r
        (doneWith ([polarity] ++ u16 width.toNat))
        (s.withTrigger { s.trigger with sync := { s.trigger.sync with
          polarity := p, width := width.toNat
          level := if s.trigger.sync.pulse = none then (if p = .activeHigh then .low else .high)
            else s.trigger.sync.level } }))))

/-- R108 to R110, R112, R113: the HALT monitor follows its table; halt entry records its cause and time, tells
the five blocks and reports if a session is open; HALT_NOW enters it once; RESUME leaves it only with the monitor
RELEASED. (The monitor's timer before its time: assumption 32; the bytes of the HALT_NOW and RESUME replies:
assumption 21.) -/
def Obligations.HaltIsEnteredAndLeft : Prop :=
  ∀ s : State,
    let enter (c : HaltCause) (n : Option SessionIx) (t : State) : State :=
      (t.withTrigger { t.trigger with halted := some ⟨c, s.clock.rig⟩ }).withNotices (t.notices ++
        [.haltEntry .schedule (some s.clock.rig), .haltEntry .cycleUnit (some s.clock.rig),
         .haltEntry .applyEngine (some s.clock.rig), .haltEntry .claimUnit (some s.clock.rig),
         .haltEntry .busController (some s.clock.rig)] ++
        if ∃ m, (s.session m).isSome = true then [.report .triggerUnit none (.haltChange
           { cause := some c, session := n, eventTime := s.clock.rig })] else [])
    let monitor (m : Monitor) : State := s.withTrigger { s.trigger with monitor := m }
    (exec .haltLineAssert s = .next (if s.trigger.monitor = .released then
      monitor (.qualifying (s.clock.uptime + 20)) else s)) ∧
    (exec .haltLineDeassert s = .next (monitor .released)) ∧
    (∀ t, s.trigger.monitor = .qualifying t →
      (s.clock.uptime < t → exec .haltMonitorTimerExpiry s = .next s) ∧
      (t ≤ s.clock.uptime → s.trigger.halted = none →
        exec .haltMonitorTimerExpiry s = .next (enter .line none (monitor .asserted))) ∧
      (t ≤ s.clock.uptime → s.trigger.halted ≠ none →
        exec .haltMonitorTimerExpiry s = .next (monitor .asserted))) ∧
    (∀ (h : Header) (n : SessionIx), AtBlock .notTold h .haltNow n s →
      (s.trigger.halted = none → exec (.haltNow h) s = .next (answer h .haltNow
        (doneWith (u8 1 ++ u8 1 ++ u8 1 ++ u8 1 ++ u48 s.clock.rig)) (enter (.request n) (some n) s))) ∧
      (∀ x, s.trigger.halted = some x → exec (.haltNow h) s = .next (answer h .haltNow
        (doneWith (u8 0 ++ u8 1 ++ u8 (haltCauseCode x.cause) ++ u8 1 ++ u48 x.time)) s))) ∧
    (∀ (h : Header) (n : SessionIx), AtBlock .notTold h .resume n s →
      (s.trigger.halted = none → exec (.resume h) s = .next (answer h .resume (doneWith (u8 0)) s)) ∧
      (s.trigger.halted ≠ none → s.trigger.monitor ≠ .released →
        exec (.resume h) s = .next (refuse h .resume .lineAsserted s)) ∧
      (s.trigger.halted ≠ none → s.trigger.monitor = .released →
        exec (.resume h) s = .next (answer h .resume (doneWith (u8 0))
          (post (.report .triggerUnit none (.haltChange
              { cause := none, session := some n, eventTime := s.clock.rig }))
            (s.withTrigger { s.trigger with halted := none })))))

/-! ### Slots -/

/-- R117, R119, R121, R122, R131: what a change of a slot's state does. Leaving a powered state switches the
power off and tells the bus controller, and, from READY, the Claim Unit and an engine whose set touches the
slot; a slot taken to POWERING has its rail on; every change writes the state time and reports. -/
def Obligations.SlotsChangeState : Prop :=
  ∀ (k : SlotIx) (s : State),
    let x := s.slot k
    let change (y : Slot) : Notice := .report .slotController none (.slotChange
      { slot := k, state := y.state, previous := x.state, reading := y.reading
        fault := if y.state = .fault then y.fault else none, rail := y.rail
        held := if y.state = .ready then some false else none
        summary := if y.state = .ready then y.descriptor.map fun d => (d.model, d.serial, d.count) else none
        eventTime := s.clock.rig })
    let off := { x with enable := none, held := false, settleTimer := none, powerTimer := none }
    let bare := { off with rail := none, descriptor := none, fault := none }
    (∀ y : Slot,
      let z := { y with stateTime := s.clock.rig }
      let t := moveTo k y s
      OnlyChanges [.slots, .modules, .notices] s t ∧ t.slots = s.slots.put k z ∧
      (x.state.powered = false → t.modules = s.modules ∧ t.notices = s.notices ++ [change z]) ∧
      (x.state.powered = true → t.modules = s.modules.put k ⟨false, [], Table.const .off⟩ ∧
        t.notices = s.notices ++ [.slotLeftPowered k] ++
          (if x.state = .ready then [.slotLeftReady k] ++
            (match s.engine.work with
              | some w => if w.slots.any (fun y => y.slot = k) then [.engineSlotLost k w.take] else []
              | none => []) else []) ++ [change z])) ∧
    (settle k s = moveTo k { bare with state := .settling, settleTimer := some (s.clock.uptime + 50000) } s) ∧
    (∀ f, faultSlot k f s = moveTo k { off with state := .fault, fault := some f } s) ∧
    (∀ rail,
      let z := { bare with
        state := .powering, rail := some rail, enable := some rail
        powerTimer := some (s.clock.uptime + 20000), stateTime := s.clock.rig }
      let t := powerUp k rail s
      let u := ((s.withSlots (s.slots.put k z)).withModules
        (s.modules.put k ⟨true, [], Table.const .stored⟩)).withNotices
          (s.notices ++ [change z, .slotPowered k])
      (x.powerGood = false → x.overcurrent = false → t = u) ∧
      (x.powerGood = true → x.overcurrent = false → t = identify k u) ∧
      (x.overcurrent = true → (t.slot k).state = .fault ∧ (t.slot k).fault = some .overcurrent ∧
        (t.slot k).enable = none)) ∧
    (judge k s = match x.reading with
      | .vacant => moveTo k { bare with state := .empty } s
      | .partialSeat => faultSlot k .misseated s
      | .seatedLow => powerUp k .v12 s
      | .seatedHigh => powerUp k .v24 s)

/-- R116, R118 to R120, R122, R127, R129: the lines, the timers and the bus failures of a slot take it along
the table of R117. (A settle or power-good timer before its time: assumption 32; OVERCURRENT's deasserted level:
assumption 25.) -/
def Obligations.SlotLinesFollowTheTable : Prop :=
  ∀ (k : SlotIx) (s : State),
    let x := s.slot k
    let empty (t : State) := moveTo k { t.slot k with
      state := .empty, rail := none, descriptor := none, fault := none, enable := none, held := false
      settleTimer := none, powerTimer := none } t
    (∀ sense : Sense,
      let r := readingOf sense
      let y := { x with sense := sense, reading := r }
      let u := s.withSlot k y
      let i : Instr := .readingChange k sense
      (r = x.reading → exec i s = .next u) ∧
      (r ≠ x.reading →
        (x.state = .empty → r ≠ .vacant → exec i s = .next (settle k u)) ∧
        (x.state = .settling →
          exec i s = .next (s.withSlot k { y with settleTimer := some (s.clock.uptime + 50000) })) ∧
        (x.state.powered = true → r = .vacant → exec i s = .next (empty u)) ∧
        (x.state.powered = true → r ≠ .vacant → exec i s = .next (settle k u)) ∧
        (x.state = .fault → r = .vacant → exec i s = .next (empty u)) ∧
        (x.state = .fault → r ≠ .vacant → exec i s = .next u) ∧
        (x.state = .disabled → exec i s = .next u))) ∧
    (∀ t, x.state = .settling → x.settleTimer = some t →
      exec (.settleTimerExpiry k) s = .next (if t ≤ s.clock.uptime then judge k s else s)) ∧
    (let u := s.withSlot k { x with powerGood := true };
      exec (.powerGoodAssert k) s = .next (if x.state = .powering then identify k u else u)) ∧
    (∀ t, x.state = .powering → x.powerTimer = some t →
      exec (.powerGoodTimerExpiry k) s =
        .next (if t ≤ s.clock.uptime then faultSlot k .noPower s else s)) ∧
    (let u := s.withSlot k { x with powerGood := false };
      exec (.powerGoodDeassert k) s =
        .next (if x.state = .identifying ∨ x.state = .ready then faultSlot k .noPower u else u)) ∧
    (∀ asserted,
      let u := s.withSlot k { x with overcurrent := asserted }
      exec (.overcurrent k asserted) s =
        .next (if asserted = true ∧ x.state.powered = true then faultSlot k .overcurrent u else u)) ∧
    (headNotice (.busToSlot k) s = some (.busFailure k) →
      let u := dropNotice (.busToSlot k) s
      exec (.busFailureNotice k) s =
        .next (if x.state = .identifying ∨ x.state = .ready then faultSlot k .noReply u else u))

/-- R122 to R129, R131, R145: a descriptor is read by its layout and is valid when it passes the checks of R124;
identification asks for a DESCRIBE, judges the descriptor that answers it and makes the slot
READY, after a held readback where the held flag is set, with SLOT_CHANGE at IDENTIFYING and at READY; SLOT_RESET,
SLOT_DISABLE and SLOT_ENABLE follow their rules. (The state that SLOT_RESET and SLOT_ENABLE answer when an input of
the slot is asserted already: assumption
18; that SLOT_DISABLE makes the channels ABSENT in its own event, after its owner check, and takes what the Claim Unit
was told of the slot before it: assumption 24.) -/
def Obligations.SlotsIdentifyAndTakeRequests : Prop :=
  let ready (k : SlotIx) (x : Slot) (d : Descriptor) (held : Bool) (now : Nat) : Notice :=
    .report .slotController none (.slotChange
      { slot := k, state := .ready, previous := .identifying, reading := x.reading, fault := none
        rail := x.rail, held := some held, summary := some (d.model, d.serial, d.count), eventTime := now })
  (∀ (k : SlotIx) (s : State),
    let x := s.slot k
    let t := identify k s
    OnlyChanges [.slots, .notices] s t ∧
    t.slots = s.slots.put k { x with
      state := .identifying, powerTimer := none, ident := x.ident + 1, stateTime := s.clock.rig } ∧
    t.notices = s.notices ++ [.report .slotController none (.slotChange
      { slot := k, state := .identifying, previous := x.state, reading := x.reading, fault := none
        rail := x.rail, held := none, summary := none, eventTime := s.clock.rig }),
      .busRequest (.slotController k) (.describe k (x.ident + 1))]) ∧
  (∀ (k : SlotIx) (ident : Nat) (bytes : List Byte) (s : State),
    headNotice (.busToSlot k) s = some (.describeReply k ident bytes) →
    let x := s.slot k
    let u := dropNotice (.busToSlot k) s
    let d := readDescriptor bytes x.rail
    let v := u.withSlot k { x with descriptor := some d }
    (x.state ≠ .identifying ∨ x.ident ≠ ident → exec (.describeReply k) s = .next u) ∧
    (x.state = .identifying → x.ident = ident →
      (d.valid = false → exec (.describeReply k) s = .next (faultSlot k .badDescriptor v)) ∧
      (d.valid = true → x.held = true → exec (.describeReply k) s = .next (post
        (.busRequest (.slotController k) (.readback k (.held ident) (List.range d.count))) v)) ∧
      (d.valid = true → x.held = false → ∃ t, exec (.describeReply k) s = .next t ∧
        t.slots = s.slots.put k { x with state := .ready, descriptor := some d, stateTime := s.clock.rig } ∧
        t.notices = u.notices ++ [ready k x d false s.clock.rig, .slotReady k d none]))) ∧
  (∀ (k : SlotIx) (ident : Nat) (values : List Int) (s : State),
    headNotice (.busToSlot k) s = some (.heldReply k ident values) →
    let x := s.slot k
    (x.state ≠ .identifying ∨ x.ident ≠ ident ∨ x.held = false →
      exec (.heldReadbackReply k) s = .next (dropNotice (.busToSlot k) s)) ∧
    (∀ d, x.state = .identifying → x.ident = ident → x.held = true → x.descriptor = some d →
      ∃ t, exec (.heldReadbackReply k) s = .next t ∧
        t.slots = s.slots.put k { x with state := .ready, held := false, stateTime := s.clock.rig } ∧
        t.notices = (dropNotice (.busToSlot k) s).notices ++
          [ready k x d true s.clock.rig, .slotReady k d (some ⟨values, s.clock.rig⟩)])) ∧
  (∀ (h : Header) (slot : Byte) (n : SessionIx) (s : State),
    AtBlock .notTold h (.slotReset slot) n s ∨ AtBlock .notTold h (.slotDisable slot) n s ∨
      AtBlock .notTold h (.slotEnable slot) n s →
    let reset : Request := .slotReset slot
    let disable : Request := .slotDisable slot
    let enable : Request := .slotEnable slot
    let state (r : Reading) (p : Nat) : Nat :=
      match r with | .vacant => 0 | .partialSeat => p | .seatedLow => 2 | .seatedHigh => 2
    (slotOf slot = none →
      (AtBlock .notTold h reset n s → exec (.slotReset h slot) s = .next (refuse h reset .badField s)) ∧
      (AtBlock .notTold h disable n s →
        exec (.slotDisable h slot) s = .next (refuse h disable .badField s)) ∧
      (AtBlock .notTold h enable n s →
        exec (.slotEnable h slot) s = .next (refuse h enable .badField s))) ∧
    (∀ k, slotOf slot = some k →
      let x := s.slot k
      (AtBlock .notTold h reset n s →
        (x.state ≠ .fault → exec (.slotReset h slot) s = .next (refuse h reset .slotState s)) ∧
        (x.state = .fault → exec (.slotReset h slot) s =
          .next (answer h reset (doneWith (u8 (state x.reading 1)))
            (if x.reading = .partialSeat then settle k s else judge k s)))) ∧
      (AtBlock .notTold h enable n s →
        (x.state ≠ .disabled → exec (.slotEnable h slot) s = .next (refuse h enable .slotState s)) ∧
        (x.state = .disabled → exec (.slotEnable h slot) s =
          .next (answer h enable (doneWith (u8 (state x.reading 5))) (judge k s)))) ∧
      (AtBlock .notTold h disable n s →
        let foreign := ∃ c y m, slotOfChan c = k ∧ s.channel c = some y ∧ y.owner = some m ∧ m ≠ n
        let gone := moveTo k { x with
          state := .disabled, rail := none, descriptor := none, fault := none, enable := none, held := false
          settleTimer := none, powerTimer := none } s
        (x.state = .disabled → exec (.slotDisable h slot) s = .next (refuse h disable .slotState s)) ∧
        (x.state ≠ .disabled → foreign →
          exec (.slotDisable h slot) s = .next (refuse h disable .inUse s)) ∧
        (x.state ≠ .disabled → x.state ≠ .ready → ¬ foreign →
          exec (.slotDisable h slot) s = .next (answer h disable (doneWith []) gone)) ∧
        (x.state = .ready → ¬ foreign → ∃ t,
          exec (.slotDisable h slot) s = .next (answer h disable (doneWith []) t) ∧
          t.slots = gone.slots ∧ t.modules = gone.modules ∧
          (∀ c, slotOfChan c = k → t.channel c = none) ∧
          (headNotice (.slotToClaim k) s = none →
            let lost := (allChannels.filter fun c => slotOfChan c = k && s.owns n c).map fun c =>
              (⟨c, n⟩ : LostChannel)
            exec (.slotLeftReady k) gone = .next t ∧
            (∀ c, slotOfChan c ≠ k → t.channel c = s.channel c) ∧
            (lost ≠ [] → ∃ before, t.notices = before ++ [.lostToAssembler lost, .lostToSchedule lost]) ∧
            (lost = [] → ∀ x, .lostToAssembler x ∈ t.notices ∨ .lostToSchedule x ∈ t.notices →
              .lostToAssembler x ∈ s.notices ∨ .lostToSchedule x ∈ s.notices)))))) ∧
  (∀ (b : List Byte) (rail : Option Rail),
    let d := readDescriptor b rail
    let value (i : Nat) : Int := (rd16 b i).toInt
    d.railCode = rd8 b 0 ∧ d.model = (rd16 b 1).toNat ∧ d.serial = (rd32 b 3).toNat ∧
    d.count = (rd8 b 7).toNat ∧
    d.entries = (List.range (min d.count 8)).map (fun i =>
      { kind := rd8 b (8 + 11 * i), lower := value (9 + 11 * i), upper := value (11 + 11 * i)
        safe := value (13 + 11 * i), tolerance := (rd16 b (15 + 11 * i)).toNat
        settle := (rd16 b (17 + 11 * i)).toNat }) ∧
    (d.valid = true ↔ (b.map (·.toNat)).sum % 256 = 0 ∧ 1 ≤ d.count ∧ d.count ≤ 8 ∧
      (d.railCode.toNat = 0 ∧ rail = some .v12 ∨ d.railCode.toNat = 1 ∧ rail = some .v24) ∧
      ∀ e ∈ d.entries, e.kind.toNat ≤ 2 ∧ e.lower ≤ e.safe ∧ e.safe ≤ e.upper ∧
        (e.kind.toNat = 2 → e.lower = 0 ∧ e.upper = 1) ∧ e.tolerance ≤ 32767))

/-! ### The module bus -/

/-- R72, R135, R139 to R141, R146: a request for a slot without live mark is answered "slot lost"; any other
joins its class queue, a DRIVE_SAFE merged with one that waits for its slot and a broadcast queued once; the
bus is then granted if it is IDLE. A STAGE that stands behind a DRIVE_SAFE for its slot, or, once the part runs
again, behind halt entry's SAFE_ALL, waits for it (R16, R112, R136; assumption 9). Withdrawals, the live marks, halt
entry and the COMMIT request follow their rules. (The order inside a merged DRIVE_SAFE: assumption 44; a COMMIT
request that names a slot already gone is answered slot lost: assumption 37; that "slot lost" has no effect at the
Slot Controller and the Claim Unit, which are handed no notice of it: assumption 56.) -/
def Obligations.BusTakesRequests : Prop :=
  (∀ (q : Requester) (t : Txn) (s : State), headNotice (requesterLane q) s = some (.busRequest q t) →
    let u := dropNotice (requesterLane q) s
    let behind (k : SlotIx) : Prop := ∃ front y back, s.notices = front ++ [y] ++ back ∧
      (∀ z ∈ front ++ [y], noticeLane z ≠ requesterLane q) ∧
      ((∃ r vs, y = .busRequest r (.driveSafe k vs)) ∨
        (∃ time, y = .haltEntry .busController time) ∧ s.trigger.halted = none)
    let waits : Prop := ∃ k take items, t = .stage k take items ∧ behind k
    (waits → exec (.busRequest q) s = .next s) ∧
    (¬ waits → (∀ k, t.slot = some k → s.bus.live.get k = true) →
      exec (.busRequest q) s = .next (grantBus (u.withBus (s.bus.enqueue t)))) ∧
    (∀ k take items, ¬ waits → t = .stage k take items → s.bus.live.get k = false →
      exec (.busRequest q) s = .next (post (.stageEnd k take .slotLost) u)) ∧
    (∀ k e idx, t = .readback k (.capture e) idx → s.bus.live.get k = false →
      exec (.busRequest q) s = .next (post (.readEnd e k .removed) u)) ∧
    (∀ k, t.slot = some k → s.bus.live.get k = false → (∀ n items, t ≠ .stage k n items) →
      (∀ e idx, t ≠ .readback k (.capture e) idx) → exec (.busRequest q) s = .next u)) ∧
  (∀ (b : Bus) (k : SlotIx) (vs : List (Nat × Int)),
    (∀ n items, b.enqueue (.stage k n items) = { b with applyQ := b.applyQ ++ [.stage k n items] }) ∧
    (∀ n, b.enqueue (.describe k n) = { b with identifyQ := b.identifyQ ++ [.describe k n] }) ∧
    (∀ n idx, b.enqueue (.readback k (.held n) idx) =
      { b with identifyQ := b.identifyQ ++ [.readback k (.held n) idx] }) ∧
    (∀ n idx, b.enqueue (.readback k (.capture n) idx) =
      { b with readbackQ := b.readbackQ ++ [.readback k (.capture n) idx] }) ∧
    (b.enqueue .abandon = if .abandon ∈ b.applyQ then b else { b with applyQ := b.applyQ ++ [.abandon] }) ∧
    (b.enqueue .safeAll = if .safeAll ∈ b.safeQ then b else { b with safeQ := b.safeQ ++ [.safeAll] }) ∧
    ((∀ old, .driveSafe k old ∉ b.safeQ) →
      b.enqueue (.driveSafe k vs) = { b with safeQ := b.safeQ ++ [.driveSafe k vs] }) ∧
    (∀ old front back, b.safeQ = front ++ [.driveSafe k old] ++ back →
      (∀ x, .driveSafe k x ∉ front) → (∀ x, .driveSafe k x ∉ back) →
      ∃ merged, b.enqueue (.driveSafe k vs) = { b with safeQ := front ++ [.driveSafe k merged] ++ back } ∧
        merged.map (·.1) = old.map (·.1) ++ (vs.filter fun v => v.1 ∉ old.map (·.1)).map (·.1) ∧
        ((vs.map (·.1)).Nodup → (old.map (·.1)).Nodup →
          ∀ v, v ∈ merged ↔ v ∈ vs ∨ v ∈ old ∧ v.1 ∉ vs.map (·.1)))) ∧
  (∀ (w : Withdrawn) (s : State), headNotice .engineToBus s = some (.withdraw w) →
    let u := dropNotice .engineToBus s
    (∀ take, w = .stages take → exec .withdrawal s = .next (u.withBus { s.bus with
      applyQ := s.bus.applyQ.filter fun t => !t.isStageOf take })) ∧
    (∀ es, w = .readbacks es → exec .withdrawal s = .next (u.withBus { s.bus with
      readbackQ := s.bus.readbackQ.filter fun t => !t.isReadOf es })) ∧
    (∀ take c, w = .commit take → s.bus.commit = some c → c.take = take → exec .withdrawal s =
      .next (post (.commitAnswer .byRequest) (u.withBus { s.bus with commit := none }))) ∧
    (∀ take, w = .commit take → (∀ c, s.bus.commit = some c → c.take ≠ take) →
      exec .withdrawal s = .next u)) ∧
  (∀ (k : SlotIx) (s : State), headNotice (.slotToBus k) s = some (.slotPowered k) →
    exec (.slotPoweredNotice k) s = .next ((dropNotice (.slotToBus k) s).withBus
      { s.bus with live := s.bus.live.put k true })) ∧
  (∀ (k : SlotIx) (s : State), headNotice (.slotToBus k) s = some (.slotLeftPowered k) →
    let u := dropNotice (.slotToBus k) s
    let other (q : List Txn) := q.filter fun t => t.slot ≠ some k
    (s.bus.live.get k = false → exec (.leftPoweredNotice k) s = .next u) ∧
    (s.bus.live.get k = true → ∃ t, exec (.leftPoweredNotice k) s = .next t ∧ OnlyChanges [.bus, .notices] s t ∧
      t.bus = { s.bus with
        live := s.bus.live.put k false, safeQ := other s.bus.safeQ, applyQ := other s.bus.applyQ
        identifyQ := other s.bus.identifyQ, readbackQ := other s.bus.readbackQ
        commit := if s.bus.commit.any (fun c => c.slots.contains k) then none else s.bus.commit } ∧
      (∀ n items, .stage k n items ∈ s.bus.applyQ → .stageEnd k n .slotLost ∈ t.notices) ∧
      (∀ e idx, .readback k (.capture e) idx ∈ s.bus.readbackQ → .readEnd e k .removed ∈ t.notices) ∧
      (∀ c, s.bus.commit = some c → k ∈ c.slots → .commitAnswer .slotLost ∈ t.notices))) ∧
  (∀ (time : Option Nat) (s : State),
    headNotice (.halt .busController) s = some (.haltEntry .busController time) →
    exec .haltEntryBusController s =
      .next (grantBus ((dropNotice (.halt .busController) s).withBus (s.bus.enqueue .safeAll)))) ∧
  (∀ (c : CommitReq) (s : State), headNotice .engineToBus s = some (.commitRequest c) →
    (∀ k ∈ c.slots, s.bus.live.get k = true) →
    exec .commitRequest s =
      .next (grantBus ((dropNotice .engineToBus s).withBus { s.bus with commit := some c }))) ∧
  (∀ (c : CommitReq) (s : State), headNotice .engineToBus s = some (.commitRequest c) →
    (∃ k ∈ c.slots, s.bus.live.get k = false) →
    exec .commitRequest s = .next (post (.commitAnswer .slotLost) (dropNotice .engineToBus s)))

/-- R136, R138, R141: an IDLE bus first serves a held COMMIT request with the strobe and then grants the oldest
request of the highest class, whose bytes the modules that receive them carry out (R65, R142 to R144; which receive
them is a free value, assumption 17); a busy one is left alone. -/
def Obligations.BusGrantsInItsOrder : Prop :=
  ∀ s : State,
    (s.bus.current ≠ none → grantBus s = s) ∧
    (∀ c, s.bus.current = none → s.bus.commit = some c →
      grantBus s = grantBus (((s.withBus { s.bus with commit := none }).withModules (Table.tab fun k =>
          if (s.module k).powered then (s.module k).strobe s.clock.uptime else s.module k)).withNotices
        (s.notices ++ [.commitAnswer (.strobe s.clock.rig (s.bus.safeQ.contains .safeAll))] ++
          (if c.sync then [.syncCommit s.clock.rig] else [])))) ∧
    (s.bus.current = none → s.bus.commit = none →
      let t := grantBus s
      let granted (x : Txn) (b : Bus) : Prop :=
        OnlyChanges [.bus, .modules, .engine, .notices] s t ∧
        t.bus = { b with
          attempts := s.bus.attempts + 1
          current := some { txn := x, attempt := 1, attemptNo := s.bus.attempts + 1
                            began := s.clock.uptime, wire := txnBytes x none, safeValues := none } } ∧
        ModulesHear x (s.bus.attempts + 1) s t ∧
        t.notices = s.notices ++ (if x = .safeAll then [.safeAllValues] else []) ∧
        ((∀ k n items, x ≠ .stage k n items) → t.engine = s.engine) ∧
        (∀ k n items, x = .stage k n items → ∀ w, s.engine.work = some w → w.take = n → w.phase = .staging →
          t.engine = { s.engine with work := some { w with
            slots := w.slots.map fun y => if y.slot = k then { y with mark := .inProgress } else y } })
      (s.bus.safeQ = [] → s.bus.applyQ = [] → s.bus.identifyQ = [] → s.bus.readbackQ = [] → t = s) ∧
      (∀ x q, s.bus.safeQ = x :: q → granted x { s.bus with safeQ := q }) ∧
      (∀ x q, s.bus.safeQ = [] → s.bus.applyQ = x :: q → granted x { s.bus with applyQ := q }) ∧
      (∀ x q, s.bus.safeQ = [] → s.bus.applyQ = [] → s.bus.identifyQ = x :: q →
        granted x { s.bus with identifyQ := q }) ∧
      (∀ x q, s.bus.safeQ = [] → s.bus.applyQ = [] → s.bus.identifyQ = [] → s.bus.readbackQ = x :: q →
        granted x { s.bus with readbackQ := q }))

/-- R137, R138, R142, R145: a reply of the right form with an agreeing check byte ends its transaction and is
handed to its requester; any other, and the timeout, end the attempt: the first is followed by a second at
once and reaches the module as the first did (a free value: assumption 17), the second fails the transaction and tells
the Slot Controller. A broadcast simply ends. (The timeout counts
from the attempt's start: assumption 19; which attempt a reply answers: assumption 20; a SAFE_ALL ends once its
values are known: assumption 26; a timeout before its time: assumption 32.) -/
def Obligations.TransactionsEndByTheirRules : Prop :=
  ∀ (p : InProgress) (s : State), s.bus.current = some p →
    let idle (b : Bus) (ns : List Notice) : State :=
      grantBus ((s.withBus { b with current := none }).withNotices (s.notices ++ ns))
    (∀ k, p.txn.slot = some k →
      let failed : List Notice := match p.txn with
        | .stage j take _ => [.stageEnd j take .failed, .busFailure k]
        | .readback j (.capture e) _ => [.readEnd e j .failed, .busFailure k]
        | _ => [.busFailure k]
      let lacking (i : Instr) : Prop :=
        (p.attempt = 1 → ∃ t, exec i s = .next t ∧ OnlyChanges [.bus, .modules] s t ∧
          t.bus = { s.bus with
            retries := s.bus.retries.put k (min (s.bus.retries.get k + 1) 65535)
            attempts := s.bus.attempts + 1
            current := some { txn := p.txn, attempt := 2, attemptNo := s.bus.attempts + 1
                              began := s.clock.uptime, wire := txnBytes p.txn none, safeValues := none } } ∧
          ModulesHear p.txn (s.bus.attempts + 1) s t) ∧
        (p.attempt ≠ 1 → exec i s = .next (idle { s.bus with
          failures := s.bus.failures.put k (min (s.bus.failures.get k + 1) 65535) } failed))
      (∀ bytes : List Byte,
        let values (n : Nat) := (List.range n).map fun i => signed (rd16 bytes (2 + 2 * i))
        let right := (bytes.map (·.toNat)).sum % 256 = 0 ∧ bytes.head? = some (BitVec.ofNat 8 (txnCode p.txn)) ∧
          (match p.txn with
            | .describe _ _ => bytes.length = 99
            | .readback _ _ idx => bytes.length = 3 + 2 * idx.length ∧ (rd8 bytes 1).toNat = idx.length
            | _ => bytes.length = 2)
        let answers : List Notice := match p.txn with
          | .describe j ident => [.describeReply j ident ((bytes.drop 1).take 97)]
          | .stage j take _ => [.stageEnd j take .accepted]
          | .readback j (.capture e) idx => [.readEnd e j (.answered (values idx.length))]
          | .readback j (.held i) idx => [.heldReply j i (values idx.length)]
          | _ => []
        (right → exec (.moduleReply p.attemptNo bytes) s = .next (idle s.bus answers)) ∧
        (¬ right → lacking (.moduleReply p.attemptNo bytes)) ∧
        (∀ n, n ≠ p.attemptNo → exec (.moduleReply n bytes) s = .next s)) ∧
      (p.began + 200 ≤ s.clock.uptime → lacking .replyTimeout) ∧
      (s.clock.uptime < p.began + 200 → exec .replyTimeout s = .next s)) ∧
    ((p.txn = .abandon ∨ p.txn = .safeAll ∧ p.safeValues ≠ none) →
      exec .broadcastEnd s = .next (idle s.bus []))

/-- R137, R145: the bytes of a request on the module bus: its opcode, its body with every value high byte first,
and the check byte that makes the sum of all bytes 0 modulo 256. A SAFE_ALL carries a mark and a safe value for
each entry of its list of values. (That a SAFE_ALL has no bytes before its values are known is the model's clause:
assumption 26.) R65, R73, R143, R144: what the part expects a module to do with a request. A STAGE replaces what is
staged and moves no output; the strobe latches it; a DRIVE_SAFE drives the channels it names and drops what is staged
for them; an ABANDON drops everything staged; a SAFE_ALL drives every output safe. -/
def Obligations.ModuleBusRequestsHaveTheirBytesAndEffects : Prop :=
  (∀ (values : Option (List (Option Int))) (k : SlotIx),
    let sent (t : Txn) (bytes : List Byte) : Prop :=
      ∃ check, txnBytes t values = bytes ++ [check] ∧ ((bytes ++ [check]).map (·.toNat)).sum % 256 = 0
    (∀ ident, sent (.describe k ident) [0x01]) ∧
    (∀ take items, sent (.stage k take items) (0x02 :: .ofNat 8 items.length ::
      items.flatMap fun i => [.ofNat 8 i.index] ++ i16 i.target ++ u16 i.ramp)) ∧
    (∀ f idx, sent (.readback k f idx) (0x03 :: .ofNat 8 idx.length :: idx.map fun i => .ofNat 8 i)) ∧
    (∀ vs, sent (.driveSafe k vs) (0x04 :: .ofNat 8 vs.length ::
      vs.flatMap fun v => [.ofNat 8 v.1] ++ i16 v.2)) ∧
    sent .abandon [0x05] ∧
    (∀ l, values = some l → sent .safeAll (0x06 :: l.flatMap fun v =>
      match v with
      | some x => [0] ++ i16 x
      | none => [1, 0, 0])) ∧
    (values = none → txnBytes .safeAll values = [])) ∧
  (∀ (m : Module),
    (∀ items, m.stage items = { m with staged := items }) ∧
    (∀ now, (m.strobe now).staged = [] ∧ (m.strobe now).powered = m.powered ∧ ∀ j : Fin 8,
      ((∀ i ∈ m.staged, i.index ≠ j.val) → (m.strobe now).drives.get j = m.drives.get j) ∧
      (∀ i ∈ m.staged, i.index = j.val → (∀ x ∈ m.staged, x.index = j.val → x = i) →
        (m.strobe now).drives.get j = if i.ramp = 0 then .value i.target
          else .ramp (m.drives.get j) i.target now (now + i.ramp * 1000))) ∧
    (∀ values : List (Nat × Int),
      (m.driveSafe values).staged = m.staged.filter (fun i => i.index ∉ values.map (·.1)) ∧
      (m.driveSafe values).powered = m.powered ∧ ∀ j : Fin 8,
        (j.val ∉ values.map (·.1) → (m.driveSafe values).drives.get j = m.drives.get j) ∧
        (∀ v, (j.val, v) ∈ values → (∀ w, (j.val, w) ∈ values → w = v) →
          (m.driveSafe values).drives.get j = .value v)) ∧
    (m.abandon = { m with staged := [] }) ∧
    (∀ (k : SlotIx) (values : List (Option Int)), (m.safeAll k values).staged = [] ∧
      (m.safeAll k values).powered = m.powered ∧ ∀ j : Fin 8,
        (∀ v, values[k.val * 8 + j.val]? = some (some v) → (m.safeAll k values).drives.get j = .value v) ∧
        ((∀ v, values[k.val * 8 + j.val]? ≠ some (some v)) → (m.safeAll k values).drives.get j = .stored)))

/-! ### Reports -/

/-- R172, R175, R176, R178 to R181: a report is discarded, held or counted as dropped; the lists are brought to rest
with consecutive sequences, and the frame of each promoted report is handed to the Link Port of the session's link in
the order of the sequences, nothing else of the links changing; a frame of the same session and sequence that still
waits there is not queued again (R172), and an idle transmitter starts at once; the retry timer starts when a frame has
been sent, its expiries retransmit three times and then end the session; an ACK retires every report up to its own. (A
report or an ACK of an earlier opening of the session: assumption 11; a retry timer before its time: assumption 32; the
order in which the copies of a system report are taken: assumption 46; SESSION_LOST to a session opened anew on the
lost id: assumption 50; that the interval counts from the taking of the end-of-transmission notice: assumption 57.) -/
def Obligations.ReportsAreSentUntilAcknowledged : Prop :=
  (∀ (line : ReportLine) (n : SessionIx) (i : Nat) (r : Report) (k : Session) (s : State),
    headNotice (.report line) s = some (.report line (some (n, i)) r) → s.session n = some k →
    let u := dropNotice (.report line) s
    exec (.reportHandover line) s = .next (if i = k.incarnation then takeReport n r u else u)) ∧
  (∀ (line : ReportLine) (r : Report) (s : State),
    headNotice (.report line) s = some (.report line none r) →
    let wants (x : Subscriptions) : Bool := match r with
      | .slotChange _ => x.slotChange
      | .haltChange _ => x.haltChange
      | .sessionLost _ => x.sessionLost
      | .deviation _ => x.deviation
      | _ => false
    exec (.reportHandover line) s = .next (allSessions.foldl (fun t n =>
      match t.session n with
      | some k => if wants k.subs then takeReport n r t else t
      | none => t) (dropNotice (.report line) s))) ∧
  (∀ (n : SessionIx) (r : Report) (s : State),
    let x := s.lists n
    (x.torn = true → takeReport n r s = s) ∧
    (x.torn = false → x.held.length < 32 →
      takeReport n r s = settleLists n (s.withLists n { x with held := x.held ++ [r] })) ∧
    (x.torn = false → 32 ≤ x.held.length →
      takeReport n r s = s.withLists n { x with dropped := min (x.dropped + 1) 65535 })) ∧
  (∀ (n : SessionIx) (s : State),
    let x := s.lists n
    x.outstanding.length ≤ 8 → x.held.length ≤ 32 →
    let t := settleLists n s
    let room := 8 - x.outstanding.length
    let makes := 0 < x.dropped ∧ (x.held.length < 32 ∨ x.outstanding.length < 8)
    let all := x.held ++ (if makes then [.overrun x.dropped s.clock.rig] else [])
    let next (v : Nat) := if 65535 ≤ v then 1 else v + 1
    OnlyChanges [.reports, .linkA, .linkB] s t ∧ (∀ m, m ≠ n → t.lists m = s.lists m) ∧
    (t.lists n).held = all.drop room ∧ (t.lists n).dropped = (if makes then 0 else x.dropped) ∧
    (t.lists n).nextSeq = next^[(all.take room).length] x.nextSeq ∧
    ∃ new, (t.lists n).outstanding = x.outstanding ++ new ∧ new.map (·.report) = all.take room ∧
      new.map (·.seq) = (List.range new.length).map (fun i => next^[i] x.nextSeq) ∧
      (∀ o ∈ new, o.timer = .sending ∧ o.retransmissions = 0) ∧
      ∀ l, t.link l = (new.foldl (fun v o => handFrame n o v) s).link l) ∧
  (∀ (n : SessionIx) (o : Outstanding) (k : Session) (s : State), s.session n = some k →
    let j := s.link k.link
    let waits := ∃ f ∈ j.reports, f.session = n ∧ f.seq = o.seq
    (waits → handFrame n o s = s) ∧
    (¬ waits → handFrame n o s = startSending k.link (s.withLink k.link
      { j with reports := j.reports ++ [⟨o.uid, n, o.seq, o.report⟩] }))) ∧
  (∀ (l : LinkId) (n : SessionIx) (uid : Nat) (k : Session) (s : State),
    headNotice (.frameEnd l) s = some (.frameEnd l n uid) → s.session n = some k →
    let x := s.lists n
    exec (.endOfTransmissionNotice l) s = .next ((dropNotice (.frameEnd l) s).withLists n { x with
      outstanding := x.outstanding.map fun o => if o.uid = uid ∧ o.timer = .sending then
        { o with timer := .running (s.clock.uptime + k.retry * 1000) } else o })) ∧
  (∀ (n : SessionIx) (seq : Half) (k : Session) (o : Outstanding) (t : Nat) (s : State),
    s.session n = some k → ((s.lists n).outstanding.find? fun o => o.seq = seq.toNat) = some o →
    o.timer = .running t →
    let x := s.lists n
    let change (f : Outstanding → Outstanding) := s.withLists n
      { x with outstanding := x.outstanding.map fun y => if y.uid = o.uid then f y else y }
    (s.clock.uptime < t → exec (.retryExpiry n seq) s = .next s) ∧
    (t ≤ s.clock.uptime → o.retransmissions < 3 → exec (.retryExpiry n seq) s = .next (handFrame n o
      (change fun y => { y with retransmissions := y.retransmissions + 1, timer := .sending }))) ∧
    (t ≤ s.clock.uptime → 3 ≤ o.retransmissions → exec (.retryExpiry n seq) s =
      .next (post (.retriesExhausted n k.incarnation) (change fun y => { y with timer := .expired })))) ∧
  (∀ (l : LinkId) (n : SessionIx) (i seq : Nat) (k : Session) (s : State),
    headNotice (.ack l) s = some (.ack l n i seq) → s.session n = some k →
    let u := dropNotice (.ack l) s
    let x := s.lists n
    (i ≠ k.incarnation ∨ (∀ o ∈ x.outstanding, o.seq ≠ seq) → exec (.ack l) s = .next u) ∧
    (∀ front o back, i = k.incarnation → x.outstanding = front ++ [o] ++ back → o.seq = seq →
      (∀ y ∈ front, y.seq ≠ seq) →
      let j := s.link k.link
      exec (.ack l) s = .next (settleLists n ((u.withLists n { x with outstanding := back }).withLink k.link
        { j with reports := j.reports.filter fun f =>
            !(f.session = n && (front ++ [o]).any fun y => y.uid = f.uid) }))))

/-! ### Resets -/

/-- R161, R186: DEVICE_RESET is refused for an unknown kind, or answered DONE with its kind while both links stop
dispatching, a reply that a WAITING dispatch holds staying held (assumption 23); the reset is performed once that
reply has been sent, DROP as a line reset and HOLD as a held reset. A second DEVICE_RESET is answered with the kind
that is pending (assumption 23). RESET_PERFORMED with no reset due changes nothing (assumption 32). What the model
keeps through a reset beside the manual's state is assumption 29's. R21, R39, R59, R62, R86, R87, R101, R106, R108,
R114, R132 to R134, R147, R162, R163, R174: what a power-on reset, a line reset and a held reset leave. That after a
reset with HALT asserted no block has its halt entry still to take (no notice waits but SAFE_ALL's values, and the
Claim Unit's halt entry time is 0 already) is the model's reading: assumption 6. -/
def Obligations.ResetsLeaveTheirValues : Prop :=
  (∀ (h : Header) (kind : Byte) (n : SessionIx) (s : State),
    let r : Request := .deviceReset kind
    let stands := AtBlock .sessionTable h r n s
    let stop (d : DispatchState) : DispatchState := match d with
      | .ready => .stopped none
      | .waiting x => .stopped (some x)
      | .stopped x => .stopped x
    ((s.link h.link).inHand = some (h, r) → boundSession h s = some n → s.isEnding n = false →
      resetKindOf kind = none → exec (.deviceReset h kind) s = .next (refuse h r .badField s)) ∧
    (∀ k, stands → resetKindOf kind = some k → s.sessions.resetPending = none →
      exec (.deviceReset h kind) s = .next (answer h r
        { outcome := .done, reason := none, body := u8 (resetKindCode k), resetReply := true }
        (((s.withSessions { s.sessions with resetPending := some k }).withLinkA
            { s.linkA with dispatch := stop s.linkA.dispatch }).withLinkB
          { s.linkB with dispatch := stop s.linkB.dispatch }))) ∧
    (∀ k p, stands → resetKindOf kind = some k → s.sessions.resetPending = some p →
      exec (.deviceReset h kind) s = .next (answer h r (doneWith (u8 (resetKindCode p))) s))) ∧
  (∀ (pins : Pins) (s : State),
    (s.sessions.resetDue = false → exec (.resetPerformed pins) s = .next s) ∧
    (s.sessions.resetDue = true → s.sessions.resetPending = some .drop →
      exec (.resetPerformed pins) s = exec (.lineReset pins) s) ∧
    (s.sessions.resetDue = true → s.sessions.resetPending = some .hold →
      exec (.resetPerformed pins) s = exec (.heldReset pins) s)) ∧
  (∀ (p : Pins) (s : State), ∃ t v,
    exec (.powerOnReset p) s = .next t ∧ exec (.lineReset p) s = .next t ∧ exec (.heldReset p) s = .next v ∧
    let lists : ReportLists := { nextSeq := 1, held := [], outstanding := [], dropped := 0, torn := false }
    let line (q : Level) : TrigRec :=
      { enabled := false, edge := .rising, debounce := .off, qualified := q, candidate := none, timer := none
        count := 0, lastStamp := none }
    let kept (k : SlotIx) := ∃ r, (s.slot k).enable = some r ∧ railFor (readingOf (p.sense.get k)) = some r ∧
      p.powerGood.get k = true
    (∀ y, y = t ∨ y = v →
      y.clock.rig = 0 ∧ y.clock.lateMargin = 500 ∧ (∀ c, y.channel c = none) ∧ y.claims.waits = [] ∧
      y.claims.haltEntry = (if p.haltAsserted then some 0 else none) ∧
      y.assembler = { openSets := Table.const none, poolFree := 512 } ∧
      y.schedule = { sets := [], ready := [], nextId := 1, lastSeal := 0, armed := Table.const false } ∧
      y.cycles = Table.const none ∧
      y.engine = { work := none, captures := [], takes := 0, entries := 0 } ∧
      y.sessions = { records := Table.const none, opened := 0, resetPending := none, resetDue := false } ∧
      y.reports = { lists := Table.const lists, nextUid := 0 } ∧
      y.trigger.trig0 = line p.trig0 ∧ y.trigger.trig1 = line p.trig1 ∧
      y.trigger.sync = { polarity := .activeHigh, width := 10, pulse := none, count := 0, level := .low } ∧
      y.trigger.halted = (if p.haltAsserted then some ⟨.reset, 0⟩ else none) ∧
      y.trigger.monitor = (if p.haltAsserted then .asserted else .released) ∧
      (∀ l, y.link l =
        { receiver := .hunt, complete := [], input := [], dispatch := .ready, inHand := none, replies := []
          reports := [], transmission := none, cache := Table.const none, openCache := none, crcErrors := 0
          gapErrors := 0, busyReplies := 0, breaks := 0
          rate := if p.strapGrounded then .baud460800 else .baud921600
          spacingSince := if (match l with | .a => p.spacingA | .b => p.spacingB) = true then
            some s.clock.uptime else none }) ∧
      y.bus.commit = none ∧ y.bus.applyQ = [] ∧ y.bus.readbackQ = [] ∧
      (∀ k, y.bus.retries.get k = 0 ∧ y.bus.failures.get k = 0) ∧
      (∀ k, (y.slot k).stateTime = 0 ∧ (y.slot k).descriptor = none ∧ (y.slot k).fault = none ∧
        (y.slot k).reading = readingOf (p.sense.get k)) ∧
      (∀ k, y = t ∨ ¬ kept k → (y.slot k).rail = none ∧ (y.slot k).enable = none ∧ (y.slot k).held = false ∧
        y.bus.live.get k = false ∧ (y.module k).powered = false ∧
        (readingOf (p.sense.get k) = .vacant → (y.slot k).state = .empty) ∧
        (readingOf (p.sense.get k) ≠ .vacant → (y.slot k).state = .settling ∧
          (y.slot k).settleTimer = some (s.clock.uptime + 50000)))) ∧
    t.notices = (if p.haltAsserted then [.safeAllValues] else []) ∧ v.notices = [] ∧
    t.bus.identifyQ = [] ∧
    (p.haltAsserted = false → t.bus.current = none) ∧
    (p.haltAsserted = true → ∃ q, t.bus.current = some q ∧ q.txn = .safeAll) ∧
    (∃ q, v.bus.current = some q ∧ q.txn = .abandon) ∧
    v.bus.safeQ = (if p.haltAsserted then [.safeAll] else []) ∧
    (∀ k, kept k → (v.slot k).state = .identifying ∧ (v.slot k).held = true ∧
      (v.slot k).rail = (s.slot k).enable ∧ (v.slot k).enable = (s.slot k).enable ∧
      v.bus.live.get k = true ∧ (v.module k).powered = (s.module k).powered ∧
      (v.module k).drives = (s.module k).drives ∧ (v.module k).staged = [] ∧
      .describe k (v.slot k).ident ∈ v.bus.identifyQ))
end

