-- ==== Sys2Proof/Laws/State.lean ====
section
/-! SUPPORT. One lemma per field per update of the state, so that no proof unfolds a record update. -/

namespace Sys2Proof.Machine

section
variable (s : State) (x : Clock)

@[simp] theorem State.withClock_clock : (s.withClock x).clock = x := rfl
@[simp] theorem State.withClock_claims : (s.withClock x).claims = s.claims := rfl
@[simp] theorem State.withClock_assembler : (s.withClock x).assembler = s.assembler := rfl
@[simp] theorem State.withClock_schedule : (s.withClock x).schedule = s.schedule := rfl
@[simp] theorem State.withClock_cycles : (s.withClock x).cycles = s.cycles := rfl
@[simp] theorem State.withClock_engine : (s.withClock x).engine = s.engine := rfl
@[simp] theorem State.withClock_trigger : (s.withClock x).trigger = s.trigger := rfl
@[simp] theorem State.withClock_slots : (s.withClock x).slots = s.slots := rfl
@[simp] theorem State.withClock_bus : (s.withClock x).bus = s.bus := rfl
@[simp] theorem State.withClock_modules : (s.withClock x).modules = s.modules := rfl
@[simp] theorem State.withClock_sessions : (s.withClock x).sessions = s.sessions := rfl
@[simp] theorem State.withClock_reports : (s.withClock x).reports = s.reports := rfl
@[simp] theorem State.withClock_linkA : (s.withClock x).linkA = s.linkA := rfl
@[simp] theorem State.withClock_linkB : (s.withClock x).linkB = s.linkB := rfl
@[simp] theorem State.withClock_notices : (s.withClock x).notices = s.notices := rfl
@[simp] theorem State.withClock_free : (s.withClock x).free = s.free := rfl
@[simp] theorem State.withClock_pending : (s.withClock x).pending = s.pending := rfl

end

section
variable (s : State) (x : Claims)

@[simp] theorem State.withClaims_clock : (s.withClaims x).clock = s.clock := rfl
@[simp] theorem State.withClaims_claims : (s.withClaims x).claims = x := rfl
@[simp] theorem State.withClaims_assembler : (s.withClaims x).assembler = s.assembler := rfl
@[simp] theorem State.withClaims_schedule : (s.withClaims x).schedule = s.schedule := rfl
@[simp] theorem State.withClaims_cycles : (s.withClaims x).cycles = s.cycles := rfl
@[simp] theorem State.withClaims_engine : (s.withClaims x).engine = s.engine := rfl
@[simp] theorem State.withClaims_trigger : (s.withClaims x).trigger = s.trigger := rfl
@[simp] theorem State.withClaims_slots : (s.withClaims x).slots = s.slots := rfl
@[simp] theorem State.withClaims_bus : (s.withClaims x).bus = s.bus := rfl
@[simp] theorem State.withClaims_modules : (s.withClaims x).modules = s.modules := rfl
@[simp] theorem State.withClaims_sessions : (s.withClaims x).sessions = s.sessions := rfl
@[simp] theorem State.withClaims_reports : (s.withClaims x).reports = s.reports := rfl
@[simp] theorem State.withClaims_linkA : (s.withClaims x).linkA = s.linkA := rfl
@[simp] theorem State.withClaims_linkB : (s.withClaims x).linkB = s.linkB := rfl
@[simp] theorem State.withClaims_notices : (s.withClaims x).notices = s.notices := rfl
@[simp] theorem State.withClaims_free : (s.withClaims x).free = s.free := rfl
@[simp] theorem State.withClaims_pending : (s.withClaims x).pending = s.pending := rfl

end

section
variable (s : State) (x : Assembler)

@[simp] theorem State.withAssembler_clock : (s.withAssembler x).clock = s.clock := rfl
@[simp] theorem State.withAssembler_claims : (s.withAssembler x).claims = s.claims := rfl
@[simp] theorem State.withAssembler_assembler : (s.withAssembler x).assembler = x := rfl
@[simp] theorem State.withAssembler_schedule : (s.withAssembler x).schedule = s.schedule := rfl
@[simp] theorem State.withAssembler_cycles : (s.withAssembler x).cycles = s.cycles := rfl
@[simp] theorem State.withAssembler_engine : (s.withAssembler x).engine = s.engine := rfl
@[simp] theorem State.withAssembler_trigger : (s.withAssembler x).trigger = s.trigger := rfl
@[simp] theorem State.withAssembler_slots : (s.withAssembler x).slots = s.slots := rfl
@[simp] theorem State.withAssembler_bus : (s.withAssembler x).bus = s.bus := rfl
@[simp] theorem State.withAssembler_modules : (s.withAssembler x).modules = s.modules := rfl
@[simp] theorem State.withAssembler_sessions : (s.withAssembler x).sessions = s.sessions := rfl
@[simp] theorem State.withAssembler_reports : (s.withAssembler x).reports = s.reports := rfl
@[simp] theorem State.withAssembler_linkA : (s.withAssembler x).linkA = s.linkA := rfl
@[simp] theorem State.withAssembler_linkB : (s.withAssembler x).linkB = s.linkB := rfl
@[simp] theorem State.withAssembler_notices : (s.withAssembler x).notices = s.notices := rfl
@[simp] theorem State.withAssembler_free : (s.withAssembler x).free = s.free := rfl
@[simp] theorem State.withAssembler_pending : (s.withAssembler x).pending = s.pending := rfl

end

section
variable (s : State) (x : Schedule)

@[simp] theorem State.withSchedule_clock : (s.withSchedule x).clock = s.clock := rfl
@[simp] theorem State.withSchedule_claims : (s.withSchedule x).claims = s.claims := rfl
@[simp] theorem State.withSchedule_assembler : (s.withSchedule x).assembler = s.assembler := rfl
@[simp] theorem State.withSchedule_schedule : (s.withSchedule x).schedule = x := rfl
@[simp] theorem State.withSchedule_cycles : (s.withSchedule x).cycles = s.cycles := rfl
@[simp] theorem State.withSchedule_engine : (s.withSchedule x).engine = s.engine := rfl
@[simp] theorem State.withSchedule_trigger : (s.withSchedule x).trigger = s.trigger := rfl
@[simp] theorem State.withSchedule_slots : (s.withSchedule x).slots = s.slots := rfl
@[simp] theorem State.withSchedule_bus : (s.withSchedule x).bus = s.bus := rfl
@[simp] theorem State.withSchedule_modules : (s.withSchedule x).modules = s.modules := rfl
@[simp] theorem State.withSchedule_sessions : (s.withSchedule x).sessions = s.sessions := rfl
@[simp] theorem State.withSchedule_reports : (s.withSchedule x).reports = s.reports := rfl
@[simp] theorem State.withSchedule_linkA : (s.withSchedule x).linkA = s.linkA := rfl
@[simp] theorem State.withSchedule_linkB : (s.withSchedule x).linkB = s.linkB := rfl
@[simp] theorem State.withSchedule_notices : (s.withSchedule x).notices = s.notices := rfl
@[simp] theorem State.withSchedule_free : (s.withSchedule x).free = s.free := rfl
@[simp] theorem State.withSchedule_pending : (s.withSchedule x).pending = s.pending := rfl

end

section
variable (s : State) (x : Table (Option Cycle) 4)

@[simp] theorem State.withCycles_clock : (s.withCycles x).clock = s.clock := rfl
@[simp] theorem State.withCycles_claims : (s.withCycles x).claims = s.claims := rfl
@[simp] theorem State.withCycles_assembler : (s.withCycles x).assembler = s.assembler := rfl
@[simp] theorem State.withCycles_schedule : (s.withCycles x).schedule = s.schedule := rfl
@[simp] theorem State.withCycles_cycles : (s.withCycles x).cycles = x := rfl
@[simp] theorem State.withCycles_engine : (s.withCycles x).engine = s.engine := rfl
@[simp] theorem State.withCycles_trigger : (s.withCycles x).trigger = s.trigger := rfl
@[simp] theorem State.withCycles_slots : (s.withCycles x).slots = s.slots := rfl
@[simp] theorem State.withCycles_bus : (s.withCycles x).bus = s.bus := rfl
@[simp] theorem State.withCycles_modules : (s.withCycles x).modules = s.modules := rfl
@[simp] theorem State.withCycles_sessions : (s.withCycles x).sessions = s.sessions := rfl
@[simp] theorem State.withCycles_reports : (s.withCycles x).reports = s.reports := rfl
@[simp] theorem State.withCycles_linkA : (s.withCycles x).linkA = s.linkA := rfl
@[simp] theorem State.withCycles_linkB : (s.withCycles x).linkB = s.linkB := rfl
@[simp] theorem State.withCycles_notices : (s.withCycles x).notices = s.notices := rfl
@[simp] theorem State.withCycles_free : (s.withCycles x).free = s.free := rfl
@[simp] theorem State.withCycles_pending : (s.withCycles x).pending = s.pending := rfl

end

section
variable (s : State) (x : Engine)

@[simp] theorem State.withEngine_clock : (s.withEngine x).clock = s.clock := rfl
@[simp] theorem State.withEngine_claims : (s.withEngine x).claims = s.claims := rfl
@[simp] theorem State.withEngine_assembler : (s.withEngine x).assembler = s.assembler := rfl
@[simp] theorem State.withEngine_schedule : (s.withEngine x).schedule = s.schedule := rfl
@[simp] theorem State.withEngine_cycles : (s.withEngine x).cycles = s.cycles := rfl
@[simp] theorem State.withEngine_engine : (s.withEngine x).engine = x := rfl
@[simp] theorem State.withEngine_trigger : (s.withEngine x).trigger = s.trigger := rfl
@[simp] theorem State.withEngine_slots : (s.withEngine x).slots = s.slots := rfl
@[simp] theorem State.withEngine_bus : (s.withEngine x).bus = s.bus := rfl
@[simp] theorem State.withEngine_modules : (s.withEngine x).modules = s.modules := rfl
@[simp] theorem State.withEngine_sessions : (s.withEngine x).sessions = s.sessions := rfl
@[simp] theorem State.withEngine_reports : (s.withEngine x).reports = s.reports := rfl
@[simp] theorem State.withEngine_linkA : (s.withEngine x).linkA = s.linkA := rfl
@[simp] theorem State.withEngine_linkB : (s.withEngine x).linkB = s.linkB := rfl
@[simp] theorem State.withEngine_notices : (s.withEngine x).notices = s.notices := rfl
@[simp] theorem State.withEngine_free : (s.withEngine x).free = s.free := rfl
@[simp] theorem State.withEngine_pending : (s.withEngine x).pending = s.pending := rfl

end

section
variable (s : State) (x : Trigger)

@[simp] theorem State.withTrigger_clock : (s.withTrigger x).clock = s.clock := rfl
@[simp] theorem State.withTrigger_claims : (s.withTrigger x).claims = s.claims := rfl
@[simp] theorem State.withTrigger_assembler : (s.withTrigger x).assembler = s.assembler := rfl
@[simp] theorem State.withTrigger_schedule : (s.withTrigger x).schedule = s.schedule := rfl
@[simp] theorem State.withTrigger_cycles : (s.withTrigger x).cycles = s.cycles := rfl
@[simp] theorem State.withTrigger_engine : (s.withTrigger x).engine = s.engine := rfl
@[simp] theorem State.withTrigger_trigger : (s.withTrigger x).trigger = x := rfl
@[simp] theorem State.withTrigger_slots : (s.withTrigger x).slots = s.slots := rfl
@[simp] theorem State.withTrigger_bus : (s.withTrigger x).bus = s.bus := rfl
@[simp] theorem State.withTrigger_modules : (s.withTrigger x).modules = s.modules := rfl
@[simp] theorem State.withTrigger_sessions : (s.withTrigger x).sessions = s.sessions := rfl
@[simp] theorem State.withTrigger_reports : (s.withTrigger x).reports = s.reports := rfl
@[simp] theorem State.withTrigger_linkA : (s.withTrigger x).linkA = s.linkA := rfl
@[simp] theorem State.withTrigger_linkB : (s.withTrigger x).linkB = s.linkB := rfl
@[simp] theorem State.withTrigger_notices : (s.withTrigger x).notices = s.notices := rfl
@[simp] theorem State.withTrigger_free : (s.withTrigger x).free = s.free := rfl
@[simp] theorem State.withTrigger_pending : (s.withTrigger x).pending = s.pending := rfl

end

section
variable (s : State) (x : Table Slot 4)

@[simp] theorem State.withSlots_clock : (s.withSlots x).clock = s.clock := rfl
@[simp] theorem State.withSlots_claims : (s.withSlots x).claims = s.claims := rfl
@[simp] theorem State.withSlots_assembler : (s.withSlots x).assembler = s.assembler := rfl
@[simp] theorem State.withSlots_schedule : (s.withSlots x).schedule = s.schedule := rfl
@[simp] theorem State.withSlots_cycles : (s.withSlots x).cycles = s.cycles := rfl
@[simp] theorem State.withSlots_engine : (s.withSlots x).engine = s.engine := rfl
@[simp] theorem State.withSlots_trigger : (s.withSlots x).trigger = s.trigger := rfl
@[simp] theorem State.withSlots_slots : (s.withSlots x).slots = x := rfl
@[simp] theorem State.withSlots_bus : (s.withSlots x).bus = s.bus := rfl
@[simp] theorem State.withSlots_modules : (s.withSlots x).modules = s.modules := rfl
@[simp] theorem State.withSlots_sessions : (s.withSlots x).sessions = s.sessions := rfl
@[simp] theorem State.withSlots_reports : (s.withSlots x).reports = s.reports := rfl
@[simp] theorem State.withSlots_linkA : (s.withSlots x).linkA = s.linkA := rfl
@[simp] theorem State.withSlots_linkB : (s.withSlots x).linkB = s.linkB := rfl
@[simp] theorem State.withSlots_notices : (s.withSlots x).notices = s.notices := rfl
@[simp] theorem State.withSlots_free : (s.withSlots x).free = s.free := rfl
@[simp] theorem State.withSlots_pending : (s.withSlots x).pending = s.pending := rfl

end

section
variable (s : State) (x : Bus)

@[simp] theorem State.withBus_clock : (s.withBus x).clock = s.clock := rfl
@[simp] theorem State.withBus_claims : (s.withBus x).claims = s.claims := rfl
@[simp] theorem State.withBus_assembler : (s.withBus x).assembler = s.assembler := rfl
@[simp] theorem State.withBus_schedule : (s.withBus x).schedule = s.schedule := rfl
@[simp] theorem State.withBus_cycles : (s.withBus x).cycles = s.cycles := rfl
@[simp] theorem State.withBus_engine : (s.withBus x).engine = s.engine := rfl
@[simp] theorem State.withBus_trigger : (s.withBus x).trigger = s.trigger := rfl
@[simp] theorem State.withBus_slots : (s.withBus x).slots = s.slots := rfl
@[simp] theorem State.withBus_bus : (s.withBus x).bus = x := rfl
@[simp] theorem State.withBus_modules : (s.withBus x).modules = s.modules := rfl
@[simp] theorem State.withBus_sessions : (s.withBus x).sessions = s.sessions := rfl
@[simp] theorem State.withBus_reports : (s.withBus x).reports = s.reports := rfl
@[simp] theorem State.withBus_linkA : (s.withBus x).linkA = s.linkA := rfl
@[simp] theorem State.withBus_linkB : (s.withBus x).linkB = s.linkB := rfl
@[simp] theorem State.withBus_notices : (s.withBus x).notices = s.notices := rfl
@[simp] theorem State.withBus_free : (s.withBus x).free = s.free := rfl
@[simp] theorem State.withBus_pending : (s.withBus x).pending = s.pending := rfl

end

section
variable (s : State) (x : Table Module 4)

@[simp] theorem State.withModules_clock : (s.withModules x).clock = s.clock := rfl
@[simp] theorem State.withModules_claims : (s.withModules x).claims = s.claims := rfl
@[simp] theorem State.withModules_assembler : (s.withModules x).assembler = s.assembler := rfl
@[simp] theorem State.withModules_schedule : (s.withModules x).schedule = s.schedule := rfl
@[simp] theorem State.withModules_cycles : (s.withModules x).cycles = s.cycles := rfl
@[simp] theorem State.withModules_engine : (s.withModules x).engine = s.engine := rfl
@[simp] theorem State.withModules_trigger : (s.withModules x).trigger = s.trigger := rfl
@[simp] theorem State.withModules_slots : (s.withModules x).slots = s.slots := rfl
@[simp] theorem State.withModules_bus : (s.withModules x).bus = s.bus := rfl
@[simp] theorem State.withModules_modules : (s.withModules x).modules = x := rfl
@[simp] theorem State.withModules_sessions : (s.withModules x).sessions = s.sessions := rfl
@[simp] theorem State.withModules_reports : (s.withModules x).reports = s.reports := rfl
@[simp] theorem State.withModules_linkA : (s.withModules x).linkA = s.linkA := rfl
@[simp] theorem State.withModules_linkB : (s.withModules x).linkB = s.linkB := rfl
@[simp] theorem State.withModules_notices : (s.withModules x).notices = s.notices := rfl
@[simp] theorem State.withModules_free : (s.withModules x).free = s.free := rfl
@[simp] theorem State.withModules_pending : (s.withModules x).pending = s.pending := rfl

end

section
variable (s : State) (x : SessionTable)

@[simp] theorem State.withSessions_clock : (s.withSessions x).clock = s.clock := rfl
@[simp] theorem State.withSessions_claims : (s.withSessions x).claims = s.claims := rfl
@[simp] theorem State.withSessions_assembler : (s.withSessions x).assembler = s.assembler := rfl
@[simp] theorem State.withSessions_schedule : (s.withSessions x).schedule = s.schedule := rfl
@[simp] theorem State.withSessions_cycles : (s.withSessions x).cycles = s.cycles := rfl
@[simp] theorem State.withSessions_engine : (s.withSessions x).engine = s.engine := rfl
@[simp] theorem State.withSessions_trigger : (s.withSessions x).trigger = s.trigger := rfl
@[simp] theorem State.withSessions_slots : (s.withSessions x).slots = s.slots := rfl
@[simp] theorem State.withSessions_bus : (s.withSessions x).bus = s.bus := rfl
@[simp] theorem State.withSessions_modules : (s.withSessions x).modules = s.modules := rfl
@[simp] theorem State.withSessions_sessions : (s.withSessions x).sessions = x := rfl
@[simp] theorem State.withSessions_reports : (s.withSessions x).reports = s.reports := rfl
@[simp] theorem State.withSessions_linkA : (s.withSessions x).linkA = s.linkA := rfl
@[simp] theorem State.withSessions_linkB : (s.withSessions x).linkB = s.linkB := rfl
@[simp] theorem State.withSessions_notices : (s.withSessions x).notices = s.notices := rfl
@[simp] theorem State.withSessions_free : (s.withSessions x).free = s.free := rfl
@[simp] theorem State.withSessions_pending : (s.withSessions x).pending = s.pending := rfl

end

section
variable (s : State) (x : Reports)

@[simp] theorem State.withReports_clock : (s.withReports x).clock = s.clock := rfl
@[simp] theorem State.withReports_claims : (s.withReports x).claims = s.claims := rfl
@[simp] theorem State.withReports_assembler : (s.withReports x).assembler = s.assembler := rfl
@[simp] theorem State.withReports_schedule : (s.withReports x).schedule = s.schedule := rfl
@[simp] theorem State.withReports_cycles : (s.withReports x).cycles = s.cycles := rfl
@[simp] theorem State.withReports_engine : (s.withReports x).engine = s.engine := rfl
@[simp] theorem State.withReports_trigger : (s.withReports x).trigger = s.trigger := rfl
@[simp] theorem State.withReports_slots : (s.withReports x).slots = s.slots := rfl
@[simp] theorem State.withReports_bus : (s.withReports x).bus = s.bus := rfl
@[simp] theorem State.withReports_modules : (s.withReports x).modules = s.modules := rfl
@[simp] theorem State.withReports_sessions : (s.withReports x).sessions = s.sessions := rfl
@[simp] theorem State.withReports_reports : (s.withReports x).reports = x := rfl
@[simp] theorem State.withReports_linkA : (s.withReports x).linkA = s.linkA := rfl
@[simp] theorem State.withReports_linkB : (s.withReports x).linkB = s.linkB := rfl
@[simp] theorem State.withReports_notices : (s.withReports x).notices = s.notices := rfl
@[simp] theorem State.withReports_free : (s.withReports x).free = s.free := rfl
@[simp] theorem State.withReports_pending : (s.withReports x).pending = s.pending := rfl

end

section
variable (s : State) (x : Link)

@[simp] theorem State.withLinkA_clock : (s.withLinkA x).clock = s.clock := rfl
@[simp] theorem State.withLinkA_claims : (s.withLinkA x).claims = s.claims := rfl
@[simp] theorem State.withLinkA_assembler : (s.withLinkA x).assembler = s.assembler := rfl
@[simp] theorem State.withLinkA_schedule : (s.withLinkA x).schedule = s.schedule := rfl
@[simp] theorem State.withLinkA_cycles : (s.withLinkA x).cycles = s.cycles := rfl
@[simp] theorem State.withLinkA_engine : (s.withLinkA x).engine = s.engine := rfl
@[simp] theorem State.withLinkA_trigger : (s.withLinkA x).trigger = s.trigger := rfl
@[simp] theorem State.withLinkA_slots : (s.withLinkA x).slots = s.slots := rfl
@[simp] theorem State.withLinkA_bus : (s.withLinkA x).bus = s.bus := rfl
@[simp] theorem State.withLinkA_modules : (s.withLinkA x).modules = s.modules := rfl
@[simp] theorem State.withLinkA_sessions : (s.withLinkA x).sessions = s.sessions := rfl
@[simp] theorem State.withLinkA_reports : (s.withLinkA x).reports = s.reports := rfl
@[simp] theorem State.withLinkA_linkA : (s.withLinkA x).linkA = x := rfl
@[simp] theorem State.withLinkA_linkB : (s.withLinkA x).linkB = s.linkB := rfl
@[simp] theorem State.withLinkA_notices : (s.withLinkA x).notices = s.notices := rfl
@[simp] theorem State.withLinkA_free : (s.withLinkA x).free = s.free := rfl
@[simp] theorem State.withLinkA_pending : (s.withLinkA x).pending = s.pending := rfl

end

section
variable (s : State) (x : Link)

@[simp] theorem State.withLinkB_clock : (s.withLinkB x).clock = s.clock := rfl
@[simp] theorem State.withLinkB_claims : (s.withLinkB x).claims = s.claims := rfl
@[simp] theorem State.withLinkB_assembler : (s.withLinkB x).assembler = s.assembler := rfl
@[simp] theorem State.withLinkB_schedule : (s.withLinkB x).schedule = s.schedule := rfl
@[simp] theorem State.withLinkB_cycles : (s.withLinkB x).cycles = s.cycles := rfl
@[simp] theorem State.withLinkB_engine : (s.withLinkB x).engine = s.engine := rfl
@[simp] theorem State.withLinkB_trigger : (s.withLinkB x).trigger = s.trigger := rfl
@[simp] theorem State.withLinkB_slots : (s.withLinkB x).slots = s.slots := rfl
@[simp] theorem State.withLinkB_bus : (s.withLinkB x).bus = s.bus := rfl
@[simp] theorem State.withLinkB_modules : (s.withLinkB x).modules = s.modules := rfl
@[simp] theorem State.withLinkB_sessions : (s.withLinkB x).sessions = s.sessions := rfl
@[simp] theorem State.withLinkB_reports : (s.withLinkB x).reports = s.reports := rfl
@[simp] theorem State.withLinkB_linkA : (s.withLinkB x).linkA = s.linkA := rfl
@[simp] theorem State.withLinkB_linkB : (s.withLinkB x).linkB = x := rfl
@[simp] theorem State.withLinkB_notices : (s.withLinkB x).notices = s.notices := rfl
@[simp] theorem State.withLinkB_free : (s.withLinkB x).free = s.free := rfl
@[simp] theorem State.withLinkB_pending : (s.withLinkB x).pending = s.pending := rfl

end

section
variable (s : State) (x : List Notice)

@[simp] theorem State.withNotices_clock : (s.withNotices x).clock = s.clock := rfl
@[simp] theorem State.withNotices_claims : (s.withNotices x).claims = s.claims := rfl
@[simp] theorem State.withNotices_assembler : (s.withNotices x).assembler = s.assembler := rfl
@[simp] theorem State.withNotices_schedule : (s.withNotices x).schedule = s.schedule := rfl
@[simp] theorem State.withNotices_cycles : (s.withNotices x).cycles = s.cycles := rfl
@[simp] theorem State.withNotices_engine : (s.withNotices x).engine = s.engine := rfl
@[simp] theorem State.withNotices_trigger : (s.withNotices x).trigger = s.trigger := rfl
@[simp] theorem State.withNotices_slots : (s.withNotices x).slots = s.slots := rfl
@[simp] theorem State.withNotices_bus : (s.withNotices x).bus = s.bus := rfl
@[simp] theorem State.withNotices_modules : (s.withNotices x).modules = s.modules := rfl
@[simp] theorem State.withNotices_sessions : (s.withNotices x).sessions = s.sessions := rfl
@[simp] theorem State.withNotices_reports : (s.withNotices x).reports = s.reports := rfl
@[simp] theorem State.withNotices_linkA : (s.withNotices x).linkA = s.linkA := rfl
@[simp] theorem State.withNotices_linkB : (s.withNotices x).linkB = s.linkB := rfl
@[simp] theorem State.withNotices_notices : (s.withNotices x).notices = x := rfl
@[simp] theorem State.withNotices_free : (s.withNotices x).free = s.free := rfl
@[simp] theorem State.withNotices_pending : (s.withNotices x).pending = s.pending := rfl

end

section
variable (s : State) (x : Nat)

@[simp] theorem State.withFree_clock : (s.withFree x).clock = s.clock := rfl
@[simp] theorem State.withFree_claims : (s.withFree x).claims = s.claims := rfl
@[simp] theorem State.withFree_assembler : (s.withFree x).assembler = s.assembler := rfl
@[simp] theorem State.withFree_schedule : (s.withFree x).schedule = s.schedule := rfl
@[simp] theorem State.withFree_cycles : (s.withFree x).cycles = s.cycles := rfl
@[simp] theorem State.withFree_engine : (s.withFree x).engine = s.engine := rfl
@[simp] theorem State.withFree_trigger : (s.withFree x).trigger = s.trigger := rfl
@[simp] theorem State.withFree_slots : (s.withFree x).slots = s.slots := rfl
@[simp] theorem State.withFree_bus : (s.withFree x).bus = s.bus := rfl
@[simp] theorem State.withFree_modules : (s.withFree x).modules = s.modules := rfl
@[simp] theorem State.withFree_sessions : (s.withFree x).sessions = s.sessions := rfl
@[simp] theorem State.withFree_reports : (s.withFree x).reports = s.reports := rfl
@[simp] theorem State.withFree_linkA : (s.withFree x).linkA = s.linkA := rfl
@[simp] theorem State.withFree_linkB : (s.withFree x).linkB = s.linkB := rfl
@[simp] theorem State.withFree_notices : (s.withFree x).notices = s.notices := rfl
@[simp] theorem State.withFree_free : (s.withFree x).free = x := rfl
@[simp] theorem State.withFree_pending : (s.withFree x).pending = s.pending := rfl

end

section
variable (s : State) (x : List Instr)

@[simp] theorem State.withPending_clock : (s.withPending x).clock = s.clock := rfl
@[simp] theorem State.withPending_claims : (s.withPending x).claims = s.claims := rfl
@[simp] theorem State.withPending_assembler : (s.withPending x).assembler = s.assembler := rfl
@[simp] theorem State.withPending_schedule : (s.withPending x).schedule = s.schedule := rfl
@[simp] theorem State.withPending_cycles : (s.withPending x).cycles = s.cycles := rfl
@[simp] theorem State.withPending_engine : (s.withPending x).engine = s.engine := rfl
@[simp] theorem State.withPending_trigger : (s.withPending x).trigger = s.trigger := rfl
@[simp] theorem State.withPending_slots : (s.withPending x).slots = s.slots := rfl
@[simp] theorem State.withPending_bus : (s.withPending x).bus = s.bus := rfl
@[simp] theorem State.withPending_modules : (s.withPending x).modules = s.modules := rfl
@[simp] theorem State.withPending_sessions : (s.withPending x).sessions = s.sessions := rfl
@[simp] theorem State.withPending_reports : (s.withPending x).reports = s.reports := rfl
@[simp] theorem State.withPending_linkA : (s.withPending x).linkA = s.linkA := rfl
@[simp] theorem State.withPending_linkB : (s.withPending x).linkB = s.linkB := rfl
@[simp] theorem State.withPending_notices : (s.withPending x).notices = s.notices := rfl
@[simp] theorem State.withPending_free : (s.withPending x).free = s.free := rfl
@[simp] theorem State.withPending_pending : (s.withPending x).pending = x := rfl

end

section
variable (s : State) (l : LinkId) (k : Link)

@[simp] theorem State.withLink_clock : (s.withLink l k).clock = s.clock := by cases l <;> rfl
@[simp] theorem State.withLink_claims : (s.withLink l k).claims = s.claims := by cases l <;> rfl
@[simp] theorem State.withLink_assembler : (s.withLink l k).assembler = s.assembler := by cases l <;> rfl
@[simp] theorem State.withLink_schedule : (s.withLink l k).schedule = s.schedule := by cases l <;> rfl
@[simp] theorem State.withLink_cycles : (s.withLink l k).cycles = s.cycles := by cases l <;> rfl
@[simp] theorem State.withLink_engine : (s.withLink l k).engine = s.engine := by cases l <;> rfl
@[simp] theorem State.withLink_trigger : (s.withLink l k).trigger = s.trigger := by cases l <;> rfl
@[simp] theorem State.withLink_slots : (s.withLink l k).slots = s.slots := by cases l <;> rfl
@[simp] theorem State.withLink_bus : (s.withLink l k).bus = s.bus := by cases l <;> rfl
@[simp] theorem State.withLink_modules : (s.withLink l k).modules = s.modules := by cases l <;> rfl
@[simp] theorem State.withLink_sessions : (s.withLink l k).sessions = s.sessions := by cases l <;> rfl
@[simp] theorem State.withLink_reports : (s.withLink l k).reports = s.reports := by cases l <;> rfl
@[simp] theorem State.withLink_notices : (s.withLink l k).notices = s.notices := by cases l <;> rfl
@[simp] theorem State.withLink_free : (s.withLink l k).free = s.free := by cases l <;> rfl
@[simp] theorem State.withLink_pending : (s.withLink l k).pending = s.pending := by cases l <;> rfl
@[simp] theorem State.link_withLink_self : (s.withLink l k).link l = k := by cases l <;> rfl
@[simp] theorem State.withLink_withLink (j : Link) : (s.withLink l j).withLink l k = s.withLink l k := by
  cases l <;> rfl
@[simp] theorem State.withLink_link : s.withLink l (s.link l) = s := by cases l <;> rfl
theorem State.link_withLink_ne {m : LinkId} (h : m ≠ l) : (s.withLink l k).link m = s.link m := by
  cases l <;> cases m <;> first | rfl | exact absurd rfl h

end

section
variable (s : State) (n m : SessionIx)

@[simp] theorem State.session_withSession (r : Option Session) :
    (s.withSession n r).session m = if n = m then r else s.session m := by
  simp [State.session, State.withSession]
@[simp] theorem State.openSet_withOpenSet (o : Option OpenSet) :
    (s.withOpenSet n o).openSet m = if n = m then o else s.openSet m := by
  simp [State.openSet, State.withOpenSet]
@[simp] theorem State.cycle_withCycle (c : Option Cycle) :
    (s.withCycle n c).cycle m = if n = m then c else s.cycle m := by
  simp [State.cycle, State.withCycle]
@[simp] theorem State.lists_withLists (x : ReportLists) :
    (s.withLists n x).lists m = if n = m then x else s.lists m := by
  simp [State.lists, State.withLists]

end

section
variable (s : State) (k j : SlotIx)

@[simp] theorem State.slot_withSlot (x : Slot) : (s.withSlot k x).slot j = if k = j then x else s.slot j := by
  simp [State.slot, State.withSlot]
@[simp] theorem State.module_withModule (x : Module) :
    (s.withModule k x).module j = if k = j then x else s.module j := by
  simp [State.module, State.withModule]

end

@[simp] theorem State.trig_withTrig (s : State) (l m : TrigLine) (x : TrigRec) :
    (s.withTrig l x).trig m = if l = m then x else s.trig m := by
  cases l <;> cases m <;> simp [State.trig, State.withTrig]

end Sys2Proof.Machine
end

