-- ==== Sys2Proof/Laws/Access.lean ====
section
/-! SUPPORT. Each reader of one record, through each operation that replaces another block's part. -/

namespace Sys2Proof.Machine

/-! ### `session` -/

section
variable (s : State) (n : SessionIx)

@[simp] theorem State.session_withClock (x : Clock) :
    (s.withClock x).session n = s.session n := rfl
@[simp] theorem State.session_withClaims (x : Claims) :
    (s.withClaims x).session n = s.session n := rfl
@[simp] theorem State.session_withAssembler (x : Assembler) :
    (s.withAssembler x).session n = s.session n := rfl
@[simp] theorem State.session_withSchedule (x : Schedule) :
    (s.withSchedule x).session n = s.session n := rfl
@[simp] theorem State.session_withCycles (x : Table (Option Cycle) 4) :
    (s.withCycles x).session n = s.session n := rfl
@[simp] theorem State.session_withEngine (x : Engine) :
    (s.withEngine x).session n = s.session n := rfl
@[simp] theorem State.session_withTrigger (x : Trigger) :
    (s.withTrigger x).session n = s.session n := rfl
@[simp] theorem State.session_withSlots (x : Table Slot 4) :
    (s.withSlots x).session n = s.session n := rfl
@[simp] theorem State.session_withBus (x : Bus) :
    (s.withBus x).session n = s.session n := rfl
@[simp] theorem State.session_withModules (x : Table Module 4) :
    (s.withModules x).session n = s.session n := rfl
@[simp] theorem State.session_withReports (x : Reports) :
    (s.withReports x).session n = s.session n := rfl
@[simp] theorem State.session_withNotices (x : List Notice) :
    (s.withNotices x).session n = s.session n := rfl
@[simp] theorem State.session_withFree (x : Nat) :
    (s.withFree x).session n = s.session n := rfl
@[simp] theorem State.session_withPending (x : List Instr) :
    (s.withPending x).session n = s.session n := rfl
@[simp] theorem State.session_withLink (l : LinkId) (k : Link) :
    (s.withLink l k).session n = s.session n := by cases l <;> rfl

end

/-! ### `channel` -/

section
variable (s : State) (n : ChanIx)

@[simp] theorem State.channel_withClock (x : Clock) :
    (s.withClock x).channel n = s.channel n := rfl
@[simp] theorem State.channel_withAssembler (x : Assembler) :
    (s.withAssembler x).channel n = s.channel n := rfl
@[simp] theorem State.channel_withSchedule (x : Schedule) :
    (s.withSchedule x).channel n = s.channel n := rfl
@[simp] theorem State.channel_withCycles (x : Table (Option Cycle) 4) :
    (s.withCycles x).channel n = s.channel n := rfl
@[simp] theorem State.channel_withEngine (x : Engine) :
    (s.withEngine x).channel n = s.channel n := rfl
@[simp] theorem State.channel_withTrigger (x : Trigger) :
    (s.withTrigger x).channel n = s.channel n := rfl
@[simp] theorem State.channel_withSlots (x : Table Slot 4) :
    (s.withSlots x).channel n = s.channel n := rfl
@[simp] theorem State.channel_withBus (x : Bus) :
    (s.withBus x).channel n = s.channel n := rfl
@[simp] theorem State.channel_withModules (x : Table Module 4) :
    (s.withModules x).channel n = s.channel n := rfl
@[simp] theorem State.channel_withSessions (x : SessionTable) :
    (s.withSessions x).channel n = s.channel n := rfl
@[simp] theorem State.channel_withReports (x : Reports) :
    (s.withReports x).channel n = s.channel n := rfl
@[simp] theorem State.channel_withNotices (x : List Notice) :
    (s.withNotices x).channel n = s.channel n := rfl
@[simp] theorem State.channel_withFree (x : Nat) :
    (s.withFree x).channel n = s.channel n := rfl
@[simp] theorem State.channel_withPending (x : List Instr) :
    (s.withPending x).channel n = s.channel n := rfl
@[simp] theorem State.channel_withLink (l : LinkId) (k : Link) :
    (s.withLink l k).channel n = s.channel n := by cases l <;> rfl

end

/-! ### `openSet` -/

section
variable (s : State) (n : SessionIx)

@[simp] theorem State.openSet_withClock (x : Clock) :
    (s.withClock x).openSet n = s.openSet n := rfl
@[simp] theorem State.openSet_withClaims (x : Claims) :
    (s.withClaims x).openSet n = s.openSet n := rfl
@[simp] theorem State.openSet_withSchedule (x : Schedule) :
    (s.withSchedule x).openSet n = s.openSet n := rfl
@[simp] theorem State.openSet_withCycles (x : Table (Option Cycle) 4) :
    (s.withCycles x).openSet n = s.openSet n := rfl
@[simp] theorem State.openSet_withEngine (x : Engine) :
    (s.withEngine x).openSet n = s.openSet n := rfl
@[simp] theorem State.openSet_withTrigger (x : Trigger) :
    (s.withTrigger x).openSet n = s.openSet n := rfl
@[simp] theorem State.openSet_withSlots (x : Table Slot 4) :
    (s.withSlots x).openSet n = s.openSet n := rfl
@[simp] theorem State.openSet_withBus (x : Bus) :
    (s.withBus x).openSet n = s.openSet n := rfl
@[simp] theorem State.openSet_withModules (x : Table Module 4) :
    (s.withModules x).openSet n = s.openSet n := rfl
@[simp] theorem State.openSet_withSessions (x : SessionTable) :
    (s.withSessions x).openSet n = s.openSet n := rfl
@[simp] theorem State.openSet_withReports (x : Reports) :
    (s.withReports x).openSet n = s.openSet n := rfl
@[simp] theorem State.openSet_withNotices (x : List Notice) :
    (s.withNotices x).openSet n = s.openSet n := rfl
@[simp] theorem State.openSet_withFree (x : Nat) :
    (s.withFree x).openSet n = s.openSet n := rfl
@[simp] theorem State.openSet_withPending (x : List Instr) :
    (s.withPending x).openSet n = s.openSet n := rfl
@[simp] theorem State.openSet_withLink (l : LinkId) (k : Link) :
    (s.withLink l k).openSet n = s.openSet n := by cases l <;> rfl

end

/-! ### `cycle` -/

section
variable (s : State) (n : SessionIx)

@[simp] theorem State.cycle_withClock (x : Clock) :
    (s.withClock x).cycle n = s.cycle n := rfl
@[simp] theorem State.cycle_withClaims (x : Claims) :
    (s.withClaims x).cycle n = s.cycle n := rfl
@[simp] theorem State.cycle_withAssembler (x : Assembler) :
    (s.withAssembler x).cycle n = s.cycle n := rfl
@[simp] theorem State.cycle_withSchedule (x : Schedule) :
    (s.withSchedule x).cycle n = s.cycle n := rfl
@[simp] theorem State.cycle_withEngine (x : Engine) :
    (s.withEngine x).cycle n = s.cycle n := rfl
@[simp] theorem State.cycle_withTrigger (x : Trigger) :
    (s.withTrigger x).cycle n = s.cycle n := rfl
@[simp] theorem State.cycle_withSlots (x : Table Slot 4) :
    (s.withSlots x).cycle n = s.cycle n := rfl
@[simp] theorem State.cycle_withBus (x : Bus) :
    (s.withBus x).cycle n = s.cycle n := rfl
@[simp] theorem State.cycle_withModules (x : Table Module 4) :
    (s.withModules x).cycle n = s.cycle n := rfl
@[simp] theorem State.cycle_withSessions (x : SessionTable) :
    (s.withSessions x).cycle n = s.cycle n := rfl
@[simp] theorem State.cycle_withReports (x : Reports) :
    (s.withReports x).cycle n = s.cycle n := rfl
@[simp] theorem State.cycle_withNotices (x : List Notice) :
    (s.withNotices x).cycle n = s.cycle n := rfl
@[simp] theorem State.cycle_withFree (x : Nat) :
    (s.withFree x).cycle n = s.cycle n := rfl
@[simp] theorem State.cycle_withPending (x : List Instr) :
    (s.withPending x).cycle n = s.cycle n := rfl
@[simp] theorem State.cycle_withLink (l : LinkId) (k : Link) :
    (s.withLink l k).cycle n = s.cycle n := by cases l <;> rfl

end

/-! ### `slot` -/

section
variable (s : State) (n : SlotIx)

@[simp] theorem State.slot_withClock (x : Clock) :
    (s.withClock x).slot n = s.slot n := rfl
@[simp] theorem State.slot_withClaims (x : Claims) :
    (s.withClaims x).slot n = s.slot n := rfl
@[simp] theorem State.slot_withAssembler (x : Assembler) :
    (s.withAssembler x).slot n = s.slot n := rfl
@[simp] theorem State.slot_withSchedule (x : Schedule) :
    (s.withSchedule x).slot n = s.slot n := rfl
@[simp] theorem State.slot_withCycles (x : Table (Option Cycle) 4) :
    (s.withCycles x).slot n = s.slot n := rfl
@[simp] theorem State.slot_withEngine (x : Engine) :
    (s.withEngine x).slot n = s.slot n := rfl
@[simp] theorem State.slot_withTrigger (x : Trigger) :
    (s.withTrigger x).slot n = s.slot n := rfl
@[simp] theorem State.slot_withBus (x : Bus) :
    (s.withBus x).slot n = s.slot n := rfl
@[simp] theorem State.slot_withModules (x : Table Module 4) :
    (s.withModules x).slot n = s.slot n := rfl
@[simp] theorem State.slot_withSessions (x : SessionTable) :
    (s.withSessions x).slot n = s.slot n := rfl
@[simp] theorem State.slot_withReports (x : Reports) :
    (s.withReports x).slot n = s.slot n := rfl
@[simp] theorem State.slot_withNotices (x : List Notice) :
    (s.withNotices x).slot n = s.slot n := rfl
@[simp] theorem State.slot_withFree (x : Nat) :
    (s.withFree x).slot n = s.slot n := rfl
@[simp] theorem State.slot_withPending (x : List Instr) :
    (s.withPending x).slot n = s.slot n := rfl
@[simp] theorem State.slot_withLink (l : LinkId) (k : Link) :
    (s.withLink l k).slot n = s.slot n := by cases l <;> rfl

end

/-! ### `module` -/

section
variable (s : State) (n : SlotIx)

@[simp] theorem State.module_withClock (x : Clock) :
    (s.withClock x).module n = s.module n := rfl
@[simp] theorem State.module_withClaims (x : Claims) :
    (s.withClaims x).module n = s.module n := rfl
@[simp] theorem State.module_withAssembler (x : Assembler) :
    (s.withAssembler x).module n = s.module n := rfl
@[simp] theorem State.module_withSchedule (x : Schedule) :
    (s.withSchedule x).module n = s.module n := rfl
@[simp] theorem State.module_withCycles (x : Table (Option Cycle) 4) :
    (s.withCycles x).module n = s.module n := rfl
@[simp] theorem State.module_withEngine (x : Engine) :
    (s.withEngine x).module n = s.module n := rfl
@[simp] theorem State.module_withTrigger (x : Trigger) :
    (s.withTrigger x).module n = s.module n := rfl
@[simp] theorem State.module_withSlots (x : Table Slot 4) :
    (s.withSlots x).module n = s.module n := rfl
@[simp] theorem State.module_withBus (x : Bus) :
    (s.withBus x).module n = s.module n := rfl
@[simp] theorem State.module_withSessions (x : SessionTable) :
    (s.withSessions x).module n = s.module n := rfl
@[simp] theorem State.module_withReports (x : Reports) :
    (s.withReports x).module n = s.module n := rfl
@[simp] theorem State.module_withNotices (x : List Notice) :
    (s.withNotices x).module n = s.module n := rfl
@[simp] theorem State.module_withFree (x : Nat) :
    (s.withFree x).module n = s.module n := rfl
@[simp] theorem State.module_withPending (x : List Instr) :
    (s.withPending x).module n = s.module n := rfl
@[simp] theorem State.module_withLink (l : LinkId) (k : Link) :
    (s.withLink l k).module n = s.module n := by cases l <;> rfl

end

/-! ### `lists` -/

section
variable (s : State) (n : SessionIx)

@[simp] theorem State.lists_withClock (x : Clock) :
    (s.withClock x).lists n = s.lists n := rfl
@[simp] theorem State.lists_withClaims (x : Claims) :
    (s.withClaims x).lists n = s.lists n := rfl
@[simp] theorem State.lists_withAssembler (x : Assembler) :
    (s.withAssembler x).lists n = s.lists n := rfl
@[simp] theorem State.lists_withSchedule (x : Schedule) :
    (s.withSchedule x).lists n = s.lists n := rfl
@[simp] theorem State.lists_withCycles (x : Table (Option Cycle) 4) :
    (s.withCycles x).lists n = s.lists n := rfl
@[simp] theorem State.lists_withEngine (x : Engine) :
    (s.withEngine x).lists n = s.lists n := rfl
@[simp] theorem State.lists_withTrigger (x : Trigger) :
    (s.withTrigger x).lists n = s.lists n := rfl
@[simp] theorem State.lists_withSlots (x : Table Slot 4) :
    (s.withSlots x).lists n = s.lists n := rfl
@[simp] theorem State.lists_withBus (x : Bus) :
    (s.withBus x).lists n = s.lists n := rfl
@[simp] theorem State.lists_withModules (x : Table Module 4) :
    (s.withModules x).lists n = s.lists n := rfl
@[simp] theorem State.lists_withSessions (x : SessionTable) :
    (s.withSessions x).lists n = s.lists n := rfl
@[simp] theorem State.lists_withNotices (x : List Notice) :
    (s.withNotices x).lists n = s.lists n := rfl
@[simp] theorem State.lists_withFree (x : Nat) :
    (s.withFree x).lists n = s.lists n := rfl
@[simp] theorem State.lists_withPending (x : List Instr) :
    (s.withPending x).lists n = s.lists n := rfl
@[simp] theorem State.lists_withLink (l : LinkId) (k : Link) :
    (s.withLink l k).lists n = s.lists n := by cases l <;> rfl

end

/-! ### `trig` -/

section
variable (s : State) (n : TrigLine)

@[simp] theorem State.trig_withClock (x : Clock) :
    (s.withClock x).trig n = s.trig n := rfl
@[simp] theorem State.trig_withClaims (x : Claims) :
    (s.withClaims x).trig n = s.trig n := rfl
@[simp] theorem State.trig_withAssembler (x : Assembler) :
    (s.withAssembler x).trig n = s.trig n := rfl
@[simp] theorem State.trig_withSchedule (x : Schedule) :
    (s.withSchedule x).trig n = s.trig n := rfl
@[simp] theorem State.trig_withCycles (x : Table (Option Cycle) 4) :
    (s.withCycles x).trig n = s.trig n := rfl
@[simp] theorem State.trig_withEngine (x : Engine) :
    (s.withEngine x).trig n = s.trig n := rfl
@[simp] theorem State.trig_withSlots (x : Table Slot 4) :
    (s.withSlots x).trig n = s.trig n := rfl
@[simp] theorem State.trig_withBus (x : Bus) :
    (s.withBus x).trig n = s.trig n := rfl
@[simp] theorem State.trig_withModules (x : Table Module 4) :
    (s.withModules x).trig n = s.trig n := rfl
@[simp] theorem State.trig_withSessions (x : SessionTable) :
    (s.withSessions x).trig n = s.trig n := rfl
@[simp] theorem State.trig_withReports (x : Reports) :
    (s.withReports x).trig n = s.trig n := rfl
@[simp] theorem State.trig_withNotices (x : List Notice) :
    (s.withNotices x).trig n = s.trig n := rfl
@[simp] theorem State.trig_withFree (x : Nat) :
    (s.withFree x).trig n = s.trig n := rfl
@[simp] theorem State.trig_withPending (x : List Instr) :
    (s.withPending x).trig n = s.trig n := rfl
@[simp] theorem State.trig_withLink (l : LinkId) (k : Link) :
    (s.withLink l k).trig n = s.trig n := by cases l <;> rfl

end

/-! ### `link` -/

section
variable (s : State) (n : LinkId)

@[simp] theorem State.link_withClock (x : Clock) :
    (s.withClock x).link n = s.link n := by cases n <;> rfl
@[simp] theorem State.link_withClaims (x : Claims) :
    (s.withClaims x).link n = s.link n := by cases n <;> rfl
@[simp] theorem State.link_withAssembler (x : Assembler) :
    (s.withAssembler x).link n = s.link n := by cases n <;> rfl
@[simp] theorem State.link_withSchedule (x : Schedule) :
    (s.withSchedule x).link n = s.link n := by cases n <;> rfl
@[simp] theorem State.link_withCycles (x : Table (Option Cycle) 4) :
    (s.withCycles x).link n = s.link n := by cases n <;> rfl
@[simp] theorem State.link_withEngine (x : Engine) :
    (s.withEngine x).link n = s.link n := by cases n <;> rfl
@[simp] theorem State.link_withTrigger (x : Trigger) :
    (s.withTrigger x).link n = s.link n := by cases n <;> rfl
@[simp] theorem State.link_withSlots (x : Table Slot 4) :
    (s.withSlots x).link n = s.link n := by cases n <;> rfl
@[simp] theorem State.link_withBus (x : Bus) :
    (s.withBus x).link n = s.link n := by cases n <;> rfl
@[simp] theorem State.link_withModules (x : Table Module 4) :
    (s.withModules x).link n = s.link n := by cases n <;> rfl
@[simp] theorem State.link_withSessions (x : SessionTable) :
    (s.withSessions x).link n = s.link n := by cases n <;> rfl
@[simp] theorem State.link_withReports (x : Reports) :
    (s.withReports x).link n = s.link n := by cases n <;> rfl
@[simp] theorem State.link_withNotices (x : List Notice) :
    (s.withNotices x).link n = s.link n := by cases n <;> rfl
@[simp] theorem State.link_withFree (x : Nat) :
    (s.withFree x).link n = s.link n := by cases n <;> rfl
@[simp] theorem State.link_withPending (x : List Instr) :
    (s.withPending x).link n = s.link n := by cases n <;> rfl

end

/-! ### `sets` -/

section
variable (s : State)

@[simp] theorem State.sets_withClock (x : Clock) :
    (s.withClock x).sets = s.sets := rfl
@[simp] theorem State.sets_withClaims (x : Claims) :
    (s.withClaims x).sets = s.sets := rfl
@[simp] theorem State.sets_withAssembler (x : Assembler) :
    (s.withAssembler x).sets = s.sets := rfl
@[simp] theorem State.sets_withCycles (x : Table (Option Cycle) 4) :
    (s.withCycles x).sets = s.sets := rfl
@[simp] theorem State.sets_withEngine (x : Engine) :
    (s.withEngine x).sets = s.sets := rfl
@[simp] theorem State.sets_withTrigger (x : Trigger) :
    (s.withTrigger x).sets = s.sets := rfl
@[simp] theorem State.sets_withSlots (x : Table Slot 4) :
    (s.withSlots x).sets = s.sets := rfl
@[simp] theorem State.sets_withBus (x : Bus) :
    (s.withBus x).sets = s.sets := rfl
@[simp] theorem State.sets_withModules (x : Table Module 4) :
    (s.withModules x).sets = s.sets := rfl
@[simp] theorem State.sets_withSessions (x : SessionTable) :
    (s.withSessions x).sets = s.sets := rfl
@[simp] theorem State.sets_withReports (x : Reports) :
    (s.withReports x).sets = s.sets := rfl
@[simp] theorem State.sets_withNotices (x : List Notice) :
    (s.withNotices x).sets = s.sets := rfl
@[simp] theorem State.sets_withFree (x : Nat) :
    (s.withFree x).sets = s.sets := rfl
@[simp] theorem State.sets_withPending (x : List Instr) :
    (s.withPending x).sets = s.sets := rfl
@[simp] theorem State.sets_withLink (l : LinkId) (k : Link) :
    (s.withLink l k).sets = s.sets := by cases l <;> rfl

end

/-! ### `isHalted` -/

section
variable (s : State)

@[simp] theorem State.isHalted_withClock (x : Clock) :
    (s.withClock x).isHalted = s.isHalted := rfl
@[simp] theorem State.isHalted_withClaims (x : Claims) :
    (s.withClaims x).isHalted = s.isHalted := rfl
@[simp] theorem State.isHalted_withAssembler (x : Assembler) :
    (s.withAssembler x).isHalted = s.isHalted := rfl
@[simp] theorem State.isHalted_withSchedule (x : Schedule) :
    (s.withSchedule x).isHalted = s.isHalted := rfl
@[simp] theorem State.isHalted_withCycles (x : Table (Option Cycle) 4) :
    (s.withCycles x).isHalted = s.isHalted := rfl
@[simp] theorem State.isHalted_withEngine (x : Engine) :
    (s.withEngine x).isHalted = s.isHalted := rfl
@[simp] theorem State.isHalted_withSlots (x : Table Slot 4) :
    (s.withSlots x).isHalted = s.isHalted := rfl
@[simp] theorem State.isHalted_withBus (x : Bus) :
    (s.withBus x).isHalted = s.isHalted := rfl
@[simp] theorem State.isHalted_withModules (x : Table Module 4) :
    (s.withModules x).isHalted = s.isHalted := rfl
@[simp] theorem State.isHalted_withSessions (x : SessionTable) :
    (s.withSessions x).isHalted = s.isHalted := rfl
@[simp] theorem State.isHalted_withReports (x : Reports) :
    (s.withReports x).isHalted = s.isHalted := rfl
@[simp] theorem State.isHalted_withNotices (x : List Notice) :
    (s.withNotices x).isHalted = s.isHalted := rfl
@[simp] theorem State.isHalted_withFree (x : Nat) :
    (s.withFree x).isHalted = s.isHalted := rfl
@[simp] theorem State.isHalted_withPending (x : List Instr) :
    (s.withPending x).isHalted = s.isHalted := rfl
@[simp] theorem State.isHalted_withLink (l : LinkId) (k : Link) :
    (s.withLink l k).isHalted = s.isHalted := by cases l <;> rfl

end

end Sys2Proof.Machine
end

