-- ==== Sys2Proof/Laws/Frame.lean ====
section
/-! SUPPORT. What each operation may change: one lemma per operation, in the form in which `simp` strips the
operation off `OnlyChanges`, given that the parts it changes are in the list. -/

namespace Sys2Proof.Machine

/-! ### The relation -/

theorem Part.same_refl (p : Part) (s : State) : p.same s s := by cases p <;> rfl

theorem Part.same_iff {p : Part} {s t u : State} (h : p.same t u) : p.same s u ↔ p.same s t := by
  cases p <;> simp_all [Part.same]

@[simp] theorem OnlyChanges.refl (ps : List Part) (s : State) : OnlyChanges ps s s :=
  fun p _ => p.same_refl s

theorem OnlyChanges.iff_of {ps qs : List Part} {s t u : State} (hs : ∀ p ∈ qs, p ∈ ps)
    (h : OnlyChanges qs t u) : OnlyChanges ps s u ↔ OnlyChanges ps s t :=
  forall_congr' fun p => forall_congr' fun hp => Part.same_iff (h p fun hq => hp (hs p hq))

theorem OnlyChanges.trans {ps : List Part} {s t u : State} (h : OnlyChanges ps s t)
    (k : OnlyChanges ps t u) : OnlyChanges ps s u := (OnlyChanges.iff_of (fun _ h => h) k).2 h

theorem OnlyChanges.mono {ps qs : List Part} {s t : State} (hs : ∀ p ∈ qs, p ∈ ps)
    (h : OnlyChanges qs s t) : OnlyChanges ps s t := (OnlyChanges.iff_of hs h).2 (.refl _ _)

section
variable {ps : List Part} {s t : State}

@[simp] theorem only_withClock (h : Part.clock ∈ ps) (x : Clock) :
    OnlyChanges ps s (t.withClock x) ↔ OnlyChanges ps s t :=
  OnlyChanges.iff_of (qs := [.clock]) (by simp [h]) fun p hp => by
    cases p <;> first | rfl | exact absurd (by decide) hp

@[simp] theorem only_withClaims (h : Part.claims ∈ ps) (x : Claims) :
    OnlyChanges ps s (t.withClaims x) ↔ OnlyChanges ps s t :=
  OnlyChanges.iff_of (qs := [.claims]) (by simp [h]) fun p hp => by
    cases p <;> first | rfl | exact absurd (by decide) hp

@[simp] theorem only_withAssembler (h : Part.assembler ∈ ps) (x : Assembler) :
    OnlyChanges ps s (t.withAssembler x) ↔ OnlyChanges ps s t :=
  OnlyChanges.iff_of (qs := [.assembler]) (by simp [h]) fun p hp => by
    cases p <;> first | rfl | exact absurd (by decide) hp

@[simp] theorem only_withSchedule (h : Part.schedule ∈ ps) (x : Schedule) :
    OnlyChanges ps s (t.withSchedule x) ↔ OnlyChanges ps s t :=
  OnlyChanges.iff_of (qs := [.schedule]) (by simp [h]) fun p hp => by
    cases p <;> first | rfl | exact absurd (by decide) hp

@[simp] theorem only_withCycles (h : Part.cycles ∈ ps) (x : Table (Option Cycle) 4) :
    OnlyChanges ps s (t.withCycles x) ↔ OnlyChanges ps s t :=
  OnlyChanges.iff_of (qs := [.cycles]) (by simp [h]) fun p hp => by
    cases p <;> first | rfl | exact absurd (by decide) hp

@[simp] theorem only_withEngine (h : Part.engine ∈ ps) (x : Engine) :
    OnlyChanges ps s (t.withEngine x) ↔ OnlyChanges ps s t :=
  OnlyChanges.iff_of (qs := [.engine]) (by simp [h]) fun p hp => by
    cases p <;> first | rfl | exact absurd (by decide) hp

@[simp] theorem only_withTrigger (h : Part.trigger ∈ ps) (x : Trigger) :
    OnlyChanges ps s (t.withTrigger x) ↔ OnlyChanges ps s t :=
  OnlyChanges.iff_of (qs := [.trigger]) (by simp [h]) fun p hp => by
    cases p <;> first | rfl | exact absurd (by decide) hp

@[simp] theorem only_withSlots (h : Part.slots ∈ ps) (x : Table Slot 4) :
    OnlyChanges ps s (t.withSlots x) ↔ OnlyChanges ps s t :=
  OnlyChanges.iff_of (qs := [.slots]) (by simp [h]) fun p hp => by
    cases p <;> first | rfl | exact absurd (by decide) hp

@[simp] theorem only_withBus (h : Part.bus ∈ ps) (x : Bus) :
    OnlyChanges ps s (t.withBus x) ↔ OnlyChanges ps s t :=
  OnlyChanges.iff_of (qs := [.bus]) (by simp [h]) fun p hp => by
    cases p <;> first | rfl | exact absurd (by decide) hp

@[simp] theorem only_withModules (h : Part.modules ∈ ps) (x : Table Module 4) :
    OnlyChanges ps s (t.withModules x) ↔ OnlyChanges ps s t :=
  OnlyChanges.iff_of (qs := [.modules]) (by simp [h]) fun p hp => by
    cases p <;> first | rfl | exact absurd (by decide) hp

@[simp] theorem only_withSessions (h : Part.sessions ∈ ps) (x : SessionTable) :
    OnlyChanges ps s (t.withSessions x) ↔ OnlyChanges ps s t :=
  OnlyChanges.iff_of (qs := [.sessions]) (by simp [h]) fun p hp => by
    cases p <;> first | rfl | exact absurd (by decide) hp

@[simp] theorem only_withReports (h : Part.reports ∈ ps) (x : Reports) :
    OnlyChanges ps s (t.withReports x) ↔ OnlyChanges ps s t :=
  OnlyChanges.iff_of (qs := [.reports]) (by simp [h]) fun p hp => by
    cases p <;> first | rfl | exact absurd (by decide) hp

@[simp] theorem only_withLinkA (h : Part.linkA ∈ ps) (x : Link) :
    OnlyChanges ps s (t.withLinkA x) ↔ OnlyChanges ps s t :=
  OnlyChanges.iff_of (qs := [.linkA]) (by simp [h]) fun p hp => by
    cases p <;> first | rfl | exact absurd (by decide) hp

@[simp] theorem only_withLinkB (h : Part.linkB ∈ ps) (x : Link) :
    OnlyChanges ps s (t.withLinkB x) ↔ OnlyChanges ps s t :=
  OnlyChanges.iff_of (qs := [.linkB]) (by simp [h]) fun p hp => by
    cases p <;> first | rfl | exact absurd (by decide) hp

@[simp] theorem only_withNotices (h : Part.notices ∈ ps) (x : List Notice) :
    OnlyChanges ps s (t.withNotices x) ↔ OnlyChanges ps s t :=
  OnlyChanges.iff_of (qs := [.notices]) (by simp [h]) fun p hp => by
    cases p <;> first | rfl | exact absurd (by decide) hp

@[simp] theorem only_withFree (h : Part.free ∈ ps) (x : Nat) :
    OnlyChanges ps s (t.withFree x) ↔ OnlyChanges ps s t :=
  OnlyChanges.iff_of (qs := [.free]) (by simp [h]) fun p hp => by
    cases p <;> first | rfl | exact absurd (by decide) hp

@[simp] theorem only_withPending (h : Part.pending ∈ ps) (x : List Instr) :
    OnlyChanges ps s (t.withPending x) ↔ OnlyChanges ps s t :=
  OnlyChanges.iff_of (qs := [.pending]) (by simp [h]) fun p hp => by
    cases p <;> first | rfl | exact absurd (by decide) hp

@[simp] theorem only_withLink (l : LinkId) (h : linkPart l ∈ ps) (k : Link) :
    OnlyChanges ps s (t.withLink l k) ↔ OnlyChanges ps s t := by
  cases l
  · exact only_withLinkA h k
  · exact only_withLinkB h k

/-- A fold changes what its function changes. -/
theorem only_foldl {α : Type} (f : State → α → State) (xs : List α)
    (h : ∀ (u : State) (a : α), OnlyChanges ps s (f u a) ↔ OnlyChanges ps s u) :
    OnlyChanges ps s (xs.foldl f t) ↔ OnlyChanges ps s t := by
  induction xs generalizing t with
  | nil => rfl
  | cons a rest ih => rw [List.foldl_cons, ih, h]

end

section
variable {ps : List Part} {s t : State}

/-! ### Records of tables -/

@[simp] theorem only_withSession (h : Part.sessions ∈ ps) (n : SessionIx) (r : Option Session) :
    OnlyChanges ps s (t.withSession n r) ↔ OnlyChanges ps s t := only_withSessions h _
@[simp] theorem only_withChannels (h : Part.claims ∈ ps) (x : Table (Option Channel) 32) :
    OnlyChanges ps s (t.withChannels x) ↔ OnlyChanges ps s t := only_withClaims h _
@[simp] theorem only_withWaits (h : Part.claims ∈ ps) (x : List WaitEntry) :
    OnlyChanges ps s (t.withWaits x) ↔ OnlyChanges ps s t := only_withClaims h _
@[simp] theorem only_withOpenSet (h : Part.assembler ∈ ps) (n : SessionIx) (o : Option OpenSet) :
    OnlyChanges ps s (t.withOpenSet n o) ↔ OnlyChanges ps s t := only_withAssembler h _
@[simp] theorem only_withCycle (h : Part.cycles ∈ ps) (n : SessionIx) (c : Option Cycle) :
    OnlyChanges ps s (t.withCycle n c) ↔ OnlyChanges ps s t := only_withCycles h _
@[simp] theorem only_withSlot (h : Part.slots ∈ ps) (k : SlotIx) (x : Slot) :
    OnlyChanges ps s (t.withSlot k x) ↔ OnlyChanges ps s t := only_withSlots h _
@[simp] theorem only_withModule (h : Part.modules ∈ ps) (k : SlotIx) (x : Module) :
    OnlyChanges ps s (t.withModule k x) ↔ OnlyChanges ps s t := only_withModules h _
@[simp] theorem only_withLists (h : Part.reports ∈ ps) (n : SessionIx) (x : ReportLists) :
    OnlyChanges ps s (t.withLists n x) ↔ OnlyChanges ps s t := only_withReports h _
@[simp] theorem only_withTrig (h : Part.trigger ∈ ps) (l : TrigLine) (x : TrigRec) :
    OnlyChanges ps s (t.withTrig l x) ↔ OnlyChanges ps s t := by
  cases l <;> exact only_withTrigger h _
@[simp] theorem only_withSets (h : Part.schedule ∈ ps) (x : List SealedSet) :
    OnlyChanges ps s (t.withSets x) ↔ OnlyChanges ps s t := only_withSchedule h _
@[simp] theorem only_withReady (h : Part.schedule ∈ ps) (x : List Nat) :
    OnlyChanges ps s (t.withReady x) ↔ OnlyChanges ps s t := only_withSchedule h _
@[simp] theorem only_withArmed (h : Part.schedule ∈ ps) (n : SessionIx) (b : Bool) :
    OnlyChanges ps s (withArmed n b t) ↔ OnlyChanges ps s t := only_withSchedule h _
@[simp] theorem only_withWork (h : Part.engine ∈ ps) (w : Option Work) :
    OnlyChanges ps s (t.withWork w) ↔ OnlyChanges ps s t := only_withEngine h _
@[simp] theorem only_withCaptures (h : Part.engine ∈ ps) (c : List CaptureEntry) :
    OnlyChanges ps s (t.withCaptures c) ↔ OnlyChanges ps s t := only_withEngine h _
@[simp] theorem only_withSync (h : Part.trigger ∈ ps) (x : SyncOut) :
    OnlyChanges ps s (t.withSync x) ↔ OnlyChanges ps s t := only_withTrigger h _
@[simp] theorem only_withMonitor (h : Part.trigger ∈ ps) (x : Monitor) :
    OnlyChanges ps s (t.withMonitor x) ↔ OnlyChanges ps s t := only_withTrigger h _

theorem only_ite {c : Prop} [Decidable c] {u v w : State}
    (hu : OnlyChanges ps s u ↔ OnlyChanges ps s w) (hv : OnlyChanges ps s v ↔ OnlyChanges ps s w) :
    OnlyChanges ps s (if c then u else v) ↔ OnlyChanges ps s w := by
  split
  · exact hu
  · exact hv

/-! ### Handing over -/

@[simp] theorem only_post (h : Part.notices ∈ ps) (n : Notice) :
    OnlyChanges ps s (post n t) ↔ OnlyChanges ps s t := only_withNotices h _
@[simp] theorem only_postAll (h : Part.notices ∈ ps) (ns : List Notice) :
    OnlyChanges ps s (postAll ns t) ↔ OnlyChanges ps s t := only_withNotices h _
@[simp] theorem only_dropNotice (h : Part.notices ∈ ps) (l : Lane) :
    OnlyChanges ps s (dropNotice l t) ↔ OnlyChanges ps s t := only_withNotices h _

/-- Taking a notice changes the notices and what the taking block changes. -/
theorem only_onNotice (h : Part.notices ∈ ps) (lane : Lane) (f : Notice → State → Option State)
    (hf : ∀ n u v, f n u = some v → (OnlyChanges ps s v ↔ OnlyChanges ps s u)) :
    OnlyChanges ps s (onNotice lane f t) ↔ OnlyChanges ps s t := by
  unfold onNotice
  split
  · rfl
  · next n _ =>
    cases hv : f n (dropNotice lane t) with
    | none => rfl
    | some v => simpa [h] using hf n _ v hv

@[simp] theorem only_sessionReport (h : Part.notices ∈ ps) (line : ReportLine) (n : SessionIx) (r : Report) :
    OnlyChanges ps s (sessionReport line n r t) ↔ OnlyChanges ps s t := by
  unfold sessionReport; split <;> simp [h]
@[simp] theorem only_systemReport (h : Part.notices ∈ ps) (line : ReportLine) (r : Report) :
    OnlyChanges ps s (systemReport line r t) ↔ OnlyChanges ps s t := by
  simp [systemReport, h]

/-! ### Link Ports -/

@[simp] theorem only_startSending (l : LinkId) (h : linkPart l ∈ ps) :
    OnlyChanges ps s (startSending l t) ↔ OnlyChanges ps s t := by
  simp only [startSending]; repeat' split
  all_goals simp [h]
@[simp] theorem only_placeReply (l : LinkId) (h : linkPart l ∈ ps) (r : Reply) :
    OnlyChanges ps s (placeReply l r t) ↔ OnlyChanges ps s t := by
  simp only [placeReply]; split <;> simp [h]
@[simp] theorem only_placeOrDiscard (l : LinkId) (h : linkPart l ∈ ps) (r : Reply) :
    OnlyChanges ps s (placeOrDiscard l r t) ↔ OnlyChanges ps s t := by
  simp only [placeOrDiscard]; split <;> simp [h]
@[simp] theorem only_moveHeldReply (l : LinkId) (h : linkPart l ∈ ps) :
    OnlyChanges ps s (moveHeldReply l t) ↔ OnlyChanges ps s t := by
  simp only [moveHeldReply]; repeat' split
  all_goals simp [h]
@[simp] theorem only_changeLink (l : LinkId) (h : linkPart l ∈ ps) (f : Link → Link) :
    OnlyChanges ps s (changeLink l f t) ↔ OnlyChanges ps s t := only_withLink l h _

/-! ### Requests -/

@[simp] theorem only_changeInUse (h : Part.sessions ∈ ps) (n : SessionIx) (f : Nat → Nat) :
    OnlyChanges ps s (changeInUse n f t) ↔ OnlyChanges ps s t := by
  unfold changeInUse; split <;> simp [h]
@[simp] theorem only_changePool (h : Part.assembler ∈ ps) (f : Nat → Nat) :
    OnlyChanges ps s (changePool f t) ↔ OnlyChanges ps s t := only_withAssembler h _
@[simp] theorem only_cacheReply (h : Header) (hl : linkPart h.link ∈ ps) (r : Request) (x : Reply)
    (o : Option SessionIx) : OnlyChanges ps s (cacheReply h r x o t) ↔ OnlyChanges ps s t := by
  simp only [cacheReply]; repeat' split
  all_goals simp [hl]
@[simp] theorem only_answerOpened (h : Header) (hl : linkPart h.link ∈ ps) (r : Request) (a : Answer)
    (o : Option SessionIx) : OnlyChanges ps s (answerOpened h r a o t) ↔ OnlyChanges ps s t := by
  simp [answerOpened, hl]
@[simp] theorem only_answer (h : Header) (hl : linkPart h.link ∈ ps) (r : Request) (a : Answer) :
    OnlyChanges ps s (answer h r a t) ↔ OnlyChanges ps s t := only_answerOpened h hl r a none
@[simp] theorem only_refuse (h : Header) (hl : linkPart h.link ∈ ps) (r : Request) (x : Reason) :
    OnlyChanges ps s (refuse h r x t) ↔ OnlyChanges ps s t := only_answer h hl r _
@[simp] theorem only_refuseUncached (h : Header) (hl : linkPart h.link ∈ ps) (k : Byte) (x : Reason) :
    OnlyChanges ps s (refuseUncached h k x t) ↔ OnlyChanges ps s t := only_placeReply h.link hl _
@[simp] theorem only_handOver (h : Header) (hl : linkPart h.link ∈ ps) (r : Request) :
    OnlyChanges ps s (handOver h r t) ↔ OnlyChanges ps s t := only_withLink h.link hl _
@[simp] theorem only_dispatchOpen (h : Header) (hl : linkPart h.link ∈ ps) (r : Request) :
    OnlyChanges ps s (dispatchOpen h r t) ↔ OnlyChanges ps s t := by
  simp only [dispatchOpen]; repeat' split
  all_goals simp [hl]
@[simp] theorem only_dispatchBound (h : Header) (hl : linkPart h.link ∈ ps) (r : Request) :
    OnlyChanges ps s (dispatchBound h r t) ↔ OnlyChanges ps s t := by
  simp only [dispatchBound]; repeat' split
  all_goals simp [hl]
@[simp] theorem only_dispatchRequest (h : Header) (hl : linkPart h.link ∈ ps) (r : Request) :
    OnlyChanges ps s (dispatchRequest h r t) ↔ OnlyChanges ps s t := by
  unfold dispatchRequest; split <;> simp [hl]
@[simp] theorem only_dispatchFrame (l : LinkId) (hl : linkPart l ∈ ps) (f : InFrame) :
    OnlyChanges ps s (dispatchFrame l f t) ↔ OnlyChanges ps s t := by
  unfold dispatchFrame; split <;> simp [hl, headerOf]
@[simp] theorem only_dispatchOldest (l : LinkId) (hl : linkPart l ∈ ps) :
    OnlyChanges ps s (dispatchOldest l t) ↔ OnlyChanges ps s t := by
  simp only [dispatchOldest]; split <;> simp [hl]
@[simp] theorem only_refreshLease (h : Part.sessions ∈ ps) (l : LinkId) (b : Byte) :
    OnlyChanges ps s (refreshLease l b t) ↔ OnlyChanges ps s t := by
  unfold refreshLease; repeat' split
  all_goals simp [h]
/-- Bringing a request in changes its Link Port and, for a request that has just arrived, its session's lease. -/
theorem only_bringIn (h : Header) (hl : linkPart h.link ∈ ps) (r : Request)
    (hj : NothingBefore h t → Part.sessions ∈ ps) : OnlyChanges ps s (bringIn h r t) ↔ OnlyChanges ps s t := by
  simp only [bringIn]; split
  · simp [hl, hj ⟨by assumption, by assumption, by assumption⟩]
  · split <;> simp [hl]
  · rfl
theorem only_runRequest (h : Header) (hl : linkPart h.link ∈ ps) (r : Request) (b : State → State)
    (hj : NothingBefore h t → Part.sessions ∈ ps)
    (hb : ∀ u, OnlyChanges ps s (b u) ↔ OnlyChanges ps s u) :
    OnlyChanges ps s (runRequest h r b t) ↔ OnlyChanges ps s t := by
  simp only [runRequest]; split <;> simp [only_bringIn h hl r hj, hb]
theorem only_takeRequest (v : Server) (h : Header) (hl : linkPart h.link ∈ ps) (r : Request)
    (b : SessionIx → State → State) (hb : ∀ n u, OnlyChanges ps s (b n u) ↔ OnlyChanges ps s u) :
    OnlyChanges ps s (takeRequest v h r b t) ↔ OnlyChanges ps s t := by
  unfold takeRequest; repeat' split
  all_goals simp [hl, hb]

/-- A request changes its Link Port, what its block's own rule changes and, just arrived, its session's lease. -/
theorem only_serve (v : Server) (h : Header) (hl : linkPart h.link ∈ ps) (r : Request)
    (b : SessionIx → State → State) (hj : NothingBefore h t → Part.sessions ∈ ps)
    (hb : ∀ n u, OnlyChanges ps s (b n u) ↔ OnlyChanges ps s u)
    {u : State} (hu : serve v h r b t = .next u) : OnlyChanges ps s u ↔ OnlyChanges ps s t := by
  cases hu
  exact only_runRequest h hl r _ hj fun _ => only_takeRequest v h hl r b hb

end

section
variable {ps : List Part} {s t : State}

/-! ### Sets and cycles -/

@[simp] theorem only_changeSet (h : Part.schedule ∈ ps) (id : Nat) (f : SealedSet → SealedSet) :
    OnlyChanges ps s (changeSet id f t) ↔ OnlyChanges ps s t := only_withSets h _
@[simp] theorem only_joinReady (h : Part.schedule ∈ ps) (id : Nat) :
    OnlyChanges ps s (joinReady id t) ↔ OnlyChanges ps s t := only_withReady h _
@[simp] theorem only_makeDue (h : Part.schedule ∈ ps) (id due : Nat) :
    OnlyChanges ps s (makeDue id due t) ↔ OnlyChanges ps s t := by simp [makeDue, h]
@[simp] theorem only_fallDueAt (h : Part.schedule ∈ ps) (id due : Nat) :
    OnlyChanges ps s (fallDueAt id due t) ↔ OnlyChanges ps s t := by
  unfold fallDueAt; split <;> simp [h]
@[simp] theorem only_dropMember (h : Part.cycles ∈ ps) (n : SessionIx) (id : Nat) :
    OnlyChanges ps s (dropMember n id t) ↔ OnlyChanges ps s t := by
  unfold dropMember; split <;> simp [h]
@[simp] theorem only_closeCycle (h : Part.cycles ∈ ps) (h' : Part.notices ∈ ps) (line : ReportLine)
    (n : SessionIx) (c : Cycle) (x : CycleEndReason) (m : Option (Nat × ResultReason)) :
    OnlyChanges ps s (closeCycle line n c x m t) ↔ OnlyChanges ps s t := by simp [closeCycle, h, h']
@[simp] theorem only_handResult (h : Part.notices ∈ ps) (x : SealedSet) (o : SetOutcome)
    (r : Option ResultReason) (p : Bool) (c : Option Nat) :
    OnlyChanges ps s (handResult x o r p c t) ↔ OnlyChanges ps s t := only_sessionReport h _ _ _
@[simp] theorem only_removeSet (h : Part.schedule ∈ ps) (h' : Part.notices ∈ ps) (x : SealedSet) :
    OnlyChanges ps s (removeSet x t) ↔ OnlyChanges ps s t := by simp [removeSet, h, h']
@[simp] theorem only_leaveSet (h : Part.schedule ∈ ps) (h' : Part.notices ∈ ps) (x : SealedSet)
    (o : SetOutcome) (r : Option ResultReason) (c : Option Nat) :
    OnlyChanges ps s (leaveSet x o r c t) ↔ OnlyChanges ps s t := by simp [leaveSet, h, h']
@[simp] theorem only_breakChains (h : Part.schedule ∈ ps) (h' : Part.notices ∈ ps) (fuel : Nat)
    (work ex : List Nat) : OnlyChanges ps s (breakChains fuel work ex t) ↔ OnlyChanges ps s t := by
  induction fuel generalizing work t with
  | zero => simp [breakChains]
  | succ f ih =>
    cases work with
    | nil => simp [breakChains]
    | cons id rest => simp only [breakChains]; split <;> simp [ih, h, h']
@[simp] theorem only_breakChain (h : Part.schedule ∈ ps) (h' : Part.notices ∈ ps) (x : SealedSet)
    (ex : List Nat) : OnlyChanges ps s (breakChain x ex t) ↔ OnlyChanges ps s t :=
  only_breakChains h h' _ _ _
@[simp] theorem only_resolveChain (h : Part.schedule ∈ ps) (x : SealedSet) (c : Nat) :
    OnlyChanges ps s (resolveChain x c t) ↔ OnlyChanges ps s t := by
  refine only_foldl _ _ fun u id => ?_
  try dsimp only
  repeat' split
  all_goals simp [h]
@[simp] theorem only_cancelSet (h : Part.schedule ∈ ps) (h' : Part.notices ∈ ps) (h'' : Part.cycles ∈ ps)
    (x : SealedSet) (r : ResultReason) (ex : List Nat) :
    OnlyChanges ps s (cancelSet x r ex t) ↔ OnlyChanges ps s t := by simp [cancelSet, h, h', h'']
@[simp] theorem only_cancelSets (h : Part.schedule ∈ ps) (h' : Part.notices ∈ ps) (h'' : Part.cycles ∈ ps)
    (ids : List Nat) (r : ResultReason) :
    OnlyChanges ps s (cancelSets ids r t) ↔ OnlyChanges ps s t := by
  refine only_foldl _ _ fun u id => ?_
  try dsimp only
  repeat' split
  all_goals simp [h, h', h'']
@[simp] theorem only_stopMembers (h : Part.schedule ∈ ps) (h' : Part.notices ∈ ps) (h'' : Part.cycles ∈ ps)
    (c : Cycle) (ex : List Nat) : OnlyChanges ps s (stopMembers c ex t) ↔ OnlyChanges ps s t := by
  refine only_foldl _ _ fun u id => ?_
  try dsimp only
  repeat' split
  all_goals simp [h, h', h'']
@[simp] theorem only_detachMembers (h : Part.schedule ∈ ps) (c : Cycle) :
    OnlyChanges ps s (detachMembers c t) ↔ OnlyChanges ps s t := only_withSets h _
@[simp] theorem only_endCycleEarly (h : Part.schedule ∈ ps) (h' : Part.notices ∈ ps)
    (h'' : Part.cycles ∈ ps) (n : SessionIx) (c : Cycle) (x : CycleEndReason) (id : Nat)
    (w : ResultReason) (ex : List Nat) :
    OnlyChanges ps s (endCycleEarly n c x id w ex t) ↔ OnlyChanges ps s t := by
  simp [endCycleEarly, h, h', h'']
@[simp] theorem only_cancelLost (h : Part.schedule ∈ ps) (h' : Part.notices ∈ ps) (h'' : Part.cycles ∈ ps)
    (r : ResultReason) (d : List Nat) (id : Nat) :
    OnlyChanges ps s (cancelLost r d id t) ↔ OnlyChanges ps s t := by
  simp only [cancelLost]; repeat' split
  all_goals simp [h, h', h'']
@[simp] theorem only_queueCheck (h : Part.schedule ∈ ps) (h' : Part.notices ∈ ps) (n : SessionIx) :
    OnlyChanges ps s (queueCheck t n) ↔ OnlyChanges ps s t := by
  simp only [queueCheck]; repeat' split
  all_goals simp [h, h']
@[simp] theorem only_queueChecks (h : Part.schedule ∈ ps) (h' : Part.notices ∈ ps) :
    OnlyChanges ps s (queueChecks t) ↔ OnlyChanges ps s t :=
  only_foldl _ _ fun _ n => only_queueCheck h h' n
@[simp] theorem only_cancelLostAll (h : Part.schedule ∈ ps) (h' : Part.notices ∈ ps)
    (h'' : Part.cycles ∈ ps) (r : ResultReason) (l : List LostChannel) :
    OnlyChanges ps s (cancelLostAll r l t) ↔ OnlyChanges ps s t := by
  simp only [cancelLostAll]
  rw [only_queueChecks h h', only_foldl _ _ fun _ _ => only_cancelLost h h' h'' _ _ _]
@[simp] theorem only_startPass (h : Part.schedule ∈ ps) (h' : Part.cycles ∈ ps) (n : SessionIx)
    (c : Cycle) (start : Nat) : OnlyChanges ps s (startPass n c start t) ↔ OnlyChanges ps s t := by
  simp only [startPass]
  rw [only_foldl, only_withCycle h']
  intro u id; try dsimp only
  repeat' split
  all_goals simp [h]
@[simp] theorem only_finishCycle (h : Part.schedule ∈ ps) (h' : Part.notices ∈ ps)
    (h'' : Part.cycles ∈ ps) (n : SessionIx) (c : Cycle) (x : CycleEndReason) :
    OnlyChanges ps s (finishCycle n c x t) ↔ OnlyChanges ps s t := by
  simp only [finishCycle]
  rw [only_closeCycle h'' h', only_foldl _ _ fun _ _ => only_breakChain h h' _ _, only_foldl]
  intro u id; try dsimp only
  repeat' split
  all_goals simp [h, h']

/-! ### Modules -/

@[simp] theorem only_moduleCarriesOut (h : Part.modules ∈ ps) (k : SlotIx) (no : Nat)
    (f : Module → Module) : OnlyChanges ps s (moduleCarriesOut k no f t) ↔ OnlyChanges ps s t := by
  simp only [moduleCarriesOut]; split <;> simp [h]
@[simp] theorem only_modulesCarryOut (h : Part.modules ∈ ps) (no : Nat) (f : SlotIx → Module → Module) :
    OnlyChanges ps s (modulesCarryOut no f t) ↔ OnlyChanges ps s t :=
  only_foldl _ _ fun _ k => only_moduleCarriesOut h k no _
@[simp] theorem only_transactionReaches (h : Part.modules ∈ ps) (x : Txn) (no : Nat) :
    OnlyChanges ps s (transactionReaches x no t) ↔ OnlyChanges ps s t := by
  unfold transactionReaches; split <;> simp [h]
@[simp] theorem only_strobeModules (h : Part.modules ∈ ps) :
    OnlyChanges ps s (strobeModules t) ↔ OnlyChanges ps s t := only_withModules h _

/-! ### Claim Unit -/

@[simp] theorem only_changeChannels (h : Part.claims ∈ ps) (f : ChanIx → Channel → Option Channel) :
    OnlyChanges ps s (changeChannels f t) ↔ OnlyChanges ps s t := only_withChannels h _
@[simp] theorem only_changeChannel (h : Part.claims ∈ ps) (c : ChanIx) (f : Channel → Channel) :
    OnlyChanges ps s (changeChannel c f t) ↔ OnlyChanges ps s t := by
  unfold changeChannel; split <;> simp [h]
@[simp] theorem only_driveRecordsSafe (h : Part.claims ∈ ps) :
    OnlyChanges ps s (driveRecordsSafe t) ↔ OnlyChanges ps s t := only_changeChannels h _
@[simp] theorem only_grantRange (h : Part.claims ∈ ps) (n : SessionIx) (a b : ChanIx) (p : LossPolicy) :
    OnlyChanges ps s (grantRange n a b p t) ↔ OnlyChanges ps s t := only_changeChannels h _
@[simp] theorem only_claimResult (h : Part.notices ∈ ps) (e : WaitEntry) (o : ClaimOutcome)
    (l : Option ChanIx) : OnlyChanges ps s (claimResult e o l t) ↔ OnlyChanges ps s t :=
  only_sessionReport h _ _ _
@[simp] theorem only_grantEntry (h : Part.claims ∈ ps) (h' : Part.notices ∈ ps) (e : WaitEntry) :
    OnlyChanges ps s (grantEntry t e) ↔ OnlyChanges ps s t := by
  unfold grantEntry; split <;> simp [h, h']
@[simp] theorem only_grantPass (h : Part.claims ∈ ps) (h' : Part.notices ∈ ps) :
    OnlyChanges ps s (grantPass t) ↔ OnlyChanges ps s t :=
  only_foldl _ _ fun _ e => only_grantEntry h h' e
@[simp] theorem only_queueDriveSafe (h : Part.notices ∈ ps) (d : ChanIx → Bool) :
    OnlyChanges ps s (queueDriveSafe d t) ↔ OnlyChanges ps s t := only_postAll h _
@[simp] theorem only_freeChannels (h : Part.claims ∈ ps) (h' : Part.notices ∈ ps) (f d : ChanIx → Bool) :
    OnlyChanges ps s (freeChannels f d t) ↔ OnlyChanges ps s t := by simp [freeChannels, h, h']
@[simp] theorem only_spoil (h : Part.assembler ∈ ps) (n : SessionIx) (cs : List ChanIx) :
    OnlyChanges ps s (spoil n cs t) ↔ OnlyChanges ps s t := by
  unfold spoil; repeat' split
  all_goals simp [h]
@[simp] theorem only_makePresent (h : Part.claims ∈ ps) (k : SlotIx) (d : Descriptor)
    (v : Option HeldValues) : OnlyChanges ps s (makePresent k d v t) ↔ OnlyChanges ps s t :=
  only_withChannels h _
@[simp] theorem only_dropAbsentWaits (h : Part.claims ∈ ps) (h' : Part.notices ∈ ps) (l : List ChanIx) :
    OnlyChanges ps s (dropAbsentWaits l t) ↔ OnlyChanges ps s t := by
  refine only_foldl _ _ fun u e => ?_
  try dsimp only
  split <;> simp [h, h']
@[simp] theorem only_makeAbsent (h : Part.claims ∈ ps) (h' : Part.notices ∈ ps) (k : SlotIx) :
    OnlyChanges ps s (makeAbsent k t) ↔ OnlyChanges ps s t := by
  simp only [makeAbsent]; split <;> simp [h, h']
@[simp] theorem only_dropWaits (h : Part.claims ∈ ps) (n : SessionIx) :
    OnlyChanges ps s (dropWaits n t) ↔ OnlyChanges ps s t := only_withWaits h _
@[simp] theorem only_endSessionClaims (h : Part.claims ∈ ps) (h' : Part.notices ∈ ps) (n : SessionIx) :
    OnlyChanges ps s (endSessionClaims n t) ↔ OnlyChanges ps s t := by simp [endSessionClaims, h, h']
@[simp] theorem only_takeRecord (h : Part.claims ∈ ps) (q : Bool) (r : CommitRecord) :
    OnlyChanges ps s (takeRecord q t r) ↔ OnlyChanges ps s t := only_changeChannel h _ _
@[simp] theorem only_recordReading (h : Part.claims ∈ ps) (h' : Part.notices ∈ ps) (e : CaptureEntry)
    (i : CaptureItem) (v : Int) : OnlyChanges ps s (recordReading e i v t) ↔ OnlyChanges ps s t := by
  simp only [recordReading]; repeat' split
  all_goals simp [h, h']
theorem only_takeItem (h : Part.claims ∈ ps) (h' : Part.notices ∈ ps) (e : CaptureEntry)
    (acc : State × List CapturedItem) (i : CaptureItem) :
    OnlyChanges ps s (takeItem e acc i).1 ↔ OnlyChanges ps s acc.1 := by
  unfold takeItem
  dsimp only
  exact only_ite (only_recordReading h h' e i _) Iff.rfl
theorem only_takeItems (h : Part.claims ∈ ps) (h' : Part.notices ∈ ps) (e : CaptureEntry)
    (acc : State × List CapturedItem) (is : List CaptureItem) :
    OnlyChanges ps s (is.foldl (takeItem e) acc).1 ↔ OnlyChanges ps s acc.1 := by
  induction is generalizing acc with
  | nil => rfl
  | cons i rest ih => rw [List.foldl_cons, ih, only_takeItem h h']
@[simp] theorem only_takeCapture (h : Part.claims ∈ ps) (h' : Part.notices ∈ ps) (h'' : Part.engine ∈ ps)
    (e : CaptureEntry) : OnlyChanges ps s (takeCapture e t) ↔ OnlyChanges ps s t := by
  simp [takeCapture, h', h'', only_takeItems h h']
@[simp] theorem only_giveSafeValues (h : Part.bus ∈ ps) (h' : Part.modules ∈ ps) :
    OnlyChanges ps s (giveSafeValues t) ↔ OnlyChanges ps s t := by
  simp only [giveSafeValues]; repeat' split
  all_goals simp [h, h']
@[simp] theorem only_shiftClaims (h : Part.claims ∈ ps) (d : Int) :
    OnlyChanges ps s (shiftClaims d t) ↔ OnlyChanges ps s t := only_withClaims h _

/-! ### Set Assembler -/

@[simp] theorem only_takeOpenItems (h : Part.assembler ∈ ps) (h' : Part.sessions ∈ ps) (n : SessionIx)
    (o : OpenSet) (is : List Item) : OnlyChanges ps s (takeItems n o is t) ↔ OnlyChanges ps s t := by
  simp [takeItems, h, h']
@[simp] theorem only_askSeal (h : Header) (hl : linkPart h.link ∈ ps) (h' : Part.notices ∈ ps)
    (r : Request) (n : SessionIx) (k : Nat) :
    OnlyChanges ps s (askSeal h r n k t) ↔ OnlyChanges ps s t := by
  unfold askSeal; repeat' split
  all_goals simp [hl, h']
@[simp] theorem only_discardOpenSet (h : Part.assembler ∈ ps) (h' : Part.sessions ∈ ps) (n : SessionIx)
    (o : OpenSet) : OnlyChanges ps s (discardOpenSet n o t) ↔ OnlyChanges ps s t := by
  simp [discardOpenSet, h, h']
@[simp] theorem only_endSessionAssembler (h : Part.assembler ∈ ps) (h' : Part.sessions ∈ ps)
    (n : SessionIx) : OnlyChanges ps s (endSessionAssembler n t) ↔ OnlyChanges ps s t := by
  unfold endSessionAssembler; split <;> simp [h, h']

/-! ### Schedule and Cycle Unit -/

@[simp] theorem only_placeSealed (h : Part.schedule ∈ ps) (h' : Part.cycles ∈ ps) (n : SessionIx)
    (id : Nat) (d : Due) : OnlyChanges ps s (placeSealed n id d t) ↔ OnlyChanges ps s t := by
  unfold placeSealed; repeat' split
  all_goals simp [h, h']
@[simp] theorem only_sealSet (h : Part.schedule ∈ ps) (h' : Part.cycles ∈ ps) (h₃ : Part.notices ∈ ps)
    (h₄ : Part.assembler ∈ ps) (n : SessionIx) (o : OpenSet) :
    OnlyChanges ps s (sealSet n o t) ↔ OnlyChanges ps s t := by simp [sealSet, h, h', h₃, h₄]
@[simp] theorem only_takeSeal (h : Header) (hl : linkPart h.link ∈ ps) (h₁ : Part.schedule ∈ ps)
    (h₂ : Part.cycles ∈ ps) (h₃ : Part.notices ∈ ps) (h₄ : Part.assembler ∈ ps) (n : SessionIx) (k : Nat)
    (r : Request) (x : Nat) : OnlyChanges ps s (takeSeal n k h r x t) ↔ OnlyChanges ps s t := by
  unfold takeSeal; repeat' split
  all_goals simp [hl, h₁, h₂, h₃, h₄]
@[simp] theorem only_releaseOldest (h : Part.schedule ∈ ps) (l : TrigLine) (x : Nat) :
    OnlyChanges ps s (releaseOldest l x t) ↔ OnlyChanges ps s t := by
  unfold releaseOldest; split <;> simp [h]
@[simp] theorem only_takeEdge (h : Part.schedule ∈ ps) (l : TrigLine) (x : Nat) (halted : Bool) :
    OnlyChanges ps s (takeEdge l x halted t) ↔ OnlyChanges ps s t := by
  unfold takeEdge; split <;> simp [h]
@[simp] theorem only_removeApplying (h : Part.schedule ∈ ps) (h' : Part.notices ∈ ps)
    (h'' : Part.cycles ∈ ps) (x : SealedSet) :
    OnlyChanges ps s (removeApplying x t) ↔ OnlyChanges ps s t := by simp [removeApplying, h, h', h'']
@[simp] theorem only_parkMember (h : Part.schedule ∈ ps) (h' : Part.notices ∈ ps) (x : SealedSet) :
    OnlyChanges ps s (parkMember x t) ↔ OnlyChanges ps s t := by simp [parkMember, h, h']
@[simp] theorem only_endStoppedCycle (h : Part.cycles ∈ ps) (h' : Part.notices ∈ ps) (n : SessionIx) :
    OnlyChanges ps s (endStoppedCycle n t) ↔ OnlyChanges ps s t := by
  unfold endStoppedCycle; split <;> simp [h, h']
@[simp] theorem only_takeApplied (h : Part.schedule ∈ ps) (h' : Part.notices ∈ ps) (h'' : Part.cycles ∈ ps)
    (x : SealedSet) (c : Nat) : OnlyChanges ps s (takeApplied x c t) ↔ OnlyChanges ps s t := by
  simp only [takeApplied]; repeat' split
  all_goals simp [h, h', h'']
@[simp] theorem only_takeFailed (h : Part.schedule ∈ ps) (h' : Part.notices ∈ ps) (h'' : Part.cycles ∈ ps)
    (x : SealedSet) (r : ResultReason) : OnlyChanges ps s (takeFailed x r t) ↔ OnlyChanges ps s t := by
  simp only [takeFailed]; repeat' split
  all_goals simp [h, h', h'']
@[simp] theorem only_takeOutcome (h : Part.schedule ∈ ps) (h' : Part.notices ∈ ps) (h'' : Part.cycles ∈ ps)
    (x : SealedSet) (o : EngineOutcome) : OnlyChanges ps s (takeOutcome x o t) ↔ OnlyChanges ps s t := by
  unfold takeOutcome; repeat' split
  all_goals simp [h, h', h'']
@[simp] theorem only_cancelForHalt (h : Part.schedule ∈ ps) (h' : Part.notices ∈ ps) :
    OnlyChanges ps s (cancelForHalt t) ↔ OnlyChanges ps s t := by
  simp only [cancelForHalt]
  rw [only_queueChecks h h', only_foldl]
  intro u x; simp [h, h']
@[simp] theorem only_endSessionSchedule (h : Part.schedule ∈ ps) (h' : Part.notices ∈ ps)
    (h'' : Part.cycles ∈ ps) (n : SessionIx) :
    OnlyChanges ps s (endSessionSchedule n t) ↔ OnlyChanges ps s t := by
  simp only [endSessionSchedule]
  rw [only_withArmed h, only_foldl]
  intro u x; simp [h, h', h'']
@[simp] theorem only_shiftSets (h : Part.schedule ∈ ps) (d : Int) :
    OnlyChanges ps s (shiftSets d t) ↔ OnlyChanges ps s t := only_withSets h _
@[simp] theorem only_memberParked (h : Part.schedule ∈ ps) (h' : Part.notices ∈ ps)
    (h'' : Part.cycles ∈ ps) (n : SessionIx) (id : Nat) :
    OnlyChanges ps s (memberParked n id t) ↔ OnlyChanges ps s t := by
  unfold memberParked; repeat' split
  all_goals simp [h, h', h'']
@[simp] theorem only_stopNow (h : Header) (hl : linkPart h.link ∈ ps) (h₁ : Part.schedule ∈ ps)
    (h₂ : Part.cycles ∈ ps) (h₃ : Part.notices ∈ ps) (r : Request) (n : SessionIx) (c : Cycle) :
    OnlyChanges ps s (stopNow h r n c t) ↔ OnlyChanges ps s t := by
  simp only [stopNow]; repeat' split
  all_goals simp [hl, h₁, h₂, h₃]
@[simp] theorem only_detachForHalt (h : Part.schedule ∈ ps) (c : Cycle) :
    OnlyChanges ps s (detachForHalt c t) ↔ OnlyChanges ps s t := only_withSets h _
@[simp] theorem only_haltCycle (h : Part.schedule ∈ ps) (h' : Part.notices ∈ ps) (h'' : Part.cycles ∈ ps)
    (n : SessionIx) : OnlyChanges ps s (haltCycle t n) ↔ OnlyChanges ps s t := by
  unfold haltCycle; split <;> simp [h, h', h'']

/-! ### Apply Engine -/

@[simp] theorem only_handOutcome (h : Part.engine ∈ ps) (h' : Part.notices ∈ ps) (w : Work)
    (o : EngineOutcome) : OnlyChanges ps s (handOutcome w o t) ↔ OnlyChanges ps s t := by
  simp [handOutcome, h, h']
@[simp] theorem only_queueAbandon (h : Part.notices ∈ ps) (w : Work) :
    OnlyChanges ps s (queueAbandon w t) ↔ OnlyChanges ps s t := by
  unfold queueAbandon; split <;> simp [h]
@[simp] theorem only_failStaging (h : Part.engine ∈ ps) (h' : Part.notices ∈ ps) (w : Work) (c : Cause) :
    OnlyChanges ps s (failStaging w c t) ↔ OnlyChanges ps s t := by
  simp only [failStaging]; split <;> simp [h, h']
@[simp] theorem only_settled (h : Part.notices ∈ ps) (n : SessionIx) :
    OnlyChanges ps s (settled n t) ↔ OnlyChanges ps s t := only_post h _
@[simp] theorem only_discardLate (h : Part.schedule ∈ ps) (h' : Part.notices ∈ ps) (x : SealedSet) :
    OnlyChanges ps s (discardLate x t) ↔ OnlyChanges ps s t := by
  unfold discardLate; split <;> simp [h, h']
@[simp] theorem only_beginStaging (h : Part.engine ∈ ps) (h' : Part.notices ∈ ps) (x : SealedSet)
    (w : Work) : OnlyChanges ps s (beginStaging x w t) ↔ OnlyChanges ps s t := by
  simp only [beginStaging]; split <;> simp [h, h']
@[simp] theorem only_beginApplying (h : Part.schedule ∈ ps) (h' : Part.notices ∈ ps)
    (h'' : Part.engine ∈ ps) (x : SealedSet) :
    OnlyChanges ps s (beginApplying x t) ↔ OnlyChanges ps s t := by
  simp only [beginApplying]; split <;> simp [h, h', h'']
@[simp] theorem only_takeHeads (h : Part.schedule ∈ ps) (h' : Part.notices ∈ ps) (h'' : Part.engine ∈ ps)
    (fuel : Nat) : OnlyChanges ps s (takeHeads fuel t) ↔ OnlyChanges ps s t := by
  induction fuel generalizing t with
  | zero => simp [takeHeads]
  | succ f ih =>
    unfold takeHeads; split
    · rfl
    · rfl
    · next hf hr =>
      obtain rfl : f = _ := by injection hf
      try dsimp only
      repeat' split
      all_goals simp [ih, h, h', h'']
@[simp] theorem only_stageAccepted (h : Part.engine ∈ ps) (h' : Part.notices ∈ ps) (k : SlotIx) (n : Nat) :
    OnlyChanges ps s (stageAccepted k n t) ↔ OnlyChanges ps s t := by
  simp only [stageAccepted]; repeat' split
  all_goals simp [h, h']
@[simp] theorem only_stageLost (h : Part.engine ∈ ps) (h' : Part.notices ∈ ps) (n : Nat) (c : Cause) :
    OnlyChanges ps s (stageLost n c t) ↔ OnlyChanges ps s t := by
  unfold stageLost; split <;> simp [h, h']
@[simp] theorem only_withdrawCommit (h : Part.engine ∈ ps) (h' : Part.notices ∈ ps) (w : Work) (c : Cause) :
    OnlyChanges ps s (withdrawCommit w c t) ↔ OnlyChanges ps s t := by simp [withdrawCommit, h, h']
@[simp] theorem only_slotLost (h : Part.engine ∈ ps) (h' : Part.notices ∈ ps) (k : SlotIx) (n : Nat) :
    OnlyChanges ps s (slotLost k n t) ↔ OnlyChanges ps s t := by
  unfold slotLost; repeat' split
  all_goals simp [h, h']
@[simp] theorem only_haltEngine (h : Part.engine ∈ ps) (h' : Part.notices ∈ ps) :
    OnlyChanges ps s (haltEngine t) ↔ OnlyChanges ps s t := by
  unfold haltEngine; repeat' split
  all_goals simp [h, h']
@[simp] theorem only_dropCaptures (h : Part.engine ∈ ps) (h' : Part.notices ∈ ps) (n : SessionIx) :
    OnlyChanges ps s (dropCaptures n t) ↔ OnlyChanges ps s t := by
  simp only [dropCaptures]; split <;> simp [h, h']
@[simp] theorem only_endSessionEngine (h : Part.engine ∈ ps) (h' : Part.notices ∈ ps) (n : SessionIx) :
    OnlyChanges ps s (endSessionEngine n t) ↔ OnlyChanges ps s t := by
  unfold endSessionEngine; repeat' split
  all_goals simp [h, h']
@[simp] theorem only_takeStrobe (h : Part.engine ∈ ps) (h' : Part.notices ∈ ps) (w : Work) (n : Nat)
    (q : Bool) : OnlyChanges ps s (takeStrobe w n q t) ↔ OnlyChanges ps s t := by simp [takeStrobe, h, h']
@[simp] theorem only_takeWithdrawn (h : Part.engine ∈ ps) (h' : Part.notices ∈ ps) (w : Work)
    (a : CommitAnswer) : OnlyChanges ps s (takeWithdrawn w a t) ↔ OnlyChanges ps s t := by
  simp only [takeWithdrawn]; repeat' split
  all_goals simp [h, h']
@[simp] theorem only_makeSetCapture (h : Part.engine ∈ ps) (h' : Part.notices ∈ ps) (w : Work) (n : Nat) :
    OnlyChanges ps s (makeSetCapture w n t) ↔ OnlyChanges ps s t := by
  simp only [makeSetCapture]; split <;> simp [h, h']
@[simp] theorem only_finishRecording (h : Part.engine ∈ ps) (h' : Part.notices ∈ ps) (w : Work) :
    OnlyChanges ps s (finishRecording w t) ↔ OnlyChanges ps s t := by
  simp only [finishRecording]; repeat' split
  all_goals simp [h, h']
@[simp] theorem only_changeEntry (h : Part.engine ∈ ps) (e : CaptureEntry) :
    OnlyChanges ps s (changeEntry e t) ↔ OnlyChanges ps s t := only_withCaptures h _
@[simp] theorem only_keepEntry (h : Part.engine ∈ ps) (h' : Part.notices ∈ ps) (e : CaptureEntry) :
    OnlyChanges ps s (keepEntry e t) ↔ OnlyChanges ps s t := by
  simp only [keepEntry]; split <;> simp [h, h']
@[simp] theorem only_makeCapture (h : Part.engine ∈ ps) (h' : Part.notices ∈ ps) (e : CaptureEntry) :
    OnlyChanges ps s (makeCapture e t) ↔ OnlyChanges ps s t := by
  simp only [makeCapture]; split <;> simp [h, h']
@[simp] theorem only_takeReadEnd (h : Part.engine ∈ ps) (h' : Part.notices ∈ ps) (e : CaptureEntry)
    (k : SlotIx) (r : ReadEnd) : OnlyChanges ps s (takeReadEnd e k r t) ↔ OnlyChanges ps s t :=
  only_keepEntry h h' _
@[simp] theorem only_shiftEngine (h : Part.engine ∈ ps) (d : Int) :
    OnlyChanges ps s (shiftEngine d t) ↔ OnlyChanges ps s t := only_withEngine h _

/-! ### Trigger Unit -/

@[simp] theorem only_qualify (h : Part.trigger ∈ ps) (h' : Part.notices ∈ ps) (l : TrigLine) (n : Nat) :
    OnlyChanges ps s (qualify l n t) ↔ OnlyChanges ps s t := by
  simp only [qualify]; split <;> simp [h, h']
@[simp] theorem only_transition (h : Part.trigger ∈ ps) (h' : Part.notices ∈ ps) (l : TrigLine) (x : Level) :
    OnlyChanges ps s (transition l x t) ↔ OnlyChanges ps s t := by
  simp only [transition]; repeat' split
  all_goals simp [h, h']
@[simp] theorem only_requalify (h : Part.trigger ∈ ps) (h' : Part.notices ∈ ps) (l : TrigLine) :
    OnlyChanges ps s (requalify l t) ↔ OnlyChanges ps s t := by
  simp only [requalify]; repeat' split
  all_goals simp [h, h']
@[simp] theorem only_syncCommit (h : Part.trigger ∈ ps) (n : Nat) :
    OnlyChanges ps s (syncCommit n t) ↔ OnlyChanges ps s t := by
  simp only [syncCommit]; split <;> simp [h]
@[simp] theorem only_haltFrom (h : Part.trigger ∈ ps) (h' : Part.notices ∈ ps) (c : HaltCause) :
    OnlyChanges ps s (haltFrom c t) ↔ OnlyChanges ps s t := by simp [haltFrom, h, h']
@[simp] theorem only_haltReport (h : Part.notices ∈ ps) (c : Option HaltCause) (n : Option SessionIx) :
    OnlyChanges ps s (haltReport c n t) ↔ OnlyChanges ps s t := by
  unfold haltReport; split <;> simp [h]
@[simp] theorem only_enterHalt (h : Part.trigger ∈ ps) (h' : Part.notices ∈ ps) (c : HaltCause) :
    OnlyChanges ps s (enterHalt c t) ↔ OnlyChanges ps s t := by simp [enterHalt, h, h']
@[simp] theorem only_shiftTrigger (h : Part.trigger ∈ ps) (d : Int) :
    OnlyChanges ps s (shiftTrigger d t) ↔ OnlyChanges ps s t := only_withTrigger h _

end

end Sys2Proof.Machine
end

