-- ==== Sys2Proof/Laws/FrameUnits.lean ====
section
/-! SUPPORT. What each operation of the Slot Controller, the Module Bus Controller, the Time Base, the Session
Table, the Link Ports and the Report Unit may change, in the form of Laws/Frame.lean. -/

namespace Sys2Proof.Machine

section
variable {ps : List Part} {s t : State}

/-! ### Slot Controller -/

@[simp] theorem only_enterState (h : Part.slots ∈ ps) (h' : Part.notices ∈ ps) (k : SlotIx) (b : Bool)
    (x : Slot) : OnlyChanges ps s (enterState k b x t) ↔ OnlyChanges ps s t := by simp [enterState, h, h']
@[simp] theorem only_leavePowered (h : Part.modules ∈ ps) (h' : Part.notices ∈ ps) (k : SlotIx) :
    OnlyChanges ps s (leavePowered k t) ↔ OnlyChanges ps s t := by
  simp only [leavePowered]; repeat' split
  all_goals simp [h, h']
@[simp] theorem only_moveTo (h : Part.slots ∈ ps) (h' : Part.notices ∈ ps) (h'' : Part.modules ∈ ps)
    (k : SlotIx) (x : Slot) : OnlyChanges ps s (moveTo k x t) ↔ OnlyChanges ps s t := by
  unfold moveTo; split <;> simp [h, h', h'']
@[simp] theorem only_settle (h : Part.slots ∈ ps) (h' : Part.notices ∈ ps) (h'' : Part.modules ∈ ps)
    (k : SlotIx) : OnlyChanges ps s (settle k t) ↔ OnlyChanges ps s t := only_moveTo h h' h'' _ _
@[simp] theorem only_faultSlot (h : Part.slots ∈ ps) (h' : Part.notices ∈ ps) (h'' : Part.modules ∈ ps)
    (k : SlotIx) (f : FaultReason) : OnlyChanges ps s (faultSlot k f t) ↔ OnlyChanges ps s t :=
  only_moveTo h h' h'' _ _
@[simp] theorem only_identify (h : Part.slots ∈ ps) (h' : Part.notices ∈ ps) (k : SlotIx) :
    OnlyChanges ps s (identify k t) ↔ OnlyChanges ps s t := by simp [identify, h, h']
@[simp] theorem only_takePowerGood (h : Part.slots ∈ ps) (h' : Part.notices ∈ ps) (k : SlotIx) :
    OnlyChanges ps s (takePowerGood k t) ↔ OnlyChanges ps s t := by
  unfold takePowerGood; split <;> simp [h, h']
@[simp] theorem only_takeOvercurrent (h : Part.slots ∈ ps) (h' : Part.notices ∈ ps)
    (h'' : Part.modules ∈ ps) (k : SlotIx) :
    OnlyChanges ps s (takeOvercurrent k t) ↔ OnlyChanges ps s t := by
  unfold takeOvercurrent; split <;> simp [h, h', h'']
@[simp] theorem only_takeAsserted (h : Part.slots ∈ ps) (h' : Part.notices ∈ ps) (h'' : Part.modules ∈ ps)
    (h₃ : Part.free ∈ ps) (k : SlotIx) : OnlyChanges ps s (takeAsserted k t) ↔ OnlyChanges ps s t := by
  simp only [takeAsserted]; repeat' split
  all_goals simp [h, h', h'', h₃]
@[simp] theorem only_powerUp (h : Part.slots ∈ ps) (h' : Part.notices ∈ ps) (h'' : Part.modules ∈ ps)
    (h₃ : Part.free ∈ ps) (k : SlotIx) (r : Rail) :
    OnlyChanges ps s (powerUp k r t) ↔ OnlyChanges ps s t := by simp [powerUp, h, h', h'', h₃]
@[simp] theorem only_judge (h : Part.slots ∈ ps) (h' : Part.notices ∈ ps) (h'' : Part.modules ∈ ps)
    (h₃ : Part.free ∈ ps) (k : SlotIx) : OnlyChanges ps s (judge k t) ↔ OnlyChanges ps s t := by
  unfold judge; split <;> simp [h, h', h'', h₃]
@[simp] theorem only_takeReading (h : Part.slots ∈ ps) (h' : Part.notices ∈ ps) (h'' : Part.modules ∈ ps)
    (k : SlotIx) : OnlyChanges ps s (takeReading k t) ↔ OnlyChanges ps s t := by
  simp only [takeReading]; repeat' split
  all_goals simp [h, h', h'']
@[simp] theorem only_becomeReady (h : Part.slots ∈ ps) (h' : Part.notices ∈ ps) (k : SlotIx)
    (d : Descriptor) (v : Option HeldValues) :
    OnlyChanges ps s (becomeReady k d v t) ↔ OnlyChanges ps s t := by simp [becomeReady, h, h']
@[simp] theorem only_takeDescriptor (h : Part.slots ∈ ps) (h' : Part.notices ∈ ps)
    (h'' : Part.modules ∈ ps) (k : SlotIx) (bytes : List Byte) :
    OnlyChanges ps s (takeDescriptor k bytes t) ↔ OnlyChanges ps s t := by
  simp only [takeDescriptor]; repeat' split
  all_goals simp [h, h', h'']
@[simp] theorem only_resetSlot (h : Part.slots ∈ ps) (h' : Part.notices ∈ ps) (h'' : Part.modules ∈ ps)
    (h₃ : Part.free ∈ ps) (k : SlotIx) : OnlyChanges ps s (resetSlot k t) ↔ OnlyChanges ps s t := by
  unfold resetSlot; split <;> simp [h, h', h'', h₃]
@[simp] theorem only_drainClaims (h : Part.claims ∈ ps) (h' : Part.notices ∈ ps) (fuel : Nat) (k : SlotIx) :
    OnlyChanges ps s (drainClaims fuel k t) ↔ OnlyChanges ps s t := by
  induction fuel generalizing t with
  | zero => simp [drainClaims]
  | succ f ih => simp only [drainClaims]; split <;> simp [ih, h, h']
@[simp] theorem only_disableSlot (h : Part.slots ∈ ps) (h' : Part.notices ∈ ps) (h'' : Part.modules ∈ ps)
    (h₃ : Part.claims ∈ ps) (k : SlotIx) : OnlyChanges ps s (disableSlot k t) ↔ OnlyChanges ps s t := by
  simp only [disableSlot]; split <;> simp [h, h', h'', h₃]

/-! ### Module Bus Controller -/

@[simp] theorem only_issueStrobe (h : Part.bus ∈ ps) (h' : Part.modules ∈ ps) (h'' : Part.notices ∈ ps)
    (c : CommitReq) : OnlyChanges ps s (issueStrobe c t) ↔ OnlyChanges ps s t := by
  simp only [issueStrobe]; split <;> simp [h, h', h'']
@[simp] theorem only_serveCommit (h : Part.bus ∈ ps) (h' : Part.modules ∈ ps) (h'' : Part.notices ∈ ps) :
    OnlyChanges ps s (serveCommit t) ↔ OnlyChanges ps s t := by
  unfold serveCommit; split <;> simp [h, h', h'']
@[simp] theorem only_beginAttempt (h : Part.bus ∈ ps) (h' : Part.modules ∈ ps) (x : Txn) (n : Nat) :
    OnlyChanges ps s (beginAttempt x n t) ↔ OnlyChanges ps s t := by simp [beginAttempt, h, h']
@[simp] theorem only_markInProgress (h : Part.engine ∈ ps) (x : Txn) :
    OnlyChanges ps s (markInProgress x t) ↔ OnlyChanges ps s t := by
  unfold markInProgress; repeat' split
  all_goals simp [h]
@[simp] theorem only_grantSafeAll (h : Part.bus ∈ ps) (h' : Part.notices ∈ ps) :
    OnlyChanges ps s (grantSafeAll t) ↔ OnlyChanges ps s t := by
  simp only [grantSafeAll]; split <;> simp [h, h']
@[simp] theorem only_startTransaction (h : Part.bus ∈ ps) (h' : Part.modules ∈ ps) (h'' : Part.engine ∈ ps)
    (h₃ : Part.notices ∈ ps) (x : Txn) :
    OnlyChanges ps s (startTransaction x t) ↔ OnlyChanges ps s t := by
  simp only [startTransaction]; split <;> simp [h, h', h'', h₃]
@[simp] theorem only_grantBus (h : Part.bus ∈ ps) (h' : Part.modules ∈ ps) (h'' : Part.engine ∈ ps)
    (h₃ : Part.notices ∈ ps) : OnlyChanges ps s (grantBus t) ↔ OnlyChanges ps s t := by
  simp only [grantBus]; repeat' split
  all_goals simp [h, h', h'', h₃]
@[simp] theorem only_takeBusRequest (h : Part.bus ∈ ps) (h' : Part.modules ∈ ps) (h'' : Part.engine ∈ ps)
    (h₃ : Part.notices ∈ ps) (x : Txn) : OnlyChanges ps s (takeBusRequest x t) ↔ OnlyChanges ps s t := by
  unfold takeBusRequest
  exact only_ite (by simp [h₃]) (by simp [h, h', h'', h₃])
@[simp] theorem only_takeCommitRequest (h : Part.bus ∈ ps) (h' : Part.modules ∈ ps) (h'' : Part.engine ∈ ps)
    (h₃ : Part.notices ∈ ps) (c : CommitReq) :
    OnlyChanges ps s (takeCommitRequest c t) ↔ OnlyChanges ps s t := by
  unfold takeCommitRequest; split <;> simp [h, h', h'', h₃]
@[simp] theorem only_takeWithdrawal (h : Part.bus ∈ ps) (h' : Part.notices ∈ ps) (w : Withdrawn) :
    OnlyChanges ps s (takeWithdrawal w t) ↔ OnlyChanges ps s t := by
  unfold takeWithdrawal; repeat' split
  all_goals simp [h, h']
@[simp] theorem only_withdrawNaming (h : Part.bus ∈ ps) (h' : Part.notices ∈ ps) (k : SlotIx) :
    OnlyChanges ps s (withdrawNaming k t) ↔ OnlyChanges ps s t := by
  unfold withdrawNaming; repeat' split
  all_goals simp [h, h']
@[simp] theorem only_takeLeftPowered (h : Part.bus ∈ ps) (h' : Part.notices ∈ ps) (k : SlotIx) :
    OnlyChanges ps s (takeLeftPowered k t) ↔ OnlyChanges ps s t := by
  unfold takeLeftPowered; split <;> simp [h, h']
@[simp] theorem only_endTransaction (h : Part.bus ∈ ps) (h' : Part.modules ∈ ps) (h'' : Part.engine ∈ ps)
    (h₃ : Part.notices ∈ ps) : OnlyChanges ps s (endTransaction t) ↔ OnlyChanges ps s t := by
  simp [endTransaction, h, h', h'', h₃]
@[simp] theorem only_noReply (h : Part.bus ∈ ps) (h' : Part.modules ∈ ps) (h'' : Part.engine ∈ ps)
    (h₃ : Part.notices ∈ ps) (p : InProgress) (k : SlotIx) :
    OnlyChanges ps s (noReply p k t) ↔ OnlyChanges ps s t := by
  unfold noReply; split <;> simp [h, h', h'', h₃]
@[simp] theorem only_takeReply (h : Part.bus ∈ ps) (h' : Part.modules ∈ ps) (h'' : Part.engine ∈ ps)
    (h₃ : Part.notices ∈ ps) (p : InProgress) (k : SlotIx) (bytes : List Byte) :
    OnlyChanges ps s (takeReply p k bytes t) ↔ OnlyChanges ps s t := by
  unfold takeReply; split <;> simp [h, h', h'', h₃]

/-! ### Time Base -/

@[simp] theorem only_shiftSessions (h : Part.sessions ∈ ps) (d : Int) :
    OnlyChanges ps s (shiftSessions d t) ↔ OnlyChanges ps s t := only_withSessions h _
@[simp] theorem only_setTime (h : Part.clock ∈ ps) (h₁ : Part.claims ∈ ps) (h₂ : Part.schedule ∈ ps)
    (h₃ : Part.engine ∈ ps) (h₄ : Part.trigger ∈ ps) (h₅ : Part.sessions ∈ ps) (h₆ : Part.notices ∈ ps)
    (n : Nat) : OnlyChanges ps s (setTime n t) ↔ OnlyChanges ps s t := by
  simp [setTime, h, h₁, h₂, h₃, h₄, h₅, h₆]

/-! ### Session Table -/

@[simp] theorem only_openSession (l : LinkId) (hl : linkPart l ∈ ps) (h : Part.sessions ∈ ps)
    (h₁ : Part.reports ∈ ps) (h₂ : Part.schedule ∈ ps) (h₃ : Part.cycles ∈ ps) (n : SessionIx) (r : Role)
    (x : Settings) : OnlyChanges ps s (openSession l n r x t) ↔ OnlyChanges ps s t := by
  simp [openSession, hl, h, h₁, h₂, h₃]
@[simp] theorem only_rearm (h : Part.schedule ∈ ps) (n : SessionIx) (x : Settings) :
    OnlyChanges ps s (rearm n x t) ↔ OnlyChanges ps s t := by unfold rearm; split <;> simp [h]
@[simp] theorem only_beginTeardown (h : Part.sessions ∈ ps) (h' : Part.notices ∈ ps) (c : EndingCause)
    (n : SessionIx) : OnlyChanges ps s (beginTeardown c n t) ↔ OnlyChanges ps s t := by
  simp only [beginTeardown]; repeat' split
  all_goals simp [h, h']
@[simp] theorem only_takeTeardownAnswer (h : Part.sessions ∈ ps) (h' : Part.notices ∈ ps) (b : AnswerBlock)
    (n : SessionIx) : OnlyChanges ps s (takeTeardownAnswer b n t) ↔ OnlyChanges ps s t := by
  simp only [takeTeardownAnswer]; repeat' split
  all_goals simp [h, h']
@[simp] theorem only_closeRecord (h : Part.sessions ∈ ps) (h' : Part.notices ∈ ps) (n : SessionIx) :
    OnlyChanges ps s (closeRecord n t) ↔ OnlyChanges ps s t := by
  simp only [closeRecord]; repeat' split
  all_goals simp [h, h']
@[simp] theorem only_stopLinks (h : Part.linkA ∈ ps) (h' : Part.linkB ∈ ps) :
    OnlyChanges ps s (stopLinks t) ↔ OnlyChanges ps s t := by simp [stopLinks, h, h']

/-! ### Link Ports -/

@[simp] theorem only_offerRequest (l : LinkId) (hl : linkPart l ∈ ps) (f : InFrame) :
    OnlyChanges ps s (offerRequest l f t) ↔ OnlyChanges ps s t := by
  unfold offerRequest; split <;> simp [hl]
@[simp] theorem only_handAck (h : Part.notices ∈ ps) (l : LinkId) (f : InFrame) :
    OnlyChanges ps s (handAck l f t) ↔ OnlyChanges ps s t := by
  unfold handAck; repeat' split
  all_goals simp [h]
@[simp] theorem only_takeFrame (l : LinkId) (hl : linkPart l ∈ ps) (h : Part.sessions ∈ ps)
    (h' : Part.notices ∈ ps) (f : InFrame) : OnlyChanges ps s (takeFrame l f t) ↔ OnlyChanges ps s t := by
  simp only [takeFrame]; split <;> simp [hl, h, h']
@[simp] theorem only_arriveFrame (l : LinkId) (hl : linkPart l ∈ ps) (h : Part.sessions ∈ ps)
    (h' : Part.notices ∈ ps) (b : List Byte) :
    OnlyChanges ps s (arriveFrame l b t) ↔ OnlyChanges ps s t := by
  unfold arriveFrame; split <;> simp [hl, h, h']
@[simp] theorem only_receiveFrame (l : LinkId) (hl : linkPart l ∈ ps) (h : Part.sessions ∈ ps)
    (h' : Part.notices ∈ ps) (b : List Byte) :
    OnlyChanges ps s (receiveFrame l b t) ↔ OnlyChanges ps s t := by
  simp only [receiveFrame]; repeat' split
  all_goals simp [hl, h, h']
@[simp] theorem only_tellSent (h : Part.sessions ∈ ps) (h' : Part.notices ∈ ps) (l : LinkId) (f : OutFrame) :
    OnlyChanges ps s (tellSent l f t) ↔ OnlyChanges ps s t := by
  unfold tellSent; repeat' split
  all_goals simp [h, h']
@[simp] theorem only_sendNext (l : LinkId) (hl : linkPart l ∈ ps) :
    OnlyChanges ps s (sendNext l t) ↔ OnlyChanges ps s t := by simp [sendNext, hl]

/-! ### Report Unit -/

/-- Both Link Ports' parts are in the list. -/
theorem linkPart_mem (h : Part.linkA ∈ ps) (h' : Part.linkB ∈ ps) (l : LinkId) : linkPart l ∈ ps := by
  cases l
  · exact h
  · exact h'
@[simp] theorem only_handFrame (h : Part.linkA ∈ ps) (h' : Part.linkB ∈ ps) (n : SessionIx)
    (o : Outstanding) : OnlyChanges ps s (handFrame n o t) ↔ OnlyChanges ps s t := by
  simp only [handFrame]; repeat' split
  all_goals simp [linkPart_mem h h']
@[simp] theorem only_promote (h : Part.linkA ∈ ps) (h' : Part.linkB ∈ ps) (h'' : Part.reports ∈ ps)
    (n : SessionIx) (r : Report) (rest : List Report) :
    OnlyChanges ps s (promote n r rest t) ↔ OnlyChanges ps s t := by simp [promote, h, h', h'']
@[simp] theorem only_makeOverrun (h : Part.reports ∈ ps) (n : SessionIx) :
    OnlyChanges ps s (makeOverrun n t) ↔ OnlyChanges ps s t := only_withLists h _ _
@[simp] theorem only_settleLoop (h : Part.linkA ∈ ps) (h' : Part.linkB ∈ ps) (h'' : Part.reports ∈ ps)
    (fuel : Nat) (n : SessionIx) : OnlyChanges ps s (settleLoop fuel n t) ↔ OnlyChanges ps s t := by
  induction fuel generalizing t with
  | zero => simp [settleLoop]
  | succ f ih =>
    simp only [settleLoop]; repeat' split
    all_goals simp [ih, h, h', h'']
@[simp] theorem only_settleLists (h : Part.linkA ∈ ps) (h' : Part.linkB ∈ ps) (h'' : Part.reports ∈ ps)
    (n : SessionIx) : OnlyChanges ps s (settleLists n t) ↔ OnlyChanges ps s t := only_settleLoop h h' h'' _ _
@[simp] theorem only_takeReport (h : Part.linkA ∈ ps) (h' : Part.linkB ∈ ps) (h'' : Part.reports ∈ ps)
    (n : SessionIx) (r : Report) : OnlyChanges ps s (takeReport n r t) ↔ OnlyChanges ps s t := by
  simp only [takeReport]; repeat' split
  all_goals simp [h, h', h'']
@[simp] theorem only_routeTo (h : Part.linkA ∈ ps) (h' : Part.linkB ∈ ps) (h'' : Part.reports ∈ ps)
    (n : SessionIx) (r : Report) : OnlyChanges ps s (routeTo r t n) ↔ OnlyChanges ps s t := by
  unfold routeTo; repeat' split
  all_goals simp [h, h', h'']
@[simp] theorem only_takeHandover (h : Part.linkA ∈ ps) (h' : Part.linkB ∈ ps) (h'' : Part.reports ∈ ps)
    (n : Option (SessionIx × Nat)) (r : Report) :
    OnlyChanges ps s (takeHandover n r t) ↔ OnlyChanges ps s t := by
  unfold takeHandover; repeat' split
  · exact only_foldl _ _ fun _ m => only_routeTo h h' h'' m r
  all_goals simp [h, h', h'']
@[simp] theorem only_changeOutstanding (h : Part.reports ∈ ps) (n : SessionIx) (u : Nat)
    (f : Outstanding → Outstanding) :
    OnlyChanges ps s (changeOutstanding n u f t) ↔ OnlyChanges ps s t := only_withLists h _ _
@[simp] theorem only_startTimer (h : Part.reports ∈ ps) (n : SessionIx) (u : Nat) :
    OnlyChanges ps s (startTimer n u t) ↔ OnlyChanges ps s t := by
  unfold startTimer; split <;> simp [h]
@[simp] theorem only_retryExpired (h : Part.linkA ∈ ps) (h' : Part.linkB ∈ ps) (h'' : Part.reports ∈ ps)
    (h₃ : Part.notices ∈ ps) (n : SessionIx) (r : Session) (o : Outstanding) :
    OnlyChanges ps s (retryExpired n r o t) ↔ OnlyChanges ps s t := by
  unfold retryExpired; split <;> simp [h, h', h'', h₃]
@[simp] theorem only_withdrawFrames (h : Part.linkA ∈ ps) (h' : Part.linkB ∈ ps) (n : SessionIx)
    (g : ReportFrame → Bool) : OnlyChanges ps s (withdrawFrames n g t) ↔ OnlyChanges ps s t := by
  simp only [withdrawFrames]; split <;> simp [linkPart_mem h h']
@[simp] theorem only_takeAck (h : Part.linkA ∈ ps) (h' : Part.linkB ∈ ps) (h'' : Part.reports ∈ ps)
    (n : SessionIx) (q : Nat) : OnlyChanges ps s (takeAck n q t) ↔ OnlyChanges ps s t := by
  simp only [takeAck]; split <;> simp [h, h', h'']
@[simp] theorem only_tearReports (h : Part.linkA ∈ ps) (h' : Part.linkB ∈ ps) (h'' : Part.reports ∈ ps)
    (n : SessionIx) : OnlyChanges ps s (tearReports n t) ↔ OnlyChanges ps s t := by
  simp [tearReports, h, h', h'']

/-! ### Resets -/

@[simp] theorem only_queueResetSafeAll (h : Part.bus ∈ ps) (p : Pins) :
    OnlyChanges ps s (queueResetSafeAll p t) ↔ OnlyChanges ps s t := by
  unfold queueResetSafeAll; split <;> simp [h]
@[simp] theorem only_queueDescribe (h : Part.bus ∈ ps) (k : SlotIx) :
    OnlyChanges ps s (queueDescribe t k) ↔ OnlyChanges ps s t := only_withBus h _

end

/-- A state with the same waiting commands. -/
theorem only_allButPending {s t : State} : OnlyChanges allButPending s t ↔ t.pending = s.pending := by
  constructor
  · intro h; exact h .pending (by decide)
  · intro h p hp
    cases p <;> first | exact h | exact absurd (by decide) hp

theorem only_afterReset (p : Pins) (s : State) : OnlyChanges allButPending s (afterReset p s) :=
  only_allButPending.2 rfl

theorem only_keepPowered (p : Pins) (s t : State) :
    OnlyChanges allButPending s (keepPowered p s t) ↔ OnlyChanges allButPending s t := by
  rw [only_allButPending, only_allButPending]; rfl

/-- A reset leaves the commands that wait. -/
theorem only_resetUnpowered (p : Pins) (s : State) : OnlyChanges allButPending s (resetUnpowered p s) :=
  (only_grantBus (by decide) (by decide) (by decide) (by decide)).2
    ((only_queueResetSafeAll (by decide) p).2 (only_afterReset p s))

/-- A held reset leaves the commands that wait. -/
theorem only_resetHeld (p : Pins) (s : State) : OnlyChanges allButPending s (resetHeld p s) := by
  unfold resetHeld
  rw [only_foldl _ _ fun _ k => only_queueDescribe (by decide) k, only_queueResetSafeAll (by decide) p,
    only_beginAttempt (by decide) (by decide), only_keepPowered]
  exact only_afterReset p s

end Sys2Proof.Machine
end

