-- ==== Sys2Proof/Laws/Gate.lean ====
section
/-! SUPPORT. What the shared operations do, once each: taking a notice, the transmitters, placing a reply, and
a request that stands at its block. -/

namespace Sys2Proof.Machine

/-! ### Notices -/

/-- With no notice of the lane nothing happens. -/
theorem onNotice_none {lane : Lane} {s : State} (f : Notice → State → Option State)
    (h : headNotice lane s = none) : onNotice lane f s = s := by simp [onNotice, h]

/-- The oldest notice of the lane is taken. -/
theorem onNotice_some {lane : Lane} {s u : State} {f : Notice → State → Option State} {n : Notice}
    (h : headNotice lane s = some n) (hf : f n (dropNotice lane s) = some u) : onNotice lane f s = u := by
  simp [onNotice, h, hf]

/-- A notice that may not be taken stays. -/
theorem onNotice_left {lane : Lane} {s : State} {f : Notice → State → Option State} {n : Notice}
    (h : headNotice lane s = some n) (hf : f n (dropNotice lane s) = none) : onNotice lane f s = s := by
  simp [onNotice, h, hf]

/-- Everything taking a notice can do. -/
theorem onNotice_cases (lane : Lane) (f : Notice → State → Option State) (s : State) :
    onNotice lane f s = s ∨
    ∃ n u, headNotice lane s = some n ∧ f n (dropNotice lane s) = some u ∧ onNotice lane f s = u := by
  cases h : headNotice lane s with
  | none => exact .inl (onNotice_none f h)
  | some n =>
    cases hf : f n (dropNotice lane s) with
    | none => exact .inl (onNotice_left h hf)
    | some u => exact .inr ⟨n, u, rfl, hf, onNotice_some h hf⟩

/-! ### Transmitters -/

/-- The Link Port after the transmitter has been offered its next frame. -/
theorem startSending_link (l : LinkId) (s : State) :
    startSending l s = s.withLink l
      (match (s.link l).transmission, (s.link l).replies, (s.link l).reports with
      | some _, _, _ => s.link l
      | none, r :: rest, _ =>
          { s.link l with replies := rest, transmission := some ⟨.reply r, outBytes (.reply r)⟩ }
      | none, [], f :: rest =>
          { s.link l with reports := rest, transmission := some ⟨.report f, outBytes (.report f)⟩ }
      | none, [], [] => s.link l) := by
  unfold startSending
  cases ht : (s.link l).transmission <;> cases hr : (s.link l).replies <;> cases hf : (s.link l).reports <;>
    simp [ht, hr, hf]

/-- With room in the reply queue a reply joins it and an idle transmitter takes the oldest. -/
theorem placeReply_room {l : LinkId} {s : State} (x : Reply) (h : (s.link l).replies.length < 8) :
    placeReply l x s = startSending l (s.withLink l { s.link l with replies := (s.link l).replies ++ [x] }) := by
  simp [placeReply, Config.maxReplies, h]

/-- With 8 replies queued the dispatch holds the reply. -/
theorem placeReply_full {l : LinkId} {s : State} (x : Reply) (h : 8 ≤ (s.link l).replies.length) :
    placeReply l x s = s.withLink l { s.link l with dispatch :=
      match (s.link l).dispatch with
      | .stopped _ => .stopped (some x)
      | .ready => .waiting x
      | .waiting _ => .waiting x } := by
  exact if_neg (Nat.not_lt.2 h)

/-! ### Requests that arrive -/

/-- What refreshing a lease can do: nothing, or one session's deadline. -/
theorem refreshLease_cases (l : LinkId) (b : Byte) (s : State) :
    refreshLease l b s = s ∨ ∃ n r, sessionOf b = some n ∧ s.session n = some r ∧ r.link = l ∧ r.ending = none ∧
      refreshLease l b s = s.withSession n (some { r with deadline := some (s.after (r.lease * 1000)) }) := by
  unfold refreshLease
  cases hb : sessionOf b with
  | none => exact .inl rfl
  | some n =>
    cases hr : s.session n with
    | none => exact .inl (by simp [hr])
    | some r =>
      by_cases h : r.link = l ∧ r.ending = none
      · exact .inr ⟨n, r, rfl, hr, h.1, h.2, by simp [hr, h.1, h.2]⟩
      · exact .inl (by simp only [hr]; exact if_neg (by simpa using h))

@[simp] theorem refreshLease_link (l m : LinkId) (b : Byte) (s : State) :
    (refreshLease l b s).link m = s.link m := by
  obtain h | ⟨n, r, -, -, -, -, h⟩ := refreshLease_cases l b s <;> rw [h]
  cases m <;> rfl

@[simp] theorem refreshLease_notices (l : LinkId) (b : Byte) (s : State) :
    (refreshLease l b s).notices = s.notices := by
  obtain h | ⟨n, r, -, -, -, -, h⟩ := refreshLease_cases l b s <;> rw [h]
  rfl

/-- A request taken as one that has just arrived goes through the steps of R169 with its lease refreshed. -/
theorem bringIn_arrives {h : Header} {s : State} (a : NothingBefore h s) (r : Request) :
    bringIn h r s = dispatchRequest h r (refreshLease h.link h.session s) := by
  simp [bringIn, a.1, a.2.1, a.2.2]

/-! ### Requests at their blocks -/

/-- A request in its block's hands is taken by the block. -/
theorem runRequest_inHand {h : Header} {r : Request} {s : State} (body : State → State)
    (hi : (s.link h.link).inHand = some (h, r)) : runRequest h r body s = body s := by
  have hb : bringIn h r s = s := by
    unfold bringIn
    cases hd : (s.link h.link).dispatch <;> simp [hi]
  simp [runRequest, hb, hi]

/-- A request that stands at its block is run by its own rule. -/
theorem serve_atBlock {v : Server} {h : Header} {r : Request} {n : SessionIx} {s : State}
    (a : AtBlock v h r n s) (body : SessionIx → State → State) : serve v h r body s = .next (body n s) := by
  simp [serve, runRequest_inHand _ a.inHand, takeRequest, a.session, a.notEnded, a.encoding]

/-- A request whose session is no longer there at its block is refused NO_SESSION. -/
theorem serve_ended {v : Server} {h : Header} {r : Request} {n : SessionIx} {s : State}
    (hi : (s.link h.link).inHand = some (h, r)) (hs : boundSession h s = some n)
    (he : endedAt v n s = true) (hb : encodingOk r = true) (body : SessionIx → State → State) :
    serve v h r body s = .next (refuse h r .noSession s) := by
  simp [serve, runRequest_inHand _ hi, takeRequest, hs, he, hb]

/-- R186: a request with a byte outside its encoding is refused BAD_FIELD, whatever has become of its session. -/
theorem serve_badField {v : Server} {h : Header} {r : Request} {s : State}
    (hi : (s.link h.link).inHand = some (h, r)) (hb : encodingOk r = false) (body : SessionIx → State → State) :
    serve v h r body s = .next (refuse h r .badField s) := by
  simp [serve, runRequest_inHand _ hi, takeRequest, hb]

/-! ### Members of cycles -/

/-- R92: the cycle of a set is its owner's, if that lists the set as a member. -/
theorem cycleOf_eq_some {s : State} {x : SealedSet} {c : Cycle} :
    s.cycleOf x = some c ↔ s.cycle x.owner = some c ∧ x.member = true ∧ x.id ∈ c.members := by
  unfold State.cycleOf
  cases s.cycle x.owner with
  | none => simp
  | some d =>
    simp only [Bool.and_eq_true, List.contains_iff_mem, Option.some.injEq]
    split
    · simp only [Option.some.injEq]; exact ⟨fun e => e ▸ ⟨rfl, ‹_›⟩, fun e => e.1⟩
    · simp only [reduceCtorEq, false_iff]; rintro ⟨rfl, e⟩; exact absurd e ‹_›

/-! ### Halt reports, and STAGEs that wait -/

/-- R113: with no session open no HALT_CHANGE is handed over. -/
theorem haltReport_closed {s : State} (h : s.anyOpen = false) (c : Option HaltCause) (n : Option SessionIx) :
    haltReport c n s = s := by simp [haltReport, h]

/-- R113: with a session open HALT_CHANGE is handed over. -/
theorem haltReport_open {s : State} (h : s.anyOpen = true) (c : Option HaltCause) (n : Option SessionIx) :
    haltReport c n s = systemReport .triggerUnit
      (.haltChange { cause := c, session := n, eventTime := s.clock.rig }) s := by simp [haltReport, h]

/-- R16, R136: only a STAGE waits, and only behind what drives its slot safe. -/
theorem stageMustWait_eq_true {lane : Lane} {t : Txn} {s : State} : stageMustWait lane t s = true ↔
    ∃ k take items, t = .stage k take items ∧
      ∃ n ∈ s.notices.takeWhile (fun n => noticeLane n ≠ lane), n.drivesSafe k !s.isHalted = true := by
  cases t <;> simp [stageMustWait]

end Sys2Proof.Machine
end

