-- ==== Sys2Proof/Laws/Modules.lean ====
section
/-! SUPPORT. What the modules do with the transactions that reach them. -/

namespace Sys2Proof.Machine

/-- One module is reached, and only it changes. -/
theorem module_moduleCarriesOut (k j : SlotIx) (no : Nat) (f : Module → Module) (s : State) :
    (moduleCarriesOut k no f s).module j =
      if j = k ∧ (s.module k).powered = true ∧ Config.requestHeard no k = true then f (s.module k)
      else s.module j := by
  unfold moduleCarriesOut
  by_cases h : (s.module k).powered = true ∧ Config.requestHeard no k = true
  · by_cases e : j = k
    · simp [h, e]
    · simp [h, e, Ne.symm e]
  · rw [if_neg (by simpa using h), if_neg fun g => h g.2]

/-- A broadcast reaches every powered module that receives it. -/
theorem module_modulesCarryOut (no : Nat) (f : SlotIx → Module → Module) (s : State) (j : SlotIx) :
    (modulesCarryOut no f s).module j =
      if (s.module j).powered = true ∧ Config.requestHeard no j = true then f j (s.module j)
      else s.module j := by
  have : ∀ (l : List SlotIx) (t : State), l.Nodup →
      (l.foldl (fun t k => moduleCarriesOut k no (f k) t) t).module j =
        if j ∈ l ∧ (t.module j).powered = true ∧ Config.requestHeard no j = true then f j (t.module j)
        else t.module j := by
    intro l
    induction l with
    | nil => intro t _; simp
    | cons a l ih =>
      intro t h
      rw [List.foldl_cons, ih _ h.of_cons, module_moduleCarriesOut]
      have ha := (List.nodup_cons.1 h).1
      by_cases e : j = a
      · subst e; simp [ha]
      · simp [e]
  have h := this allSlots s (by decide)
  simpa [modulesCarryOut, show j ∈ allSlots from List.mem_finRange j] using h

/-- The modules after the bytes of an attempt have gone out. -/
theorem transactionReaches_hears (x : Txn) (no : Nat) (s : State) :
    ModulesHear x no s (transactionReaches x no s) := by
  intro k
  cases x <;> simp only [transactionReaches, module_moduleCarriesOut, module_modulesCarryOut]
  case stage j n items => by_cases e : k = j; exacts [by simp [e], by simp [e, Ne.symm e]]
  case driveSafe j v => by_cases e : k = j; exacts [by simp [e], by simp [e, Ne.symm e]]
  all_goals simp

end Sys2Proof.Machine
end

