-- ==== Sys2Proof/Laws/Ready.lean ====
section
/-! SUPPORT. What the operations of the Schedule do to the Ready List (R41, R47): `ReadyListed` and `ReadyOrdered`
rest on the sets and the list alone, and each operation that changes them keeps both. -/

namespace Sys2Proof.Machine

/-! ### Due times and ranks -/

theorem ReadyListed.of_eq {s t : State} (h : ReadyListed s) (hs : t.sets = s.sets)
    (hr : t.schedule.ready = s.schedule.ready) : ReadyListed t := by
  unfold ReadyListed at *; rwa [hs, hr]

theorem ReadyOrdered.of_eq {s t : State} (h : ReadyOrdered s) (hs : t.sets = s.sets)
    (hr : t.schedule.ready = s.schedule.ready) : ReadyOrdered t := by
  unfold ReadyOrdered at *; rwa [hs, hr]

theorem goesBefore_iff (sets : List SealedSet) (a b : Nat) : goesBefore sets a b = true ↔
    dueTimeOf sets a < dueTimeOf sets b ∨
      dueTimeOf sets a = dueTimeOf sets b ∧ sealRank sets a < sealRank sets b := by
  simp [goesBefore]

theorem goesBefore_trans {sets : List SealedSet} {a b c : Nat} (h : goesBefore sets a b = true)
    (h' : goesBefore sets b c = true) : goesBefore sets a c = true := by
  rw [goesBefore_iff] at *; omega

theorem sealRank_inj {sets : List SealedSet} {a b : Nat} (ha : a ∈ sets.map (·.id))
    (h : sealRank sets a = sealRank sets b) : a = b := by
  obtain ⟨x, hx, rfl⟩ := List.mem_map.1 ha
  unfold sealRank at h
  have hl := List.findIdx_lt_length_of_exists (p := fun y : SealedSet => decide (y.id = x.id)) ⟨x, hx, by simp⟩
  have hl' := h ▸ hl
  have h1 := List.findIdx_getElem (w := hl)
  have h2 := List.findIdx_getElem (w := hl')
  simp only [h, decide_eq_true_eq] at h1 h2
  exact h1.symm.trans h2

/-- Sets of different ids go before one another one way or the other. -/
theorem goesBefore_total {sets : List SealedSet} {a b : Nat} (ha : a ∈ sets.map (·.id)) (hab : a ≠ b)
    (h : ¬ goesBefore sets a b = true) : goesBefore sets b a = true := by
  have hr : sealRank sets a ≠ sealRank sets b := fun e => hab (sealRank_inj ha e)
  rw [goesBefore_iff] at *; omega

/-! ### A set leaves -/

theorem dueTimeOf_filter {sets : List SealedSet} {id a : Nat} (h : a ≠ id) :
    dueTimeOf (sets.filter fun y => y.id ≠ id) a = dueTimeOf sets a := by
  induction sets with
  | nil => rfl
  | cons y l ih =>
    by_cases hy : y.id = id
    · have : y.id ≠ a := fun e => h (e.symm.trans hy)
      simpa [dueTimeOf, List.filter_cons, hy, List.find?_cons, this, h.symm] using ih
    · by_cases hya : y.id = a
      · subst hya; simp [dueTimeOf, hy]
      · simpa [dueTimeOf, List.filter_cons, hy, List.find?_cons, hya] using ih

theorem sealRank_filter {sets : List SealedSet} {id a b : Nat} (ha : a ≠ id) (hb : b ≠ id) :
    (sealRank (sets.filter fun y => y.id ≠ id) a < sealRank (sets.filter fun y => y.id ≠ id) b) ↔
      sealRank sets a < sealRank sets b := by
  induction sets with
  | nil => rfl
  | cons y l ih =>
    simp only [sealRank] at ih ⊢
    by_cases hy : y.id = id
    · have h1 : y.id ≠ a := fun e => ha (e.symm.trans hy)
      have h2 : y.id ≠ b := fun e => hb (e.symm.trans hy)
      rw [List.findIdx_cons, List.findIdx_cons, List.filter_cons_of_neg (by simp [hy])]
      simpa [h1, h2] using ih
    · rw [List.filter_cons_of_pos (by simp [hy])]
      simp only [List.findIdx_cons]
      by_cases h1 : y.id = a <;> by_cases h2 : y.id = b <;> simp_all

theorem goesBefore_filter {sets : List SealedSet} {id a b : Nat} (ha : a ≠ id) (hb : b ≠ id) :
    goesBefore (sets.filter fun y => y.id ≠ id) a b = true ↔ goesBefore sets a b = true := by
  rw [goesBefore_iff, goesBefore_iff, dueTimeOf_filter ha, dueTimeOf_filter hb, sealRank_filter ha hb]

/-- R51 steps 1 and 2: a set that leaves takes its place on the Ready List with it. -/
theorem ReadyListed.removeSet {s : State} (h : ReadyListed s) (x : SealedSet) :
    ReadyListed (removeSet x s) := by
  obtain ⟨h1, h2, h3, h4, h5⟩ := h
  have hm (a : Nat) : a ∈ s.schedule.ready.erase x.id ↔ a ≠ x.id ∧ a ∈ s.schedule.ready := h2.mem_erase_iff
  refine ⟨h1.sublist (List.filter_sublist.map _), h2.erase _, fun a => ?_, fun y hy => ?_, ?_⟩
  · show a ∈ s.schedule.ready.erase x.id ↔ ∃ y ∈ s.sets.filter fun y => y.id ≠ x.id, _
    rw [hm, h3]
    constructor
    · rintro ⟨hne, y, hy, rfl, hd⟩; exact ⟨y, List.mem_filter.2 ⟨hy, by simpa using hne⟩, rfl, hd⟩
    · rintro ⟨y, hy, rfl, hd⟩
      obtain ⟨hy, hne⟩ := List.mem_filter.1 hy
      exact ⟨by simpa using hne, y, hy, rfl, hd⟩
  · exact h4 y (List.mem_filter.1 hy).1
  · refine (h5.sublist List.erase_sublist).imp_of_mem fun ha hb hab => ?_
    exact (dueTimeOf_filter ((hm _).1 ha).1).le.trans
      (hab.trans (dueTimeOf_filter ((hm _).1 hb).1).ge)

theorem ReadyOrdered.removeSet {s : State} (h : ReadyListed s) (h' : ReadyOrdered s) (x : SealedSet) :
    ReadyOrdered (removeSet x s) := by
  have hm (a : Nat) : a ∈ s.schedule.ready.erase x.id ↔ a ≠ x.id ∧ a ∈ s.schedule.ready :=
    h.2.1.mem_erase_iff
  refine (List.Pairwise.sublist List.erase_sublist h').imp_of_mem fun ha hb hab => ?_
  exact (goesBefore_filter ((hm _).1 ha).1 ((hm _).1 hb).1).2 hab

/-! ### A set falls due -/

theorem sealRank_map (f : SealedSet → SealedSet) (hf : ∀ x, (f x).id = x.id) (sets : List SealedSet) (a : Nat) :
    sealRank (sets.map f) a = sealRank sets a := by
  induction sets with
  | nil => rfl
  | cons y l ih => simp only [sealRank, List.map_cons, List.findIdx_cons, hf] at ih ⊢; rw [ih]

theorem dueTimeOf_map (f : SealedSet → SealedSet) (hf : ∀ x, (f x).id = x.id) {sets : List SealedSet} {a : Nat}
    (h : ∀ x ∈ sets, x.id = a → (f x).dueTime = x.dueTime) : dueTimeOf (sets.map f) a = dueTimeOf sets a := by
  induction sets with
  | nil => rfl
  | cons y l ih =>
    by_cases hy : y.id = a
    · simp [dueTimeOf, hf, hy, h y (by simp) hy]
    · simpa [dueTimeOf, List.find?_cons, hf, hy] using ih fun x hx => h x (by simp [hx])

/-- A list in an order stays in it when an element goes before the first that does not precede it. -/
theorem pairwise_insert {R : Nat → Nat → Prop} {p : Nat → Bool} {l : List Nat} {id : Nat} (h : l.Pairwise R)
    (hl : ∀ a ∈ l, p a = true → R a id) (hr : ∀ a ∈ l, p a = false → R id a)
    (trans : ∀ a ∈ l, ∀ b ∈ l, R id a → R a b → R id b) :
    (l.takeWhile p ++ [id] ++ l.dropWhile p).Pairwise R := by
  have ht (a) (ha : a ∈ l.takeWhile p) : a ∈ l := (List.takeWhile_sublist p).subset ha
  have hd (a) (ha : a ∈ l.dropWhile p) : a ∈ l := (List.dropWhile_sublist p).subset ha
  have hall : ∀ b ∈ l.dropWhile p, R id b := by
    cases hc : l.dropWhile p with
    | nil => simp
    | cons c rest =>
      have hpc : p c = false := by
        have := List.head?_dropWhile_not p l
        rw [hc] at this; simpa using this
      have hc' : c ∈ l := hd c (by simp [hc])
      have hrc := hr c hc' hpc
      intro b hb
      rcases List.mem_cons.1 hb with rfl | hb'
      · exact hrc
      · have : (c :: rest).Pairwise R := hc ▸ h.sublist (List.dropWhile_sublist p)
        exact trans c hc' b (hd b (hc ▸ hb)) hrc ((List.pairwise_cons.1 this).1 b hb')
  rw [List.append_assoc, List.pairwise_append]
  refine ⟨h.sublist (List.takeWhile_sublist p), ?_, ?_⟩
  · rw [List.singleton_append, List.pairwise_cons]
    exact ⟨hall, h.sublist (List.dropWhile_sublist p)⟩
  · intro a ha b hb
    rw [List.singleton_append, List.mem_cons] at hb
    rcases hb with rfl | hb
    · exact hl a (ht a ha) (List.mem_takeWhile_imp ha)
    · rw [← List.takeWhile_append_dropWhile (p := p) (l := l), List.pairwise_append] at h
      exact h.2.2 a ha b hb

theorem insert_perm (p : Nat → Bool) (l : List Nat) (id : Nat) :
    (l.takeWhile p ++ [id] ++ l.dropWhile p).Perm (id :: l) := by
  rw [List.append_assoc, List.singleton_append]
  exact List.perm_middle.trans (by rw [List.takeWhile_append_dropWhile])

/-- What `makeDue` makes of a set. -/
def SealedSet.madeDue (id v : Nat) (x : SealedSet) : SealedSet :=
  if x.id = id then { x with state := .due, dueTime := some v } else x

@[simp] theorem SealedSet.madeDue_id (id v : Nat) (x : SealedSet) : (x.madeDue id v).id = x.id := by
  unfold SealedSet.madeDue; split <;> rfl

theorem dueTimeOf_madeDue {sets : List SealedSet} {id a : Nat} (v : Nat) (h : a ≠ id) :
    dueTimeOf (sets.map (SealedSet.madeDue id v)) a = dueTimeOf sets a := by
  refine dueTimeOf_map _ (SealedSet.madeDue_id id v) fun x _ hx => ?_
  rw [SealedSet.madeDue, if_neg fun e => h (hx.symm.trans e)]

/-- R47: the list after a set has fallen due. -/
theorem makeDue_ready (id v : Nat) (s : State) :
    let sets := s.sets.map (SealedSet.madeDue id v)
    (makeDue id v s).sets = sets ∧ (makeDue id v s).schedule.ready =
      s.schedule.ready.takeWhile (fun a => goesBefore sets a id) ++ [id] ++
        s.schedule.ready.dropWhile (fun a => goesBefore sets a id) := ⟨rfl, rfl⟩

/-- R41, R47: a live set that was not DUE and falls due takes a place of its own. -/
theorem ReadyListed.makeDue {s : State} (h : ReadyListed s) {id : Nat} (v : Nat) (hid : id ∈ s.sets.map (·.id))
    (hr : id ∉ s.schedule.ready) : ReadyListed (makeDue id v s) := by
  obtain ⟨h1, h2, h3, h4, h5⟩ := h
  obtain ⟨hs, hl⟩ := makeDue_ready id v s
  have hp := insert_perm (fun a => goesBefore (s.sets.map (SealedSet.madeDue id v)) a id) s.schedule.ready id
  rw [← hl] at hp
  have hne (a) (ha : a ∈ s.schedule.ready) : a ≠ id := fun e => hr (e ▸ ha)
  unfold ReadyListed
  rw [hs]
  refine ⟨?_, hp.nodup_iff.2 (List.nodup_cons.2 ⟨hr, h2⟩), fun a => ?_, fun x hx hd => ?_, ?_⟩
  · simpa [List.map_map, Function.comp_def] using h1
  · rw [hp.mem_iff, List.mem_cons, h3]
    constructor
    · rintro (rfl | ⟨x, hx, rfl, hd⟩)
      · obtain ⟨x, hx, rfl⟩ := List.mem_map.1 hid
        exact ⟨_, List.mem_map_of_mem hx, by simp, by simp [SealedSet.madeDue]⟩
      · exact ⟨_, List.mem_map_of_mem hx, by simp, by unfold SealedSet.madeDue; split <;> simp [hd]⟩
    · rintro ⟨y, hy, rfl, hd⟩
      obtain ⟨x, hx, rfl⟩ := List.mem_map.1 hy
      by_cases e : x.id = id
      · exact .inl (by simpa using e)
      · exact .inr ⟨x, hx, by simp, by simpa [SealedSet.madeDue, e] using hd⟩
  · obtain ⟨y, hy, rfl⟩ := List.mem_map.1 hx
    by_cases e : y.id = id
    · simp [SealedSet.madeDue, e]
    · simp only [SealedSet.madeDue, if_neg e] at hd ⊢; exact h4 y hy hd
  · rw [hl]
    refine pairwise_insert (h5.imp_of_mem fun ha hb hab => ?_) (fun a _ hp => ?_) (fun a _ hp => ?_)
      (fun a _ b _ h h' => h.trans h')
    · rwa [dueTimeOf_madeDue v (hne _ ha), dueTimeOf_madeDue v (hne _ hb)]
    · rw [goesBefore_iff] at hp; omega
    · have : ¬ goesBefore (s.sets.map (SealedSet.madeDue id v)) a id = true := by simp [hp]
      rw [goesBefore_iff] at this; omega

theorem ReadyOrdered.makeDue {s : State} (h : ReadyListed s) (h' : ReadyOrdered s) {id : Nat} (v : Nat)
    (hr : id ∉ s.schedule.ready) : ReadyOrdered (makeDue id v s) := by
  obtain ⟨hs, hl⟩ := makeDue_ready id v s
  have hne (a) (ha : a ∈ s.schedule.ready) : a ≠ id := fun e => hr (e ▸ ha)
  have hg {a b : Nat} (ha : a ≠ id) (hb : b ≠ id) :
      goesBefore (s.sets.map (SealedSet.madeDue id v)) a b = true ↔ goesBefore s.sets a b = true := by
    rw [goesBefore_iff, goesBefore_iff, dueTimeOf_madeDue v ha, dueTimeOf_madeDue v hb,
      sealRank_map _ (SealedSet.madeDue_id id v), sealRank_map _ (SealedSet.madeDue_id id v)]
  unfold ReadyOrdered
  rw [hs, hl]
  refine pairwise_insert (List.Pairwise.imp_of_mem (fun ha hb hab => ?_) h') (fun a _ hp => hp)
    (fun a ha hp => goesBefore_total ?_ (hne a ha) (by simp [hp])) (fun _ _ _ _ h h' => goesBefore_trans h h')
  · exact (hg (hne _ ha) (hne _ hb)).2 hab
  · obtain ⟨x, hx, rfl, _⟩ := (h.2.2.1 a).1 ha
    simpa [List.map_map, Function.comp_def] using List.mem_map_of_mem (f := (·.id)) hx

end Sys2Proof.Machine
end

