-- ==== Sys2Proof/Tests/Slice0.lean ====
section
/-! SUPPORT. Tests: what WellFormed refuses, a witness for the hypotheses of every statement, and small checks
of commands against the spec's own examples and tables. -/

namespace Sys2Proof.Tests

open Sys2Proof.Machine

/- One theorem after the other: each `decide +kernel` waits for the kernel, and as tasks they would hold a
thread each. -/
set_option Elab.async false

/-! ### States built by hand -/

/-- A request frame's header: Link A, session 1, sequence 7. -/
def hA : Header := ⟨.a, 1, 7⟩

/-- A CONTROL session on Link A with the default settings. -/
def control : Session :=
  { ending := none, link := .a, role := .control, name := [], lease := 5000, deadline := some 5000000
    quota := 128, inUse := 0, lowMark := 0, retry := 200, subs := ⟨true, true, true, true⟩, openTime := 0
    incarnation := 1 }

/-- A teardown in progress. -/
def ending (c : EndingCause) : Ending := ⟨c, 5, false, false, false⟩

/-- Session 1 OPEN with a record. -/
def opened (k : Session) : State := State.reset.withSession 0 (some k)

/-- Session 1 OPEN, CONTROL, on Link A. -/
def base : State := opened control

/-- The request stands at its block. -/
def hold (r : Request) (s : State) : State := s.withLink .a { s.link .a with inHand := some (hA, r) }

/-- `AtBlock` of `hold`, as something to decide. -/
def stands (v : Server) (r : Request) (s : State) : Bool :=
  decide (((hold r s).link .a).inHand = some (hA, r)) && decide (boundSession hA (hold r s) = some 0) &&
    !endedAt v 0 (hold r s) && encodingOk r

theorem stands_atBlock {v : Server} {r : Request} {s : State} (h : stands v r s = true) :
    AtBlock v hA r 0 (hold r s) := by
  simp only [stands, Bool.and_eq_true, decide_eq_true_eq, Bool.not_eq_true'] at h
  exact ⟨h.1.1.1, h.1.1.2, h.1.2, h.2⟩

/-- A VOLTAGE channel with limits −100 to 100 at its safe value 0. -/
def chan (owner : Option SessionIx) : Channel :=
  { owned := owner.map fun n => ⟨n, .hold⟩, kind := .voltage, descLower := -100, descUpper := 100
    descSafe := 0, tolerance := 5, settle := 10, lower := -100, upper := 100, safe := 0, commanded := 0
    ramp := none, appliedBy := none, lastReadback := none, deviation := false }

def withChan (c : ChanIx) (x : Channel) (s : State) : State :=
  s.withChannels (s.claims.channels.put c (some x))

/-- An item for channel 0. -/
def item0 : Item := ⟨0, 10, 0⟩

/-- A sealed set of session 1 with one item for channel 0. -/
def set1 (st : SetState) (d : Due) : SealedSet :=
  { id := 1, owner := 0, due := d, dueTime := some 0, late := .apply, capture := false, sync := false
    items := [item0], sealNo := 1, sealTime := 0, state := st, member := false, pass := 0 }

/-- An open set of session 1. -/
def openOf (items : List Item) : OpenSet :=
  { due := .now, late := .apply, capture := false, sync := false, items := items, spoiled := none }

/-- A cycle of session 1. -/
def cycleOf (p : CyclePhase) (members : List Nat) : Cycle :=
  { phase := p, firstStart := 100, period := 1000, repeats := 0, begun := 1, current := some 100
    members := members }

/-- Settings that leave everything at its default. -/
def noSettings : RawSettings :=
  { name := ⟨0, ⟨0, Table.const 0⟩⟩, lease := ⟨0, 0⟩, quota := ⟨0, 0⟩, lowMark := ⟨0, 0⟩, retry := ⟨0, 0⟩
    slotChange := ⟨0, 0⟩, haltChange := ⟨0, 0⟩, sessionLost := ⟨0, 0⟩, deviation := ⟨0, 0⟩ }

/-- The bytes of a frame from its length byte on. -/
def frameOf (r : Request) : List Byte := (requestFrame 1 7 r).drop 1

/-! ### WellFormed -/

/-- R183, R185: a SET_ADD of 48 items is longer than any frame. -/
theorem test_wellFormed_refuses_a_long_set_add :
    (Instr.setAdd hA 0 (List.replicate 48 ⟨0, 0, 0⟩)).wellFormed = false ∧
    exec (.setAdd hA 0 (List.replicate 48 ⟨0, 0, 0⟩)) base = .refused .illFormed := ⟨by decide +kernel, rfl⟩

/-- R164: the length byte is 5 to 245 and counts the bytes before the CRC. -/
theorem test_wellFormed_refuses_a_short_frame :
    (Instr.frameReceived .a [4, 0, 0, 0, 0, 0, 0]).wellFormed = false ∧
    exec (.frameReceived .a [4, 0, 0, 0, 0, 0, 0]) base = .refused .illFormed := ⟨by decide +kernel, rfl⟩

/-! ### Witnesses: the machine -/

theorem witness_front_command : (base.withPending [.take]).pending = .take :: [] := rfl

theorem witness_empty_queue : State.reset.pending = [] := rfl

theorem witness_wellFormed :
    (Instr.setAdd hA 1 (List.replicate 47 ⟨0, 0, 0⟩)).wellFormed = true ∧
    (Instr.setAdd hA 1 (List.replicate 48 ⟨0, 0, 0⟩)).wellFormed = false ∧
    (Instr.frameReceived .a (frameOf .timeGet)).wellFormed = true ∧
    (Instr.frameReceived .a []).wellFormed = false := by decide +kernel

theorem witness_commands_run :
    exec .haltLineAssert base = .next (base.withMonitor (.qualifying 20)) ∧ ¬ ArrivesNow .haltLineAssert base ∧
    (∃ t, exec (.timeGet hA) base = .next t) ∧ ArrivesNow (.timeGet hA) base :=
  ⟨rfl, (by rintro ⟨_, r, e, _⟩; cases r <;> cases e), ⟨_, rfl⟩, hA, .timeGet, rfl, rfl, rfl, rfl⟩

/-- A session, a channel, an open set and an APPLYING set. -/
def busy : State :=
  (withChan 0 (chan (some 0)) (base.withSets [set1 .applying .now])).withAssembler
    { openSets := Table.tab fun n => if n = 0 then some (openOf [item0]) else none, poolFree := 510 }

/-- `TablesBounded`, as something to decide. -/
theorem tablesBounded_of {s : State} (h : s.claims.waits.length ≤ 8 ∧
    (∀ n, (s.claims.waits.filter fun e => e.session = n).length ≤ 2) ∧ s.sets.length ≤ 64 ∧
    s.engine.captures.length ≤ 16 ∧
    (∀ n : SessionIx, ((s.openSet n).all fun o => decide (o.items.length ≤ 32)) = true) ∧
    (∀ n : SessionIx, ((s.cycle n).all fun c => decide (c.members.length ≤ 16)) = true)) : TablesBounded s := by
  obtain ⟨h1, h2, h3, h4, h5, h6⟩ := h
  refine ⟨h1, h2, h3, h4, fun n o ho => ?_, fun n c hc => ?_⟩
  · simpa [ho] using h5 n
  · simpa [hc] using h6 n

/-- Session 1 has a report outstanding whose frame waits behind another on Link A, and two wait entries. -/
def reporting : State :=
  let o : Outstanding := ⟨4, 9, .queueLow 0 1, 0, .sending⟩
  let e : WaitEntry := ⟨0, 1, 2, .safe, 9, 7⟩
  ((busy.withWaits [e, e]).withLists 0 { ReportLists.reset with outstanding := [o] }).withLinkA
    { busy.linkA with reports := [⟨4, 0, 9, .queueLow 0 1⟩] }

theorem witness_bounds :
    (ClockBounded reporting ∧ BusBounded reporting ∧ LinksBounded reporting ∧ ReportsBounded reporting ∧
      TablesBounded reporting ∧ ReportQueuesTied reporting) ∧
    step reporting = .next (tick reporting) := by
  refine ⟨⟨by unfold ClockBounded; decide, by unfold BusBounded; decide,
    by unfold LinksBounded Link.bounded; decide, by unfold ReportsBounded ReportLists.bounded; decide,
    tablesBounded_of (by decide +kernel), fun l => by cases l <;> decide +kernel, ?_, ?_, by decide +kernel⟩, rfl⟩
  · intro l f hf
    obtain ⟨rfl, rfl⟩ : f = ⟨4, 0, 9, .queueLow 0 1⟩ ∧ l = .a := by
      cases l
      · exact ⟨List.mem_singleton.1 hf, rfl⟩
      · exact absurd hf List.not_mem_nil
    exact ⟨⟨control, by decide +kernel, rfl⟩, ⟨4, 9, .queueLow 0 1, 0, .sending⟩, by decide +kernel, rfl, rfl⟩
  · intro n r hr he
    have : ∀ n : SessionIx, ((reporting.session n).all fun r => decide (r.ending = none)) = true := by
      decide +kernel
    have := this n
    rw [hr] at this
    exact absurd (by simpa using this) he

theorem witness_limits : LimitsHold busy ∧ step busy = .next (tick busy) := by
  refine ⟨⟨?_, by intro k d held h; exact absurd h List.not_mem_nil, ?_⟩, rfl⟩
  · intro c x h
    have : ∀ c : ChanIx, ((busy.channel c).all fun x => decide (x = chan (some 0))) = true := by decide +kernel
    have := this c
    rw [h] at this
    have e : x = chan (some 0) := by simpa using this
    subst e
    unfold Channel.limitsHold
    decide +kernel
  · intro k d h
    have : ∀ k : SlotIx, (busy.slot k).state = .empty := by decide +kernel
    rw [this k] at h
    simp at h

/-- A commit record handed over, for a channel that is present. -/
def recorded : State := post (.commitRecords [⟨0, 100, 5, 1, 0⟩] false) busy

theorem witness_commanded :
    LimitsHold recorded ∧ CommandedInside recorded ∧ RecordsInside recorded ∧
    ∃ t, step (recorded.withPending [.commitRecords]) = .next t := by
  refine ⟨⟨witness_limits.1.1, ?_, witness_limits.1.2.2⟩, fun c x h => (?_ : _), fun rs q h => ?_, _, rfl⟩
  · intro k d held h
    exact absurd (List.mem_singleton.1 h) (by simp)
  · obtain ⟨h1, h2, h3, h4, h5, -⟩ := witness_limits.1.1 c x h
    have : ∀ c : ChanIx, ((recorded.channel c).all fun x => decide (x.commanded = x.safe)) = true := by
      decide +kernel
    have := this c
    rw [h] at this
    have e : x.commanded = x.safe := by simpa using this
    omega
  · obtain ⟨rfl, rfl⟩ : rs = [⟨0, 100, 5, 1, 0⟩] ∧ q = false := by
      simpa [recorded] using List.mem_singleton.1 h
    have : ((recorded.channel 0).all fun x => decide (x.lower ≤ 100 ∧ (100 : Int) ≤ x.upper)) = true := by
      decide +kernel
    intro r hr x hx
    obtain rfl := List.mem_singleton.1 hr
    rw [hx] at this
    simpa using this

/-- A CLAIM of session 1 in the Claim Unit's hands, with a wait entry of the session. -/
def claiming : State := hold (.claim 0 0 0 0) (busy.withWaits [⟨0, 1, 2, .safe, 9, 7⟩])

theorem witness_owners : OwnersOpen claiming ∧ step claiming = .next (tick claiming) := by
  refine ⟨⟨fun c x o h ho => ?_, by decide +kernel, fun h r n hr hn => ?_⟩, rfl⟩
  · have : ∀ c : ChanIx, ((claiming.channel c).all fun x =>
        x.owned.all fun o => claiming.isControl o.owner) = true := by decide +kernel
    have := this c
    rw [h] at this
    simpa [ho] using this
  · have : ∀ n : SessionIx, boundSession hA claiming = some n → claiming.isControl n = true := by decide +kernel
    obtain ⟨l, i, q⟩ := h
    cases l
    · have e : (claiming.link .a).inHand = some (hA, .claim 0 0 0 0) := by decide +kernel
      obtain ⟨e, -⟩ := Prod.mk.inj (Option.some.inj (e.symm.trans hr))
      exact .inl (this n (e ▸ hn))
    · have e : (claiming.link .b).inHand = none := by decide +kernel
      exact absurd (e.symm.trans hr) (by simp)

/-- Session 1 with one item in its open set, one in a sealed set and one on its way back. -/
def counted : State := post (.itemsReturn 0 1) (busy.withSession 0 (some { control with inUse := 3 }))

theorem witness_items_in_use : ItemsCounted counted ∧ ∃ t, step (counted.withPending [.itemsReturn 0]) = .next t := by
  refine ⟨⟨by decide +kernel, fun n => ⟨fun r hr => ?_, fun hn => ?_⟩⟩, _, rfl⟩
  · have : ∀ n : SessionIx, ((counted.session n).all fun r =>
        decide (r.inUse = heldItems n counted ∧ r.inUse ≤ r.quota)) = true := by decide +kernel
    have := this n
    rw [hr] at this
    simpa using this
  · have : ∀ n : SessionIx, counted.session n = none → heldItems n counted = 0 := by decide +kernel
    exact this n hn

theorem witness_pool : PoolConserved busy ∧ step busy = .next (tick busy) := by
  unfold PoolConserved
  exact ⟨by decide +kernel, rfl⟩

theorem witness_one_applying : OneApplying busy ∧ step busy = .next (tick busy) := by
  unfold OneApplying
  exact ⟨by decide +kernel, rfl⟩

/-- `ReadyListed`, as something to decide. -/
theorem readyListed_of {s : State} (h : (s.sets.map (·.id)).Nodup ∧ s.schedule.ready.Nodup ∧
    (∀ id ∈ s.schedule.ready, ∃ x ∈ s.sets, x.id = id ∧ x.state = .due) ∧
    (∀ x ∈ s.sets, x.state = .due → x.id ∈ s.schedule.ready ∧ x.dueTime ≠ none) ∧
    s.schedule.ready.Pairwise fun a b => dueTimeOf s.sets a ≤ dueTimeOf s.sets b) : ReadyListed s :=
  ⟨h.1, h.2.1, fun id => ⟨h.2.2.1 id, fun ⟨x, hx, e, hd⟩ => e ▸ (h.2.2.2.1 x hx hd).1⟩,
    fun x hx hd => (h.2.2.2.1 x hx hd).2, h.2.2.2.2⟩

/-- Two DUE sets in their order on the Ready List, and a PENDING one that has a due time. -/
def lined : State :=
  ((base.withSets [set1 .due .now, { set1 .due .now with id := 2, sealNo := 2, dueTime := some 1 },
    { set1 .pending (.atTime 1) with id := 3, sealNo := 3, dueTime := some 1 }]).withReady [1, 2])

theorem lined_ready : ReadyListed lined ∧ ReadyOrdered lined :=
  ⟨readyListed_of (by decide +kernel), by unfold ReadyOrdered; decide +kernel⟩

theorem witness_ready_list :
    (ReadyListed lined ∧ ReadyOrdered lined) ∧ step lined = .next (tick lined) ∧
    (∃ t, step (lined.withPending [.timeSet hA 5]) = .next t) ∧
    (∀ x ∈ lined.sets, ∀ v, x.state = .due → x.dueTime = some v →
      (lined.clock.rig : Int) ≤ (v : Int) + (5 : Time).toNat ∧
        (v : Int) + (5 : Time).toNat - lined.clock.rig ≤ 2 ^ 48 - 1) ∧
    lined.schedule.nextId ≤ 65534 := by
  refine ⟨lined_ready, rfl, ⟨_, rfl⟩, ?_, by decide +kernel⟩
  have h : ∀ x ∈ lined.sets, x.state = .due → x.dueTime = some 0 ∨ x.dueTime = some 1 := by decide +kernel
  intro x hx v hd hv
  have e : lined.clock.rig = 0 := rfl
  rcases h x hx hd with h | h <;> rw [h] at hv <;> cases hv <;> simp [e]

/-! ### Witnesses: frames, requests and replies -/

theorem witness_request_bodies : (∀ f items, Request.setAdd 1 (List.replicate 255 ⟨0, 0, 0⟩) = .setAdd f items →
    items.length ≤ 255) := by
  intro f items h
  injection h with _ h
  subst h
  rw [List.length_replicate]

theorem witness_request_frames :
    (requestBody (.setAdd 1 (List.replicate 47 ⟨0, 0, 0⟩))).length ≤ 240 ∧
    (requestBody .timeGet).length ≤ 240 := by decide +kernel

theorem witness_frame_characters :
    Link.reset.receiver = .hunt ∧ frameBytesOk (frameOf .timeGet) = true ∧
    crcAgrees (frameOf .timeGet) = true := by decide +kernel

/-- A reply of any kind. -/
def someReply : Reply :=
  { kind := 1, session := 1, seq := 1, outcome := .done, reason := none, body := [], resetReply := false }

/-- A transmitter at work. -/
def sending : Transmission := ⟨.reply someReply, outBytes (.reply someReply)⟩

def withLinkA (f : Link → Link) (s : State) : State := s.withLink .a (f (s.link .a))

theorem witness_answers :
    ((base.link .a).replies = [] ∧ (base.link .a).transmission = none) ∧
    (let s := withLinkA (fun k => { k with transmission := some sending
                                           replies := List.replicate 7 someReply }) base;
      (s.link .a).replies.length < 8 ∧ (s.link .a).transmission = some sending) ∧
    (let s := withLinkA (fun k => { k with transmission := some sending
                                           replies := List.replicate 8 someReply }) base;
      8 ≤ (s.link .a).replies.length ∧ (s.link .a).dispatch = .ready) ∧
    (let s := withLinkA (fun k => { k with transmission := some sending, dispatch := .stopped none
                                           replies := List.replicate 8 someReply }) base;
      8 ≤ (s.link .a).replies.length ∧ (s.link .a).dispatch = .stopped none) ∧
    (boundSession hA base = some 0 ∧ base.endedFor .linkPort 0 = false ∧
      boundSession hA (opened { control with ending := some (ending .lease) }) = some 0 ∧
      (opened { control with ending := some (ending .lease) }).endedFor .linkPort 0 = true ∧
      boundSession hA State.reset = none) := by decide +kernel

/-- A frame in the input queue. -/
def waitingFrame (kind session : Byte) (body : List Byte) (s : State) : State :=
  withLinkA (fun k => { k with input := [⟨1, kind, session, 7, body⟩] }) s

def openBody : List Byte := requestBody (.sessionOpen 0 noSettings)

theorem witness_dispatch :
    (base.link .a).input = [] ∧
    ((waitingFrame 0x7F 1 [] base).link .a).input = [⟨1, 0x7F, 1, 7, []⟩] ∧
    parseRequest 0x7F [] = .unknownKind ∧
    parseRequest 0x22 [0] = .badLength ∧
    parseRequest (kindOf (.sessionOpen 0 noSettings)) openBody = .request (.sessionOpen 0 noSettings) ∧
    ((withLinkA (fun k => { k with openCache := some ⟨7, someReply, none⟩ }) base).link .a).openCache =
      some ⟨7, someReply, none⟩ ∧
    (base.link .a).openCache = none ∧
    parseRequest 0x22 [] = .request .setDiscard ∧
    boundSession hA State.reset = none ∧ boundSession hA base = some 0 ∧
    (opened { control with ending := some (ending .lease) }).isEnding 0 = true ∧
    ((withLinkA (fun k => { k with cache := k.cache.put 0 (some ⟨7, someReply⟩) }) base).link .a).cache.get 0 =
      some ⟨7, someReply⟩ ∧
    base.isEnding 0 = false ∧ (base.link .a).cache.get 0 = none ∧ base.isControl 0 = true ∧
    (opened { control with role := .observe }).isControl 0 = false ∧
    observeMaySend .setDiscard = false ∧ observeMaySend .timeGet = true := by decide +kernel

/-- The frame of a TIME_GET of session 1. -/
def asking : InFrame := ⟨1, kindOf .timeGet, 1, 7, []⟩

/-- Link `l` of `base` with frames in its input queue. -/
def fetched (l : LinkId) (fs : List InFrame) : Link :=
  (base.withLink l { base.link l with input := fs }).link l

/-- R186: the encoding is checked before any other check, also for a request of a session that has ended since. -/
theorem test_encoding_is_checked_first :
    let s := hold (.deviceReset 2) (opened { control with ending := some (ending .lease) })
    exec (.deviceReset hA 2) s = .next (refuse hA (.deviceReset 2) .badField s) := rfl

theorem witness_requests_reach :
    ((commandOf hA .timeGet).wellFormed = true ∧ (base.link .a).dispatch = .ready ∧
      (base.link .a).inHand = none ∧ (base.link .a).input = [] ∧ base.notices = [] ∧
      (let u := refreshLease .a 1 base; dispatchRequest hA .timeGet u = handOver hA .timeGet u) ∧
      ((dispatchRequest hA .timeGet (refreshLease .a 1 State.reset)).link .a).inHand = none) ∧
    (((hold .timeGet State.reset).link .a).inHand = some (hA, .timeGet) ∧
      boundSession hA (hold .timeGet State.reset) = none ∧ encodingOk .timeGet = true ∧ encodingOk .cycleEnd = true ∧
      (let s := hold .cycleEnd (opened { control with ending := some (ending .lease) })
       boundSession hA s = some 0 ∧ endedAt (serverOf .cycleEnd) 0 s = true) ∧
      ((hold (.setAdd 2 []) base).link .a).inHand = some (hA, .setAdd 2 []) ∧
      (commandOf hA (.setAdd 2 [])).wellFormed = true ∧
      encodingOk (.setAdd 2 []) = false ∧ (hold (.setAdd 2 []) base).notices = []) ∧
    ((fetched .a [asking]).input = [asking] ∧ (fetched .a [asking]).dispatch = .ready ∧
      (fetched .a [asking]).inHand = none ∧ asking.session = hA.session ∧ asking.seq = hA.seq ∧
      parseRequest asking.kind asking.body = .request .timeGet ∧
      parseRequest asking.kind asking.body ≠ .request .haltNow) ∧
    ((commandOf hA (.setAdd 1 [])).wellFormed = true ∧
      .sealAsked 0 1 hA 1 ∈ (post (.sealAsked 0 1 hA 1) base).notices) := by decide +kernel

/-! ### Witnesses: the links -/

theorem witness_line_events :
    (base.link .a).receiver = .hunt ∧
    ((withLinkA (fun k => { k with receiver := .frame [5] 2000 }) base).link .a).receiver = .frame [5] 2000 ∧
    ((withLinkA (fun k => { k with receiver := .lineBreak }) base).link .a).receiver = .lineBreak ∧
    (base.link .a).spacingSince = none ∧
    (let s := (withLinkA (fun k => { k with spacingSince := some 0 }) base).withClock
        { rig := 0, uptime := 1000, lateMargin := 500 };
      (s.link .a).spacingSince = some 0 ∧ 0 + 1000 ≤ s.clock.uptime ∧ (s.link .a).receiver ≠ .lineBreak) ∧
    (let s := (withLinkA (fun k => { k with spacingSince := some 0 }) base).withClock
        { rig := 0, uptime := 999, lateMargin := 500 };
      (s.link .a).spacingSince = some 0 ∧ s.clock.uptime < 0 + 1000) := by decide +kernel

/-- A frame of a class, with a CRC that agrees. -/
def frameOfClass (cls : Nat) (kind : Byte) (body : List Byte) : List Byte :=
  (frameBytes cls kind 1 7 body).drop 1

theorem witness_frames_taken :
    (frameBytesOk (frameOf .timeGet) = true ∧ (base.link .a).complete = [] ∧
      (base.link .a).receiver = .hunt ∧ crcAgrees (frameOf .timeGet) = true ∧
      crcAgrees ((frameOf .timeGet).dropLast ++ [0]) = false ∧
      frameBytesOk ((frameOf .timeGet).dropLast ++ [0]) = true) ∧
    (let s := withLinkA (fun k => { k with complete := [frameOf .timeGet] }) base;
      (s.link .a).complete = frameOf .timeGet :: []) ∧
    (sessionOf (readFrame (frameOf .timeGet)).session = some 0 ∧ base.session 0 = some control ∧
      control.link = .a ∧ control.ending = none) ∧
    (sessionOf (readFrame (frameOf .timeGet)).session = some 0 ∧ State.reset.session 0 = none) ∧
    ((readFrame (frameOf .timeGet)).cls.toNat = 1 ∧ (base.link .a).input.length < 4) ∧
    (let s := withLinkA (fun k => { k with input := List.replicate 4 ⟨1, 0, 1, 7, []⟩ }) base;
      4 ≤ (s.link .a).input.length) ∧
    (8 ≤ ((withLinkA (fun k => { k with replies := List.replicate 8 someReply }) base).link .a).replies.length ∧
      (let s := withLinkA (fun k => { k with replies := List.replicate 7 someReply
                                             transmission := some sending }) base;
        (s.link .a).replies.length < 8 ∧ (s.link .a).transmission = some sending) ∧
      (base.link .a).transmission = none ∧ (base.link .a).replies ++ [someReply] = someReply :: []) ∧
    ((readFrame (frameOfClass 4 0 [])).cls.toNat = 4 ∧ (readFrame (frameOfClass 4 0 [])).body = [] ∧
      (readFrame (frameOfClass 4 0 [1])).body ≠ [] ∧ frameBytesOk (frameOfClass 4 0 [1]) = true) ∧
    ((readFrame (frameOfClass 2 0 [])).cls.toNat ≠ 1 ∧ (readFrame (frameOfClass 2 0 [])).cls.toNat ≠ 4) := by
  decide +kernel

theorem witness_frame_sent :
    (base.link .a).transmission = none ∧
    ((withLinkA (fun k => { k with transmission := some sending }) base).link .a).transmission =
      some sending ∧
    sending.frame = .reply someReply ∧
    (let s := withLinkA (fun k => { k with transmission := some sending, replies := [someReply] }) base;
      (s.link .a).dispatch = .ready ∧ (s.link .a).replies = someReply :: []) ∧
    (let f : ReportFrame := ⟨0, 0, 1, .queueLow 0 1⟩
      let s := withLinkA (fun k => { k with transmission := some ⟨.report f, []⟩, reports := [f] }) base;
      (s.link .a).replies = [] ∧ (s.link .a).reports = f :: []) ∧
    (let s := withLinkA (fun k => { k with
        transmission := some sending, replies := [someReply], dispatch := .waiting someReply }) base;
      (s.link .a).dispatch = .waiting someReply ∧ (s.link .a).replies = someReply :: [] ∧
      ([] : List Reply).length < 8) ∧
    (let s := withLinkA (fun k => { k with
        transmission := some sending, replies := List.replicate 8 someReply
        dispatch := .stopped (some someReply) }) base;
      (s.link .a).dispatch = .stopped (some someReply) ∧
      (s.link .a).replies = someReply :: List.replicate 7 someReply ∧
      (List.replicate 7 someReply).length < 8) ∧
    ((withLinkA (fun k => { k with dispatch := .stopped none }) base).link .a).dispatch = .stopped none := by
  decide +kernel

/-! ### Witnesses: time, status, sessions -/

theorem witness_time_get :
    AtBlock .notTold hA .timeGet 0 (hold .timeGet base) ∧
    (boundSession hA base = some 0 ∧ base.isEnding 0 = false ∧ (base.link hA.link).cache.get 0 = none) :=
  ⟨stands_atBlock (by decide +kernel), by decide +kernel⟩

/-- A timed set, due at 5. -/
def timedSet : SealedSet := set1 .pending (.atTime 5)

theorem witness_time_base :
    AtBlock .notTold hA (.deviceConfig 65535) 0 (hold (.deviceConfig 65535) base) ∧
    AtBlock .notTold hA (.timeSet 9) 0 (hold (.timeSet 9) (base.withSets [timedSet])) ∧
    AtBlock .notTold hA (.timeSet 9) 0 (hold (.timeSet 9) (base.withCycle 3 (some (cycleOf .building [])))) ∧
    AtBlock .notTold hA (.timeSet 9) 0 (hold (.timeSet 9) (base.withSets [set1 .due .now])) ∧
    ((base.withSets [timedSet]).sets.any (fun x => x.due.timed) = true ∧
      ((base.withCycle 3 (some (cycleOf .building []))).cycle 3).isSome = true ∧
      (base.withSets [set1 .due .now]).sets.all (fun x => !x.due.timed) = true ∧
      (∀ m, (base.withSets [set1 .due .now]).cycle m = none)) ∧
    (((4 : Nat) : Int) + (-5) < 0 ∧ 0 ≤ ((5 : Nat) : Int) + (-5)) ∧
    (let s := withChan 0 { chan none with ramp := some ⟨0, 9, 3, 5⟩ } (base.withClaims
       { base.claims with haltEntry := some 4 })
     s.claims.haltEntry = some 4 ∧ base.claims.haltEntry = none ∧ s.channel 1 = none ∧
      s.channel 0 = some { chan none with ramp := some ⟨0, 9, 3, 5⟩ } ∧ (chan none).ramp = none) :=
  ⟨stands_atBlock (by decide +kernel), stands_atBlock (by decide +kernel), stands_atBlock (by decide +kernel),
    stands_atBlock (by decide +kernel), by decide +kernel, by decide, by decide +kernel⟩

/-- R58: with the last seal number 5, the one live set's is 1. -/
theorem witness_ranked :
    let s := (base.withSchedule { base.schedule with lastSeal := 5 }).withSets [set1 .due .now]
    (∀ y ∈ s.sets, y.sealNo ≤ s.schedule.lastSeal) ∧ set1 .due .now ∈ s.sets ∧
      (rankedFrom 1 s (set1 .due .now) = true ∧ rankedFrom 2 s (set1 .due .now) = false ∧
        rankedFrom 6 s (set1 .due .now) = false) := by decide +kernel

/-- Session 1 with an open set, a sealed set and a cycle. -/
def stocked : State := (base.withSets [set1 .due .now]).withOpenSet 0 (some (openOf [item0]))

theorem witness_status :
    AtBlock .sessionTable hA .deviceStatus 0 (hold .deviceStatus base) ∧
    AtBlock .notTold hA .triggerStatus 0 (hold .triggerStatus base) ∧
    AtBlock (.told .linkPort) hA (.linkStatus 0 1) 0 (hold (.linkStatus 0 1) base) ∧
    AtBlock (.told .linkPort) hA (.linkStatus 1 0) 0 (hold (.linkStatus 1 0) base) ∧
    AtBlock .notTold hA (.slotStatus 3) 0 (hold (.slotStatus 3) base) ∧
    AtBlock (.told .claimUnit) hA (.channelRead 28 31) 0 (hold (.channelRead 28 31) base) ∧
    AtBlock (.told .cycleUnit) hA (.cycleStatus 4 15) 0 (hold (.cycleStatus 4 15) base) ∧
    AtBlock (.told .schedule) hA (.setList 0 4 0 0) 0 (hold (.setList 0 4 0 0) stocked) ∧
    AtBlock (.told .schedule) hA (.setList 1 0 0 1) 0 (hold (.setList 1 0 0 1) stocked) ∧
    AtBlock (.told .schedule) hA (.setList 1 0 0 2) 0 (hold (.setList 1 0 0 2) stocked) ∧
    AtBlock (.told .schedule) hA (.setList 2 1 0 0) 0 (hold (.setList 2 1 0 0) stocked) ∧
    AtBlock (.told .schedule) hA (.setList 2 4 0 0) 0 (hold (.setList 2 4 0 0) stocked) ∧
    (linkOf 0 = some .a ∧ linkOf 1 = some .b ∧ slotOf 3 = some 3 ∧ chanOf 28 = some 28 ∧ chanOf 31 = some 31 ∧
      sessionOf 4 = some 3 ∧ stocked.findSet 1 = some (set1 .due .now) ∧ stocked.findSet 2 = none ∧
      stocked.openSet 0 = some (openOf [item0]) ∧ stocked.openSet 3 = none ∧ base.cycle 3 = none ∧
      (base.withCycle 3 (some (cycleOf .building [1]))).cycle 3 = some (cycleOf .building [1])) :=
  ⟨stands_atBlock (by decide +kernel), stands_atBlock (by decide +kernel), stands_atBlock (by decide +kernel),
    stands_atBlock (by decide +kernel), stands_atBlock (by decide +kernel), stands_atBlock (by decide +kernel),
    stands_atBlock (by decide +kernel), stands_atBlock (by decide +kernel), stands_atBlock (by decide +kernel),
    stands_atBlock (by decide +kernel), stands_atBlock (by decide +kernel), stands_atBlock (by decide +kernel),
    by decide +kernel⟩

/-- Requests that name no link, no flag, no slot, no range of up to 4 channels, no session or no position. -/
theorem witness_status_refusals :
    (((hold (.linkStatus 2 0) base).link .a).inHand = some (hA, .linkStatus 2 0) ∧ linkOf 2 = none ∧
      ((hold (.linkStatus 0 2) base).link .a).inHand = some (hA, .linkStatus 0 2) ∧ flagOf 2 = none ∧
      ((hold (.setList 3 0 0 0) base).link .a).inHand = some (hA, .setList 3 0 0 0) ∧
      boundSession hA base = some 0 ∧ endedAt (.told .linkPort) 0 base = false ∧
      endedAt (.told .schedule) 0 base = false) ∧
    AtBlock .notTold hA (.slotStatus 4) 0 (hold (.slotStatus 4) base) ∧
    AtBlock (.told .claimUnit) hA (.channelRead 31 32) 0 (hold (.channelRead 31 32) base) ∧
    AtBlock (.told .claimUnit) hA (.channelRead 1 0) 0 (hold (.channelRead 1 0) base) ∧
    AtBlock (.told .claimUnit) hA (.channelRead 0 4) 0 (hold (.channelRead 0 4) base) ∧
    AtBlock (.told .cycleUnit) hA (.cycleStatus 0 0) 0 (hold (.cycleStatus 0 0) base) ∧
    AtBlock (.told .cycleUnit) hA (.cycleStatus 5 0) 0 (hold (.cycleStatus 5 0) base) ∧
    AtBlock (.told .cycleUnit) hA (.cycleStatus 1 16) 0 (hold (.cycleStatus 1 16) base) ∧
    AtBlock (.told .schedule) hA (.setList 0 5 0 0) 0 (hold (.setList 0 5 0 0) base) ∧
    AtBlock (.told .schedule) hA (.setList 2 0 0 0) 0 (hold (.setList 2 0 0 0) base) ∧
    AtBlock (.told .schedule) hA (.setList 2 5 0 0) 0 (hold (.setList 2 5 0 0) base) :=
  ⟨by decide +kernel, stands_atBlock (by decide +kernel), stands_atBlock (by decide +kernel),
    stands_atBlock (by decide +kernel), stands_atBlock (by decide +kernel), stands_atBlock (by decide +kernel),
    stands_atBlock (by decide +kernel), stands_atBlock (by decide +kernel), stands_atBlock (by decide +kernel),
    stands_atBlock (by decide +kernel), stands_atBlock (by decide +kernel)⟩

/-- Settings with a lease, a quota and a low mark. -/
def settings (lease quota : Half) (lowMark : Byte) : RawSettings :=
  { noSettings with lease := ⟨1, lease⟩, quota := ⟨1, quota⟩, lowMark := ⟨1, lowMark⟩ }

/-- The header of a SESSION_OPEN. -/
def h0 : Header := ⟨.a, 0, 1⟩

/-- Every session record OPEN. -/
def full : State := base.withSessions { base.sessions with records := Table.const (some control) }

theorem witness_open_and_config :
    ((hold (.sessionOpen 0 (settings 100 512 64)) base).link .a).inHand =
      some (hA, .sessionOpen 0 (settings 100 512 64)) ∧
    (roleOf 2 = none ∧ encodingOk (.sessionOpen 2 noSettings) = false ∧ hA.session ≠ 0 ∧
      settingsInRange (settingsOf (settings 99 0 0)) = false ∧
      settingsInRange (settingsOf (settings 60001 0 0)) = false ∧
      settingsInRange (settingsOf (settings 100 513 0)) = false ∧
      settingsInRange (settingsOf (settings 100 0 65)) = false) ∧
    (roleOf 0 = some .control ∧ encodingOk (.sessionOpen 0 (settings 60000 512 64)) = true ∧ h0.session = 0 ∧
      settingsInRange (settingsOf (settings 60000 512 64)) = true ∧
      settingsInRange (settingsOf (settings 100 0 0)) = true ∧
      (∀ n, full.session n ≠ none) ∧ base.session 1 = none ∧ ∀ m : SessionIx, m < 1 → base.session m ≠ none) ∧
    AtBlock .sessionTable hA (.sessionConfig (settings 99 0 0)) 0
      (hold (.sessionConfig (settings 99 0 0)) base) ∧
    AtBlock .sessionTable hA (.sessionConfig (settings 100 4 0)) 0
      (hold (.sessionConfig (settings 100 4 0)) (opened { control with inUse := 5 })) ∧
    AtBlock .sessionTable hA (.sessionConfig (settings 100 5 64)) 0
      (hold (.sessionConfig (settings 100 5 64)) (opened { control with inUse := 5 })) ∧
    AtBlock .sessionTable hA (.sessionConfig noSettings) 0 (hold (.sessionConfig noSettings) base) ∧
    ((opened { control with inUse := 5 }).session 0 = some { control with inUse := 5 } ∧
      (settingsOf (settings 100 4 0)).quota = some 4 ∧ (settingsOf (settings 100 5 64)).quota = some 5 ∧
      (settingsOf (settings 100 5 64)).lowMark = some 64 ∧ (settingsOf noSettings).lowMark = none ∧
      (settingsOf noSettings).quota = none) :=
  ⟨by decide +kernel, by decide +kernel, by decide +kernel, stands_atBlock (by decide +kernel),
    stands_atBlock (by decide +kernel), stands_atBlock (by decide +kernel), stands_atBlock (by decide +kernel),
    by decide +kernel⟩

/-- Session 1 with its teardown in progress. -/
def closing (c : EndingCause) : State := opened { control with ending := some (ending c), deadline := none }

theorem witness_teardowns :
    (State.reset.session 0 = none ∧ (closing .lease).session 0 =
      some { control with ending := some (ending .lease), deadline := none } ∧
      base.session 0 = some control ∧ control.ending = none ∧ control.deadline = some 5000000) ∧
    AtBlock .sessionTable hA .sessionClose 0 (hold .sessionClose base) ∧
    (headNotice (.retriesExhausted 0) (post (.retriesExhausted 0 1) base) = some (.retriesExhausted 0 1) ∧
      headNotice (.linkBroken .a) (post (.linkBroken .a) base) = some (.linkBroken .a)) ∧
    (headNotice (.teardownAnswer .setAssembler 0) (post (.teardownAnswer .setAssembler 0) (closing .lease)) =
        some (.teardownAnswer .setAssembler 0) ∧
      ((ending .lease).note .setAssembler).complete = false ∧
      (({ ending .lease with assembler := true, schedule := true } : Ending).note .applyEngine).complete = true ∧
      (closing .lease).sets = [] ∧
      ((closing .lease).withSets [set1 .applying .now]).sets = [set1 .applying .now]) ∧
    (headNotice (.recordClose 0) (post (.recordClose 0) (closing .close)) = some (.recordClose 0) ∧
      (post (.recordClose 0) (closing .close)).notices = [.recordClose 0] ∧
      headNotice (.recordClose 0) (post (.itemsReturn 0 1) (post (.recordClose 0) (closing .close))) =
        some (.recordClose 0) ∧
      .itemsReturn 0 1 ∈ (post (.itemsReturn 0 1) (post (.recordClose 0) (closing .close))).notices ∧
      (closing .close).session 0 = some { control with ending := some (ending .close), deadline := none } ∧
      (∀ c, (closing .close).owns 0 c = false) ∧ (closing .close).claims.waits = [] ∧
      (withChan 3 (chan (some 0)) (closing .close)).owns 0 3 = true ∧
      (ending .close).cause = .close ∧ (ending .lease).cause ≠ .close) :=
  ⟨by decide +kernel, stands_atBlock (by decide +kernel), by decide +kernel, by decide +kernel,
    by decide +kernel⟩

/-- A working record in a phase, with slot 0 touched. -/
def workIn (p : EnginePhase) (m : SlotMark) : Work :=
  { take := 1, phase := p, setId := 1, owner := 0, capture := false, sync := false, items := [⟨item0, 10⟩]
    slots := [⟨0, m, false⟩], cause := none, commitTime := none, abandon := false, ended := false }

theorem witness_blocks_drop :
    (headNotice (.sessionEnd .linkPort 0) (post (.sessionEnd .linkPort 0) (closing .lease)) =
        some (.sessionEnd .linkPort 0) ∧
      headNotice (.sessionEnd .setAssembler 0)
        (post (.sessionEnd .setAssembler 0) ((closing .lease).withOpenSet 0 (some (openOf [item0])))) =
        some (.sessionEnd .setAssembler 0) ∧
      ((closing .lease).withOpenSet 0 (some (openOf [item0]))).openSet 0 = some (openOf [item0]) ∧
      headNotice (.sessionEnd .schedule 0)
        (post (.sessionEnd .schedule 0) ((closing .lease).withSets [set1 .due .now])) =
        some (.sessionEnd .schedule 0) ∧
      (((closing .lease).withSets [set1 .due .now]).sets.map (·.id)).Nodup ∧
      headNotice (.sessionEnd .setAssembler 0) (post (.sessionEnd .setAssembler 0) (closing .lease)) =
        some (.sessionEnd .setAssembler 0) ∧
      (closing .lease).openSet 0 = none ∧
      (((closing .lease).withSets [set1 .due .now]).withReady [1]).schedule.ready.Nodup ∧
      headNotice (.sessionEnd .cycleUnit 0) (post (.sessionEnd .cycleUnit 0) (closing .lease)) =
        some (.sessionEnd .cycleUnit 0) ∧
      headNotice (.sessionEnd .applyEngine 0) (post (.sessionEnd .applyEngine 0) (closing .lease)) =
        some (.sessionEnd .applyEngine 0) ∧
      headNotice (.sessionEnd .claimUnit 0) (post (.sessionEnd .claimUnit 0) (closing .lease)) =
        some (.sessionEnd .claimUnit 0) ∧
      headNotice (.claimSessionEnd 0) (post (.claimSessionEnd 0) (closing .lease)) =
        some (.claimSessionEnd 0) ∧
      headNotice (.sessionEnd .reportUnit 0) (post (.sessionEnd .reportUnit 0) (closing .lease)) =
        some (.sessionEnd .reportUnit 0)) ∧
    ((base.withWork (some (workIn .staging .queued))).engine.work = some (workIn .staging .queued) ∧
      (workIn .staging .queued).owner = 0 ∧ (workIn .staging .queued).phase = .staging ∧
      (workIn .committing .accepted).phase = .committing ∧
      (workIn .withdrawing .accepted).phase = .withdrawing ∧
      (workIn .recording .accepted).phase = .recording ∧ base.engine.work = none) := by decide +kernel

/-! ### Witnesses: channels and claims -/

/-- The notice, handed over in `s`, is the oldest of its lane. -/
def heads (n : Notice) (s : State) : Bool := decide (headNotice (noticeLane n) (post n s) = some n)

/-- Channel 0 owned by session 1, channel 1 by session 2, channel 2 free. -/
def rig : State :=
  withChan 0 (chan (some 0)) (withChan 1 (chan (some 1)) (withChan 2 (chan none) base))

/-- An entry of the Claim Wait List for channels 1 to 2. -/
def waiter (n : SessionIx) : WaitEntry := ⟨n, 1, 2, .safe, 0, 7⟩

theorem witness_claims :
    AtBlock (.told .claimUnit) hA (.claim 0 32 0 0) 0 (hold (.claim 0 32 0 0) rig) ∧
    AtBlock (.told .claimUnit) hA (.claim 2 0 0 0) 0 (hold (.claim 2 0 0 0) rig) ∧
    AtBlock (.told .claimUnit) hA (.claim 0 0 0 60001) 0 (hold (.claim 0 0 0 60001) rig) ∧
    AtBlock (.told .claimUnit) hA (.claim 2 3 1 0) 0 (hold (.claim 2 3 1 0) rig) ∧
    AtBlock (.told .claimUnit) hA (.claim 2 2 1 0) 0 (hold (.claim 2 2 1 0) rig) ∧
    AtBlock (.told .claimUnit) hA (.claim 0 0 1 60000) 0 (hold (.claim 0 0 1 60000) rig) ∧
    AtBlock (.told .claimUnit) hA (.claim 0 1 1 0) 0 (hold (.claim 0 1 1 0) rig) ∧
    AtBlock (.told .claimUnit) hA (.claim 0 1 1 60000) 0 (hold (.claim 0 1 1 60000) rig) ∧
    (chanOf 0 = some 0 ∧ chanOf 2 = some 2 ∧ chanOf 3 = some 3 ∧ lossPolicyOf 1 = some .safe ∧
      rig.channel 3 = none ∧ rig.channel 2 = some (chan none) ∧ (chan none).owner = none ∧
      rig.channel 0 = some (chan (some 0)) ∧ (chan (some 0)).owner = some 0 ∧
      rig.channel 1 = some (chan (some 1)) ∧ (chan (some 1)).owner = some 1 ∧
      (∀ c : ChanIx, 0 ≤ c → c ≤ 1 → rig.channel c ≠ none)) ∧
    (8 ≤ (rig.withWaits (List.replicate 8 (waiter 1))).claims.waits.length ∧
      2 ≤ ((rig.withWaits [waiter 0, waiter 0]).claims.waits.filter fun e => e.session = 0).length ∧
      (rig.withWaits [waiter 0]).claims.waits.length < 8 ∧
      ((rig.withWaits [waiter 0]).claims.waits.filter fun e => e.session = 0).length < 2) ∧
    ((waiter 1).session = 1 ∧ (∀ c : ChanIx, (waiter 1).first ≤ c → c ≤ (waiter 1).last →
        (rig.channel c).all (fun x => x.owner = none || x.owner = some 1) = true ∧ rig.channel c ≠ none) ∧
      (chan (some 1)).owner ≠ none ∧ (chan (some 1)).owner ≠ some (waiter 0).session) :=
  ⟨stands_atBlock (by decide +kernel), stands_atBlock (by decide +kernel), stands_atBlock (by decide +kernel),
    stands_atBlock (by decide +kernel), stands_atBlock (by decide +kernel), stands_atBlock (by decide +kernel),
    stands_atBlock (by decide +kernel), stands_atBlock (by decide +kernel), by decide +kernel,
    by decide +kernel, by decide +kernel⟩

theorem witness_release :
    AtBlock (.told .claimUnit) hA (.release 0 32 0 0) 0 (hold (.release 0 32 0 0) rig) ∧
    AtBlock (.told .claimUnit) hA (.release 0 1 0 1) 0
      (hold (.release 0 1 0 1) (rig.withSets [set1 .applying .now])) ∧
    AtBlock (.told .claimUnit) hA (.release 0 1 0 0) 0
      (hold (.release 0 1 0 0) (rig.withSets [set1 .due .now])) ∧
    AtBlock (.told .claimUnit) hA (.release 0 1 1 1) 0
      (hold (.release 0 1 1 1) (rig.withSets [set1 .due .now])) ∧
    AtBlock (.told .claimUnit) hA (.release 1 31 0 0) 0 (hold (.release 1 31 0 0) rig) ∧
    ((set1 .due .now).writesAny [0] = true ∧ (set1 .due .now).owner = 0 ∧ rig.owns 0 0 = true ∧
      (allChannels.filter fun c => decide (0 ≤ c) && decide (c ≤ 1) && rig.owns 0 c) = [0] ∧
      (allChannels.filter fun c => decide (1 ≤ c) && decide (c ≤ 31) && rig.owns 0 c) = []) ∧
    (rig.withBus { rig.bus with live := Table.const true }).bus.live.get (slotOfChan 0) = true :=
  ⟨stands_atBlock (by decide +kernel), stands_atBlock (by decide +kernel), stands_atBlock (by decide +kernel),
    stands_atBlock (by decide +kernel), stands_atBlock (by decide +kernel), by decide +kernel,
    by decide +kernel⟩

theorem witness_channel_config :
    AtBlock (.told .claimUnit) hA (.channelConfig 32 0 0 0) 0 (hold (.channelConfig 32 0 0 0) rig) ∧
    AtBlock (.told .claimUnit) hA (.channelConfig 31 0 0 0) 0 (hold (.channelConfig 31 0 0 0) rig) ∧
    AtBlock (.told .claimUnit) hA (.channelConfig 1 0 0 0) 0 (hold (.channelConfig 1 0 0 0) rig) ∧
    AtBlock (.told .claimUnit) hA (.channelConfig 0 0 101 0) 0 (hold (.channelConfig 0 0 101 0) rig) ∧
    AtBlock (.told .claimUnit) hA (.channelConfig 0 1 100 1) 0 (hold (.channelConfig 0 1 100 1) rig) ∧
    AtBlock (.told .claimUnit) hA (.channelConfig 0 0 100 0) 0
      (hold (.channelConfig 0 0 100 0) (rig.withSets [set1 .due .now])) ∧
    AtBlock (.told .claimUnit) hA (.channelConfig 0 0 100 0) 0 (hold (.channelConfig 0 0 100 0) rig) ∧
    (rig.channel 31 = none ∧ rig.channel 1 = some (chan (some 1)) ∧ rig.channel 0 = some (chan (some 0)) ∧
      (set1 .due .now).writes 0 = true ∧ (chan (some 0)).commanded = 0 ∧
      (chan (some 0)).descLower ≤ signed 0 ∧ signed 100 ≤ (chan (some 0)).descUpper ∧
      (chan (some 0)).descUpper < signed 101) :=
  ⟨stands_atBlock (by decide +kernel), stands_atBlock (by decide +kernel), stands_atBlock (by decide +kernel),
    stands_atBlock (by decide +kernel), stands_atBlock (by decide +kernel), stands_atBlock (by decide +kernel),
    stands_atBlock (by decide +kernel), by decide +kernel⟩

/-- A descriptor with one channel. -/
def descr : Descriptor := ⟨0, 1, 2, 1, [⟨0, -100, 100, 0, 5, 10⟩], true⟩

theorem witness_slot_channels :
    (heads (.slotReady 0 descr none) rig = true ∧ heads (.slotReady 0 descr (some ⟨[7], 3⟩)) rig = true ∧
      descr.entries.length ≤ indexOfChan 1 ∧ descr.entries[indexOfChan 0]? = some ⟨0, -100, 100, 0, 5, 10⟩ ∧
      channelKindOf 0 = some .voltage ∧ slotOfChan 7 = 0 ∧ slotOfChan 8 ≠ 0) ∧
    (heads (.slotLeftReady 0) rig = true ∧ rig.channel 0 = some (chan (some 0)) ∧
      (chan (some 0)).owner = some 0 ∧
      (withChan 2 (chan none) base).channel 2 = some (chan none) ∧ (waiter 0).first ≤ 2 ∧ 2 ≤ (waiter 0).last ∧
      slotOfChan 2 = 0 ∧ slotOfChan 1 = 0 ∧ (rig.withWaits [waiter 0]).session (waiter 0).session = some control ∧
      (rig.channel 1).isSome = true) := by decide +kernel

/-- A ramp from 0 to 10 in flight from 100 to 200. -/
def ramp0 : Ramp := ⟨0, 10, 100, 200⟩

theorem witness_commit_records :
    heads (.commitRecords [⟨0, 10, 0, 1, 50⟩, ⟨0, 10, 5, 1, 50⟩] false) rig = true ∧
    heads (.commitRecords [] true) rig = true ∧
    (rig.channel 3 = none ∧ rig.channel 0 = some (chan (some 0)) ∧ rig.claims.haltEntry = none ∧
      (rig.withClaims { rig.claims with haltEntry := some 50 }).claims.haltEntry = some 50 ∧
      (rig.withClaims { rig.claims with haltEntry := some 49 }).claims.haltEntry = some 49) ∧
    ((chan none).ramp = none ∧ ({ chan none with ramp := some ramp0 } : Channel).ramp = some ramp0 ∧
      ramp0.endTime ≤ 200 ∧ 199 < ramp0.endTime) := by decide +kernel

/-- Channel 0 with the ramp in flight, at rig time `t`. -/
def ramping (t : Nat) : State :=
  (withChan 0 { chan (some 0) with ramp := some ramp0 } base).withClock ⟨t, t, 500⟩

theorem witness_claim_unit_events :
    ((ramping 200).channel 0 = some { chan (some 0) with ramp := some ramp0 } ∧
      ramp0.endTime ≤ (ramping 200).clock.rig ∧ ¬ ramp0.endTime ≤ (ramping 199).clock.rig) ∧
    ((rig.withWaits [waiter 0]).claims.waits[0]? = some (waiter 0) ∧
      (rig.withWaits [waiter 0]).session 0 = some control ∧
      (rig.withWaits [{ waiter 0 with deadline := 1 }]).claims.waits[0]? =
        some { waiter 0 with deadline := 1 }) ∧
    heads (.haltEntry .claimUnit (some 7)) rig = true ∧ heads (.haltEntry .claimUnit none) rig = true ∧
    (let p : InProgress := ⟨.safeAll, 1, 1, 0, [], none⟩
     let s := rig.withBus { rig.bus with current := some p }
     heads .safeAllValues s = true ∧ s.bus.current = some p ∧ p.txn = .safeAll) := by decide +kernel

/-! ### Witnesses: building sets -/

theorem witness_set_open :
    AtBlock (.told .setAssembler) hA (.setOpen 2 0 0 0 0 0 0 0) 0 (hold (.setOpen 2 0 0 0 0 0 0 0) rig) ∧
    AtBlock (.told .setAssembler) hA (.setOpen 2 0 0 0 0 65535 0 0) 0
      (hold (.setOpen 2 0 0 0 0 65535 0 0) rig) ∧
    AtBlock (.told .setAssembler) hA (.setOpen 0 0 0 0 0 0 0 0) 0
      (hold (.setOpen 0 0 0 0 0 0 0 0) (rig.withOpenSet 0 (some (openOf [])))) ∧
    AtBlock (.told .setAssembler) hA (.setOpen 2 1 1 1 0 65534 9 0) 0
      (hold (.setOpen 2 1 1 1 0 65534 9 0) rig) ∧
    AtBlock (.told .setAssembler) hA (.setOpen 5 0 0 0 0 0 0 9) 0 (hold (.setOpen 5 0 0 0 0 0 0 9) rig) ∧
    (rig.session 0 = some control ∧ rig.openSet 0 = none ∧
      (rig.withOpenSet 0 (some (openOf []))).openSet 0 = some (openOf [])) :=
  ⟨stands_atBlock (by decide +kernel), stands_atBlock (by decide +kernel), stands_atBlock (by decide +kernel),
    stands_atBlock (by decide +kernel), stands_atBlock (by decide +kernel), by decide +kernel⟩

/-- Session 1 has an open set of `n` items for channel 0 and owns channel 0; its quota is `quota`, `free`
pool entries are free, and the request stands at the Set Assembler. -/
def adding (sealFlag : Byte) (items : List RawItem) (n quota free : Nat) (spoiled : Option ChanIx) : State :=
  hold (.setAdd sealFlag items) ((withChan 0 (chan (some 0)) (opened { control with quota := quota })).withAssembler
    { openSets := Table.tab fun k =>
        if k = 0 then some { openOf (List.replicate n item0) with spoiled := spoiled } else none
      poolFree := free })

/-- An item channel 0 takes. -/
def raw0 : RawItem := ⟨0, 100, 5⟩

/-- The SET_ADD stands at the Set Assembler and its own seal does not wait. -/
def AddMeets (sealFlag : Byte) (items : List RawItem) (s : State) : Prop :=
  AtBlock (.told .setAssembler) hA (.setAdd sealFlag items) 0 s ∧
    ∀ m inc x, Notice.sealAsked m inc hA x ∉ s.notices

/-- `AddMeets`, as something to decide. -/
def addStands (sealFlag : Byte) (items : List RawItem) (s : State) : Bool :=
  decide ((s.link .a).inHand = some (hA, .setAdd sealFlag items)) && decide (boundSession hA s = some 0) &&
    !endedAt (.told .setAssembler) 0 s && encodingOk (.setAdd sealFlag items) && !sealWaits hA s

theorem addStands_atBlock {sealFlag : Byte} {items : List RawItem} {s : State}
    (h : addStands sealFlag items s = true) :
    AddMeets sealFlag items s := by
  simp only [addStands, Bool.and_eq_true, decide_eq_true_eq, Bool.not_eq_true'] at h
  obtain ⟨⟨⟨⟨h1, h2⟩, h3⟩, h4⟩, h5⟩ := h
  refine ⟨⟨h1, h2, h3, h4⟩, fun m inc x hx => ?_⟩
  rw [sealWaits, List.any_eq_false] at h5
  simpa using h5 _ hx

theorem witness_add_checks :
    (31 < (⟨32, 0, 0⟩ : RawItem).channel.toNat ∧ chanOf 1 = some 1 ∧ rig.channel 1 = some (chan (some 1)) ∧
      rig.channel 0 = some (chan (some 0)) ∧ signed 101 > (chan (some 0)).upper ∧
      signed 100 ≤ (chan (some 0)).upper ∧ signed (-100) ≥ (chan (some 0)).lower ∧
      ({ chan (some 0) with kind := .digital } : Channel).kind = .digital ∧ signed 1 = 1 ∧ signed 2 ≠ 1 ∧
      (0 : Byte) ∈ ([0] : List Byte) ∧ (0 : Byte) ∉ ([] : List Byte)) ∧
    AddMeets 0 (List.replicate 17 raw0) (adding 0 (List.replicate 17 raw0) 0 128 512 none) ∧
    AddMeets 0 (List.replicate 16 raw0) (adding 0 (List.replicate 16 raw0) 17 128 512 none) ∧
    AddMeets 0 [raw0] (adding 0 [raw0] 31 128 512 (some 0)) ∧
    AddMeets 0 [raw0, raw0] (adding 0 [raw0, raw0] 0 128 512 none) ∧
    AddMeets 0 [raw0] (adding 0 [raw0] 0 0 512 none) ∧
    AddMeets 0 [raw0] (adding 0 [raw0] 0 1 0 none) ∧
    ((adding 0 [raw0] 0 1 0 none).session 0 = some { control with quota := 1 } ∧
      (adding 0 [raw0] 31 128 512 (some 0)).openSet 0 =
        some { openOf (List.replicate 31 item0) with spoiled := some 0 } ∧
      itemFault 0 [] raw0 (adding 0 [raw0] 0 1 0 none) = none ∧
      itemFault 0 [0] raw0 (adding 0 [raw0, raw0] 0 128 512 none) = some .duplicateChannel) :=
  ⟨by decide +kernel, addStands_atBlock (by decide +kernel), addStands_atBlock (by decide +kernel),
    addStands_atBlock (by decide +kernel), addStands_atBlock (by decide +kernel),
    addStands_atBlock (by decide +kernel), addStands_atBlock (by decide +kernel), by decide +kernel⟩

theorem witness_add_takes :
    AddMeets 0 [raw0] (adding 0 [raw0] 0 1 1 none) ∧ AddMeets 1 [] (adding 1 [] 0 1 1 none) ∧
    AddMeets 1 [] (adding 1 [] 32 1 1 none) ∧
    AddMeets 0 [raw0] (post (.sealAsked 1 1 ⟨.b, 2, 7⟩ 1) (adding 0 [raw0] 0 1 1 none)) ∧
    ((adding 0 [raw0] 0 1 1 none).session 0 = some { control with quota := 1 } ∧
      (adding 0 [raw0] 0 1 1 none).openSet 0 = some (openOf []) ∧
      (adding 1 [] 32 1 1 none).openSet 0 = some (openOf (List.replicate 32 item0)) ∧
      itemFault 0 [] raw0 (adding 0 [raw0] 0 1 1 none) = none ∧
      ({ control with quota := 1 } : Session).inUse + 1 ≤ 1) :=
  ⟨addStands_atBlock (by decide +kernel), addStands_atBlock (by decide +kernel),
    addStands_atBlock (by decide +kernel), addStands_atBlock (by decide +kernel), by decide +kernel⟩

theorem witness_discard :
    AtBlock (.told .setAssembler) hA .setDiscard 0 (hold .setDiscard rig) ∧
    AtBlock (.told .setAssembler) hA .setDiscard 0 (hold .setDiscard stocked) ∧
    (rig.session 0 = some control ∧ rig.openSet 0 = none ∧ stocked.session 0 = some control ∧
      stocked.openSet 0 = some (openOf [item0])) ∧
    TablesBounded (hold .setDiscard stocked) :=
  ⟨stands_atBlock (by decide +kernel), stands_atBlock (by decide +kernel), by decide +kernel,
    tablesBounded_of (by decide +kernel)⟩

theorem witness_returns :
    (heads (.itemsReturn 0 1) stocked = true ∧ stocked.session 0 = some control) ∧
    (heads (.lostToAssembler [⟨0, 0⟩]) stocked = true ∧ stocked.openSet 0 = some (openOf [item0]) ∧
      item0.channel = 0 ∧ heads (.lostToAssembler [⟨1, 0⟩]) stocked = true ∧
      heads (.lostToAssembler [⟨0, 1⟩]) stocked = true ∧ stocked.openSet 1 = none) := by decide +kernel

/-! ### Witnesses: the Schedule -/

/-- An open set with a due kind, of session 1. -/
def dueOpen (d : Due) : OpenSet := { openOf [item0] with due := d }

/-- The seal of the open set `o` waits at the Schedule; session 1 owns channel 0 or not. -/
def sealing (o : OpenSet) (owner : Option SessionIx) (s : State) : State :=
  post (.sealAsked 0 1 hA 1)
    (hold (.setAdd 1 [raw0]) ((withChan 0 (chan owner) s).withOpenSet 0 (some o)))

def halted (s : State) : State := s.withTrigger { s.trigger with halted := some ⟨.line, 0⟩ }

/-- 64 sealed sets. -/
def many : List SealedSet := List.replicate 64 (set1 .due .now)

/-- 16 members. -/
def members16 : List Nat := List.range 16

theorem witness_seal :
    (let s := sealing (openOf [item0]) (some 0) State.reset
     headNotice (.sealAsked 0) s = some (.sealAsked 0 1 hA 1) ∧ s.session 0 = none ∧
      ({ control with incarnation := 2 } : Session).incarnation ≠ 1 ∧ control.incarnation = 1 ∧
      (s.withOpenSet 0 none).openSet 0 = none) ∧
    (let s := sealing (openOf [item0]) (some 0) base
     headNotice (.sealAsked 0) s = some (.sealAsked 0 control.incarnation hA 1) ∧
      s.session 0 = some control ∧ (s.link .a).inHand = some (hA, .setAdd 1 [raw0]) ∧
      s.openSet 0 = some (openOf [item0]) ∧ s.endedFor .schedule 0 = false ∧ s.owns 0 0 = true ∧
      s.haltedFor .schedule = false ∧ s.sets.length < 64) ∧
    (sealing (openOf [item0]) (some 0) (closing .lease)).endedFor .schedule 0 = true ∧
    (sealing (openOf [item0]) (some 1) base).owns 0 0 = false ∧
    (sealing (openOf [item0]) (some 0) (halted base)).haltedFor .schedule = true ∧
    64 ≤ (sealing (openOf [item0]) (some 0) (base.withSets many)).sets.length ∧
    63 = (sealing (openOf [item0]) (some 0) (base.withSets (many.take 63))).sets.length ∧
    ((dueOpen (.after 2 0)).due = .after 2 0 ∧ base.findSet 2 = none ∧
      (base.withSets [set1 .due .now]).findSet 1 = some (set1 .due .now) ∧ (set1 .due .now).owner = 0) ∧
    (base.cycle 0 = none ∧ (cycleOf .building members16).members.length = 16 ∧
      (cycleOf .building (members16.take 15)).members.length < 16 ∧ (cycleOf .building []).phase = .building ∧
      (cycleOf .building []).period ≤ 1000 ∧ 999 < (cycleOf .building []).period) ∧
    ((many.take 63).length < 64 ∧ base.schedule.nextId ≤ 65534) := by decide +kernel

/-- R31: the id goes past a live one and past 0, and the counter from 65534 to 0. -/
theorem test_set_ids_wrap :
    chooseId 66 [set1 .due .now] 65534 = 65534 ∧ nextSetId 65534 = 0 ∧ chooseId 66 [set1 .due .now] 0 = 2 := by
  decide +kernel

theorem witness_sealed_state :
    (ReadyListed lined ∧ ReadyOrdered lined ∧
      ∀ x ∈ (lined.withSchedule { lined.schedule with nextId := 4 }).sets,
        x.id ≠ chooseId 66 lined.sets 4) ∧
    (∀ x ∈ (base.withSets [set1 .due .now]).sets,
      x.id ≠ chooseId 66 (base.withSets [set1 .due .now]).sets
        (base.withSets [set1 .due .now]).schedule.nextId) ∧
    ((dueOpen .now).due = .now ∧ (dueOpen (.atTime 0)).due = .atTime 0 ∧ 0 ≤ base.clock.rig ∧
      base.clock.rig < 1 ∧ (dueOpen (.trigger .trig1)).due = .trigger .trig1 ∧
      (dueOpen (.offset 0)).due = .offset 0 ∧
      (base.withCycle 0 (some (cycleOf .building []))).cycle 0 = some (cycleOf .building [])) :=
  ⟨⟨lined_ready.1, lined_ready.2, by decide +kernel⟩, by decide +kernel, by decide +kernel⟩

/-- Two DUE sets in their order on the Ready List, and a third one to join it. -/
def queued : State :=
  ((base.withSets [set1 .due .now, { set1 .due .now with id := 2, sealNo := 2, dueTime := some 1 },
    { set1 .due .now with id := 3, sealNo := 3 }]).withReady [1, 2])

theorem witness_fall_due :
    ((base.withSets [timedSet]).findSet (1 : Half).toNat = some timedSet ∧ timedSet.state = .pending ∧
      timedSet.dueTime = some 0 ∧ 0 ≤ base.clock.rig ∧
      ({ timedSet with dueTime := some 1 } : SealedSet).dueTime = some 1 ∧ ¬ 1 ≤ base.clock.rig) ∧
    (heads (.edge .trig0 5 false) (base.withSets [set1 .pending (.trigger .trig0)]) = true ∧
      heads (.edge .trig0 5 true) (base.withSets [set1 .pending (.trigger .trig0)]) = true ∧
      (base.withSets [set1 .pending (.trigger .trig0)]).sets.filter
        (fun x => x.state = .pending && x.due = .trigger .trig0) = [set1 .pending (.trigger .trig0)] ∧
      base.sets.filter (fun x => x.state = .pending && x.due = .trigger .trig0) = []) ∧
    (ReadyListed lined ∧ ReadyOrdered lined ∧ (lined.findSet 3).any (fun x => x.state ≠ .due) = true ∧
      lined.sets[0]?.isSome = true ∧ lined.sets[2]?.isSome = true) ∧
    ((queued.sets.map (·.id)).Nodup ∧ 3 ∈ queued.sets.map (·.id) ∧ 3 ∉ queued.schedule.ready ∧
      (∀ a ∈ queued.schedule.ready, a ∈ queued.sets.map (·.id)) ∧
      queued.schedule.ready.Pairwise (fun a b => goesBefore queued.sets a b = true)) :=
  ⟨by decide +kernel, by decide +kernel, ⟨lined_ready.1, lined_ready.2, by decide +kernel⟩, by decide +kernel⟩

/-- A DUE set that would be discarded late, at the head of the Ready List, at rig time `t`. -/
def headLate (member : Bool) (t : Nat) : State :=
  ((base.withSets [{ set1 .due .now with late := .discard, member := member }]).withReady [1]).withClock
    ⟨t, t, 500⟩

theorem witness_take :
    (base.schedule.ready = [] ∧ (base.withWork (some (workIn .staging .queued))).engine.work ≠ none ∧
      (set1 .applying .now).state = .applying) ∧
    ((∀ m t, (headLate m t).schedule.ready = 1 :: []) ∧ (headLate false 501).engine.work = none ∧
      (∀ y ∈ (headLate false 501).sets, y.state ≠ .applying) ∧
      (headLate false 501).haltedFor .applyEngine = false ∧
      (headLate false 501).findSet 1 = some { set1 .due .now with late := .discard } ∧
      (headLate true 501).findSet 1 = some { set1 .due .now with late := .discard, member := true } ∧
      0 + 500 < (headLate false 501).clock.rig ∧ ¬ 0 + 500 < (headLate false 500).clock.rig) ∧
    ((closing .lease).isEnding 0 = true ∧ base.isEnding 0 = false ∧ slotOfChan item0.channel = 0 ∧
      base.bus.live.get 0 = false ∧
      (base.withBus { base.bus with live := Table.const true }).bus.live.get 0 = true) :=
  ⟨by decide +kernel, ⟨fun _ _ => rfl, by decide +kernel⟩, by decide +kernel⟩

/-- The APPLYING set 1, a member or not, and a cycle of session 1 in a phase. -/
def applyingIn (member : Bool) (p : CyclePhase) (s : State) : State :=
  (s.withSets [{ set1 .applying .now with member := member }]).withCycle 0 (some (cycleOf p [1]))

theorem witness_outcomes :
    (∀ m : Bool, (((applyingIn m .running base).sets.find? fun y => y.id = 1 && y.state = .applying) =
      some { set1 .applying .now with member := m })) ∧
    heads (.outcome 1 1 (.applied 9)) (applyingIn true .running base) = true ∧
    heads (.outcome 1 1 (.failed .slotLost)) (applyingIn true .running base) = true ∧
    heads (.outcome 1 1 (.failed .sessionEnd)) (applyingIn true .running base) = true ∧
    heads (.outcome 1 1 .removed) (applyingIn true .running base) = true ∧
    (reasonOfCause .slotLost = some .slotLost ∧ reasonOfCause .sessionEnd = none) ∧
    ((applyingIn true (.stopping .now) base).cycle 0 = some (cycleOf (.stopping .now) [1]) ∧
      (applyingIn true .running base).cycle 0 = some (cycleOf .running [1]) ∧
      1 ∈ (cycleOf .running [1]).members ∧ 1 ∉ (cycleOf .running [2]).members ∧
      base.haltedFor .schedule = false ∧ (halted base).haltedFor .schedule = true ∧
      (closing .lease).endedFor .schedule 0 = true ∧ base.endedFor .schedule 0 = false) := by decide +kernel

/-- R46, R49, R50 name no exception for a member whose cycle the Cycle Unit has ended already: it is parked. -/
theorem test_member_without_cycle_is_parked :
    (match exec .outcome (post (.outcome 1 1 (.applied 9))
        (base.withSets [{ set1 .applying .now with member := true }])) with
      | .next t => t.sets.map (·.state)
      | _ => []) = [.parked] ∧
    (match exec .take (headLate true 501) with
      | .next t => t.sets.map (·.state)
      | _ => []) = [.parked] := by decide +kernel

theorem witness_leave_and_count :
    (ReadyListed lined ∧ ReadyOrdered lined) ∧
    ((applyingIn true .running base).cycle 0 = some (cycleOf .running [1]) ∧ base.cycle 0 = none ∧
      (applyingIn true .running base).session 0 = some control ∧
      1 ∈ (cycleOf .running [1]).members ∧ State.reset.session 0 = none) ∧
    (queued.session (set1 .due .now).owner = some control ∧ (queued.sets.map (·.id)).Nodup ∧
      (set1 .pending (.after 1 5)).due = .after 1 5) ∧
    (let k : Session := { control with lowMark := 3 }
     let s := (opened k).withSets queued.sets
     let one := (opened k).withSets (queued.sets.take 2)
     s.session 0 = some k ∧ 0 < k.lowMark ∧
      k.lowMark ≤ (s.sets.filter fun x => x.owner = 0 && !x.member &&
        (x.state = .pending || x.state = .due)).length ∧
      (one.sets.filter fun x => x.owner = 0 && !x.member &&
        (x.state = .pending || x.state = .due)).length < k.lowMark ∧
      one.schedule.armed.get 0 = false ∧
      (one.withSchedule { one.schedule with armed := Table.const true }).schedule.armed.get 0 = true ∧
      control.lowMark = 0) :=
  ⟨lined_ready, by decide +kernel⟩

/-- Set 1, its dependant 2, set 2's dependant 3, and the PARKED member 4. -/
def chained : State :=
  (base.withSets [set1 .due .now, { set1 .pending (.after 1 5) with id := 2, sealNo := 2, dueTime := none },
    { set1 .pending (.after 2 5) with id := 3, sealNo := 3, dueTime := none },
    { set1 .parked (.offset 0) with id := 4, sealNo := 4, dueTime := none, member := true }]).withCycle 0
    (some (cycleOf .running [4]))

theorem witness_chains :
    ((chained.sets.map (·.id)).Nodup ∧ ([1] : List Nat).Nodup ∧ chained.findSet 1 = some (set1 .due .now) ∧
      (∀ y ∈ chained.sets, y.id = (set1 .due .now).id → y.dueTime ≠ none)) ∧
    (InChain chained [] (set1 .due .now)
        { set1 .pending (.after 2 5) with id := 3, sealNo := 3, dueTime := none }) ∧
    ((cycleOf .running [4]).members.Nodup ∧
      ∀ x ∈ chained.sets, x.id ∈ (cycleOf .running [4]).members → ∃ v, x.due = .offset v) := by
  refine ⟨by decide +kernel, .tail (b := { set1 .pending (.after 1 5) with id := 2, sealNo := 2, dueTime := none })
    (.single ⟨by decide +kernel, rfl, rfl, ⟨5, rfl⟩, List.not_mem_nil⟩)
    ⟨by decide +kernel, rfl, rfl, ⟨5, rfl⟩, List.not_mem_nil⟩, by decide +kernel, ?_⟩
  intro x hx hm
  refine ⟨0, ?_⟩
  revert x
  decide +kernel

theorem witness_cancel :
    AtBlock (.told .schedule) hA (.setCancel 0) 0 (hold (.setCancel 0) queued) ∧
    AtBlock (.told .schedule) hA (.setCancel 4) 0 (hold (.setCancel 4) queued) ∧
    AtBlock (.told .schedule) hA (.setCancel 1) 0 (hold (.setCancel 1) queued) ∧
    AtBlock (.told .schedule) hA (.setCancel 1) 0 (hold (.setCancel 1) (applyingIn false .running base)) ∧
    AtBlock (.told .schedule) hA (.setCancel 1) 0
      (hold (.setCancel 1) (base.withSets [{ set1 .parked (.offset 0) with member := true }])) ∧
    (queued.findSet 4 = none ∧ queued.findSet 1 = some (set1 .due .now) ∧
      (applyingIn false .running base).findSet 1 = some (set1 .applying .now) ∧
      ({ set1 .parked (.offset 0) with member := true } : SealedSet).state ≠ .applying) ∧
    (heads (.lostToSchedule [⟨0, 0⟩]) queued = true ∧ (queued.sets.map (·.id)).Nodup) ∧
    (∀ y ∈ queued.sets, y.owner = 0 → y.dueTime = none → (∃ p d, y.due = .after p d) →
      y.state = .pending ∧ y.member = false) ∧
    (heads (.haltEntry .schedule none) queued = true ∧
      queued.session 0 = some control ∧ (set1 .due .now) ∈ queued.sets) :=
  ⟨stands_atBlock (by decide +kernel), stands_atBlock (by decide +kernel), stands_atBlock (by decide +kernel),
    stands_atBlock (by decide +kernel), stands_atBlock (by decide +kernel), by decide +kernel,
    by decide +kernel, fun y hy _ hn => absurd hn (by revert y; decide +kernel), by decide +kernel⟩

/-- Session 1's cycle has the members 4, which is APPLYING, 5 and 6; channel 0 is lost under set 1, which is no member,
and member 5; set 2 depends on set 1. -/
def losing : State :=
  let member (id : Nat) (st : SetState) (items : List Item) : SealedSet :=
    { set1 st (.offset 0) with id := id, sealNo := id, member := true, items := items }
  (base.withSets [set1 .due .now, { set1 .pending (.after 1 5) with id := 2, sealNo := 2, dueTime := none, items := [] },
    member 4 .applying [item0], member 5 .parked [item0], member 6 .parked []]).withCycle 0
    (some (cycleOf .running [4, 5, 6]))

theorem witness_cancel_lost :
    let direct (x : SealedSet) : Bool :=
      x.state ≠ .applying && x.items.any fun i => ([⟨0, 0⟩] : List LostChannel).contains ⟨i.channel, x.owner⟩
    ((losing.sets.map (·.id)).Nodup ∧ losing.session 0 = some control ∧
      losing.cycle 0 = some (cycleOf .running [4, 5, 6]) ∧ (∀ n : SessionIx, n ≠ 0 → losing.cycle n = none) ∧
      (cycleOf .running [4, 5, 6]).members.Nodup ∧
      (∀ y ∈ losing.sets, y.id ∈ [4, 5, 6] → y.owner = 0 ∧ y.member = true ∧ y.due = .offset 0) ∧
      (losing.sets.filter direct).map (·.id) = [1, 5] ∧ direct (set1 .due .now) = true ∧
      1 ∉ (cycleOf .running [4, 5, 6]).members ∧
      (losing.sets.find? fun y => direct y && decide (y.id ∈ (cycleOf .running [4, 5, 6]).members)).map (·.id) =
        some 5) ∧
    InChain losing ((losing.sets.filter direct).map (·.id)) (set1 .due .now)
      { set1 .pending (.after 1 5) with id := 2, sealNo := 2, dueTime := none, items := [] } :=
  ⟨by decide +kernel, .single ⟨by decide +kernel, rfl, rfl, ⟨5, rfl⟩, by decide +kernel⟩⟩

/-! ### Witnesses: cycles -/

def cycling (p : CyclePhase) (members : List Nat) (s : State) : State :=
  s.withCycle 0 (some (cycleOf p members))

theorem witness_cycle_requests :
    AtBlock (.told .cycleUnit) hA (.cycleBegin 0 999 0) 0 (hold (.cycleBegin 0 999 0) base) ∧
    AtBlock (.told .cycleUnit) hA (.cycleBegin 0 1000 0) 0
      (hold (.cycleBegin 0 1000 0) (cycling .building [] base)) ∧
    AtBlock (.told .cycleUnit) hA (.cycleBegin 0 1000 0) 0 (hold (.cycleBegin 0 1000 0) (halted base)) ∧
    AtBlock (.told .cycleUnit) hA (.cycleBegin 0 1000 0) 0 (hold (.cycleBegin 0 1000 0) base) ∧
    AtBlock (.told .cycleUnit) hA .cycleEnd 0 (hold .cycleEnd (cycling .building [] base)) ∧
    AtBlock (.told .cycleUnit) hA .cycleEnd 0 (hold .cycleEnd (cycling .building [1] base)) ∧
    AtBlock (.told .cycleUnit) hA (.cycleStop 1) 0 (hold (.cycleStop 1) base) ∧
    AtBlock (.told .cycleUnit) hA (.cycleStop 0) 0
      (hold (.cycleStop 0) (cycling (.stopping .afterPass) [1] base)) ∧
    AtBlock (.told .cycleUnit) hA (.cycleStop 1) 0
      (hold (.cycleStop 1) (cycling (.stopping .now) [1] base)) ∧
    AtBlock (.told .cycleUnit) hA (.cycleStop 0) 0 (hold (.cycleStop 0) (cycling .running [1] base)) ∧
    AtBlock (.told .cycleUnit) hA (.cycleStop 0) 0 (hold (.cycleStop 0) (cycling .building [] base)) ∧
    AtBlock (.told .cycleUnit) hA (.cycleStop 1) 0
      (hold (.cycleStop 1) (applyingIn true .running base)) ∧
    ((halted base).haltedFor .cycleUnit = true ∧ base.haltedFor .cycleUnit = false ∧ base.cycle 0 = none ∧
      (cycling .running [1] base).cycle 0 = some (cycleOf .running [1]) ∧
      (cycling .running [1] base).sets = [] ∧ (cycling .running [1] base).session 0 = some control ∧
      { set1 .applying .now with member := true } ∈ (applyingIn true .running base).sets) :=
  ⟨stands_atBlock (by decide +kernel), stands_atBlock (by decide +kernel), stands_atBlock (by decide +kernel),
    stands_atBlock (by decide +kernel), stands_atBlock (by decide +kernel), stands_atBlock (by decide +kernel),
    stands_atBlock (by decide +kernel), stands_atBlock (by decide +kernel), stands_atBlock (by decide +kernel),
    stands_atBlock (by decide +kernel), stands_atBlock (by decide +kernel), stands_atBlock (by decide +kernel),
    by decide +kernel⟩

/-- Session 1's cycle in a phase, its one member PARKED. -/
def parkedIn (p : CyclePhase) : State :=
  cycling p [1] (base.withSets [{ set1 .parked (.offset 5) with member := true }])

theorem witness_passes :
    (ReadyListed (parkedIn .running) ∧ ReadyOrdered (parkedIn .running)) ∧
    (((parkedIn .running).sets.map (·.id)).Nodup ∧ (cycleOf .running [1]).members.Nodup ∧
      (parkedIn .running).session 0 = some control) ∧
    (heads (.memberParked 0 1) (parkedIn .running) = true ∧ heads (.memberParked 0 2) base = true ∧
      base.cycle 0 = none ∧ (parkedIn .running).cycle 0 = some (cycleOf .running [1]) ∧
      (parkedIn .running).findSet 1 = some { set1 .parked (.offset 5) with member := true } ∧
      (parkedIn (.stopping .afterPass)).cycle 0 = some (cycleOf (.stopping .afterPass) [1]) ∧
      (parkedIn (.stopping .now)).cycle 0 = some (cycleOf (.stopping .now) [1]) ∧
      (cycleOf .running [1]).repeats = 0 ∧ 100 + 1000 ≤ 2 ^ 48 - 1 ∧
      (let c : Cycle := { cycleOf .running [1] with repeats := 1 }
       c.repeats ≠ 0 ∧ ¬ c.begun < c.repeats)) ∧
    (heads (.haltEntry .cycleUnit (some 5)) (applyingIn true .running base) = true ∧
      (applyingIn true .running base).cycle 0 = some (cycleOf .running [1]) ∧
      (applyingIn true .running base).session 0 = some control) :=
  ⟨⟨readyListed_of (by decide +kernel), by unfold ReadyOrdered; decide +kernel⟩, by decide +kernel⟩

/-- R93: both members go before the chain of the first is broken. -/
theorem test_members_leave_before_chains_break :
    ((finishCycle 0 (cycleOf .running [1, 2]) .complete (base.withSets
      [set1 .parked (.offset 5), { set1 .parked (.offset 6) with id := 2, items := [] },
       { set1 .pending (.after 1 5) with id := 3, dueTime := none, items := [item0, item0] }])).notices.take 3) =
    [.itemsReturn 0 1, .itemsReturn 0 0, .itemsReturn 0 2] := by decide +kernel

/-! ### Witnesses: applying a set -/

/-- The engine at work in a phase. -/
def working (p : EnginePhase) (m : SlotMark) : State := base.withWork (some (workIn p m))

theorem witness_staging :
    (∀ p m, (working p m).engine.work = some (workIn p m)) ∧
    (heads (.stageEnd 0 1 .accepted) (working .staging .inProgress) = true ∧
      heads (.stageEnd 0 2 .accepted) (working .staging .inProgress) = true ∧
      heads (.stageEnd 0 1 .failed) (working .staging .inProgress) = true ∧
      heads (.stageEnd 0 1 .slotLost) (working .staging .inProgress) = true ∧
      (workIn .staging .queued).take = 1 ∧ (workIn .committing .accepted).phase ≠ .staging ∧
      ((workIn .staging .inProgress).slots.find? fun t => t.slot = 0) = some ⟨0, .inProgress, false⟩ ∧
      (({ workIn .staging .inProgress with slots := [⟨0, .inProgress, true⟩] } : Work).slots.find? fun t =>
        t.slot = 0) = some ⟨0, .inProgress, true⟩ ∧
      ({ workIn .staging .inProgress with slots := [⟨0, .inProgress, false⟩, ⟨1, .queued, false⟩] } :
        Work).slots = [⟨0, .inProgress, false⟩, ⟨1, .queued, false⟩]) ∧
    (heads (.engineSlotLost 0 1) (working .staging .inProgress) = true ∧
      heads (.engineSlotLost 0 2) (working .staging .inProgress) = true ∧
      heads (.engineSlotLost 0 1) (working .committing .accepted) = true ∧
      heads (.engineSlotLost 0 1) (working .recording .accepted) = true ∧
      ((workIn .staging .queued).slots.find? fun t => t.slot = 0) = some ⟨0, .queued, false⟩) ∧
    (heads (.haltEntry .applyEngine none) (working .staging .queued) = true ∧
      heads (.haltEntry .applyEngine none) (working .committing .accepted) = true ∧
      heads (.haltEntry .applyEngine none) (working .recording .accepted) = true) ∧
    (base.engine.work = none ∧ heads (.stageEnd 0 1 .accepted) base = true ∧
      heads (.stageEnd 0 1 .failed) base = true ∧ heads (.stageEnd 0 1 .slotLost) base = true ∧
      heads (.engineSlotLost 0 1) base = true ∧ heads (.haltEntry .applyEngine none) base = true) :=
  ⟨fun _ _ => rfl, by decide +kernel, by decide +kernel, by decide +kernel, by decide +kernel⟩

/-- 16 capture entries. -/
def captures (count : Nat) : List CaptureEntry :=
  List.replicate count ⟨0, 0, 0, 1, 0, 0, 0, false, [], []⟩

theorem witness_commit :
    (∀ p m, (working p m).engine.work = some (workIn p m)) ∧
    (heads (.commitAnswer (.strobe 5 false)) (working .committing .accepted) = true ∧
      heads (.commitAnswer (.strobe 5 true)) (working .withdrawing .accepted) = true ∧
      heads (.commitAnswer (.strobe 5 false)) (working .recording .accepted) = true ∧
      heads (.commitAnswer .slotLost) (working .committing .accepted) = true ∧
      heads (.commitAnswer .safeDrive) (working .committing .accepted) = true ∧
      heads (.commitAnswer .byRequest) (working .withdrawing .accepted) = true ∧
      (workIn .committing .accepted).cause = none ∧ (workIn .committing .accepted).ended = false ∧
      ({ workIn .withdrawing .accepted with cause := some .halted, ended := true } : Work).cause =
        some .halted) ∧
    (heads .recordsTaken (working .committing .accepted) = true ∧
      heads .recordsTaken (working .recording .accepted) = true ∧
      ({ workIn .recording .accepted with commitTime := some 5, capture := true } : Work).commitTime =
        some 5 ∧
      (captures 16).length = 16 ∧ (captures 15).length < 16 ∧ base.session 0 = some control) ∧
    (base.engine.work = none ∧ heads (.commitAnswer (.strobe 5 false)) base = true ∧
      heads (.commitAnswer .byRequest) base = true ∧ heads .recordsTaken base = true) :=
  ⟨fun _ _ => rfl, by decide +kernel, by decide +kernel, by decide +kernel⟩

/-- A capture entry of session 1 for channel 0, of a set taken second or of a READBACK request, with one READBACK
asked. -/
def entryOf (setId : Nat) (reading : Bool) (i : CaptureItem) : CaptureEntry :=
  ⟨1, 2, 0, setId, 7, 0, 5, reading, [i], [⟨0, none⟩]⟩

/-- `rig` with one capture entry, at rig time `t`. -/
def capturing (e : CaptureEntry) (t : Nat) : State :=
  (rig.withCaptures [e]).withClock ⟨t, t, 500⟩

theorem witness_captures :
    AtBlock (.told .applyEngine) hA (.readback 0 32) 0 (hold (.readback 0 32) rig) ∧
    AtBlock (.told .applyEngine) hA (.readback 1 0) 0 (hold (.readback 1 0) rig) ∧
    AtBlock (.told .applyEngine) hA (.readback 31 31) 0
      (hold (.readback 31 31) (rig.withCaptures (captures 16))) ∧
    AtBlock (.told .applyEngine) hA (.readback 0 31) 0
      (hold (.readback 0 31) (rig.withCaptures (captures 15))) ∧
    (((capturing (entryOf 1 false ⟨0, none, none, none⟩) 5).engine.captures.find? fun x => x.entry = 1) =
        some (entryOf 1 false ⟨0, none, none, none⟩) ∧
      (entryOf 1 false ⟨0, none, none, none⟩).captureTime ≤
        (capturing (entryOf 1 false ⟨0, none, none, none⟩) 5).clock.rig ∧
      (capturing (entryOf 1 false ⟨0, none, none, none⟩) 4).clock.rig <
        (entryOf 1 false ⟨0, none, none, none⟩).captureTime ∧
      (capturing (entryOf 1 false ⟨0, none, none, none⟩) 5).notices = [] ∧
      .outcome (entryOf 1 false ⟨0, none, none, none⟩).take 1 (.applied 5) ∈
        (post (.outcome 2 1 (.applied 5)) (capturing (entryOf 1 false ⟨0, none, none, none⟩) 5)).notices) ∧
    ((halted rig).isHalted = true ∧ rig.isHalted = false) ∧
    (heads (.readEnd 1 0 (.answered [3])) (capturing (entryOf 1 true ⟨0, none, none, none⟩) 5) = true ∧
      heads (.readEnd 1 0 .failed) (capturing (entryOf 1 true ⟨0, none, none, none⟩) 5) = true ∧
      heads (.readEnd 1 0 .removed) (capturing (entryOf 1 true ⟨0, none, none, none⟩) 5) = true ∧
      ((entryOf 1 true ⟨0, none, none, none⟩).items.filter fun i =>
        slotOfChan i.channel = 0 ∧ i.result = none).length = 1) :=
  ⟨stands_atBlock (by decide +kernel), stands_atBlock (by decide +kernel), stands_atBlock (by decide +kernel),
    stands_atBlock (by decide +kernel), by decide +kernel, by decide +kernel, by decide +kernel⟩

/-- R52, R80: the capture is made once the outcome has been taken. -/
theorem test_capture_waits_for_the_outcome :
    (let s := post (.outcome 2 1 (.applied 5)) (capturing (entryOf 1 false ⟨0, none, none, none⟩) 5)
     exec (.captureExpiry 1) s = .next s) ∧
    (let s := post (.outcome 3 1 (.applied 9)) (capturing (entryOf 1 false ⟨0, none, none, none⟩) 5)
     exec (.captureExpiry 1) s = .next (makeCapture (entryOf 1 false ⟨0, none, none, none⟩) s)) := ⟨rfl, rfl⟩

theorem witness_capture_items :
    (heads (.captureComplete 1) (capturing (entryOf 1 true ⟨0, none, some 3, none⟩) 5) = true ∧
      ((capturing (entryOf 1 true ⟨0, none, some 3, none⟩) 5).engine.captures.find? fun x => x.entry = 1) =
        some (entryOf 1 true ⟨0, none, some 3, none⟩) ∧
      (capturing (entryOf 1 true ⟨0, none, some 3, none⟩) 5).session 0 = some control) ∧
    (CaptureResult.absent ≠ .value ∧ rig.channel 3 = none ∧ rig.channel 0 = some (chan (some 0)) ∧
      (halted rig).isHalted = true ∧ rig.isHalted = false ∧ (chan (some 0)).appliedBy ≠ some 1 ∧
      ({ chan (some 0) with appliedBy := some 1 } : Channel).appliedBy = some 1 ∧
      |(5 : Int) - 0| ≤ (chan (some 0)).tolerance ∧ ((chan (some 0)).tolerance : Int) < |6 - 0|) := by
  decide +kernel

/-! ### Witnesses: trigger lines, SYNC_OUT and halt -/

/-- TRIG0's record as given, at rig time and instant `t`. -/
def trigged (x : TrigRec) (t : Nat) : State := (base.withTrig .trig0 x).withClock ⟨t, t, 500⟩

/-- TRIG0 LOW, enabled for both edges, with a debounce and a candidate. -/
def line0 (d : Debounce) (c : Option Nat) : TrigRec :=
  { TrigRec.reset .low with enabled := true, edge := .both, debounce := d, candidate := c
                            timer := c.map fun t => t + 5 }

theorem witness_trigger :
    (((trigged (line0 .off none) 0).trig .trig0).candidate = none ∧
      ((trigged (line0 .us5 none) 0).trig .trig0).debounce ≠ .off ∧
      ((trigged (line0 .us5 (some 0)) 0).trig .trig0).candidate ≠ none ∧
      ((trigged (line0 .us5 (some 0)) 0).trig .trig0).qualified = .low ∧
      ((trigged (line0 .us5 (some 0)) 5).trig .trig0).candidate = some 0 ∧
      ((trigged (line0 .us5 (some 0)) 5).trig .trig0).timer = some 5 ∧
      5 ≤ (trigged (line0 .us5 (some 0)) 5).clock.uptime ∧
      ¬ 5 ≤ (trigged (line0 .us5 (some 0)) 4).clock.uptime) ∧
    (∀ r ∈ ([.triggerConfig 2 0 0 0 0, .triggerConfig 0 2 0 0 0, .triggerConfig 0 0 3 0 0, .triggerConfig 0 0 0 5 0,
        .triggerConfig 0 0 0 0 2] : List Request),
      ((hold r base).link .a).inHand = some (hA, r) ∧ boundSession hA (hold r base) = some 0) ∧
    (trigLineOf 2 = none ∧ flagOf 2 = none ∧ edgeOf 3 = none ∧ debounceOf 5 = none) ∧
    AtBlock .notTold hA (.triggerConfig 0 1 2 4 1) 0
      (hold (.triggerConfig 0 1 2 4 1)
        (base.withSets [{ set1 .pending (.trigger .trig0) with owner := 1 }])) ∧
    AtBlock .notTold hA (.triggerConfig 0 1 2 4 1) 0 (hold (.triggerConfig 0 1 2 4 1) base) ∧
    AtBlock .notTold hA (.triggerConfig 0 0 0 0 0) 0
      (hold (.triggerConfig 0 0 0 0 0) (trigged (line0 .us5 (some 0)) 5)) ∧
    AtBlock .notTold hA (.triggerConfig 0 0 0 1 0) 0
      (hold (.triggerConfig 0 0 0 1 0) (trigged (line0 .us50 (some 0)) 6)) ∧
    AtBlock .notTold hA (.triggerConfig 0 0 0 1 0) 0
      (hold (.triggerConfig 0 0 0 1 0) (trigged (line0 .us50 (some 0)) 5)) ∧
    (trigLineOf 0 = some .trig0 ∧ edgeOf 2 = some .both ∧ debounceOf 4 = some .ms5 ∧ debounceOf 0 = some .off ∧
      debounceOf 1 = some .us5 ∧ debounceTime .us5 = 5) :=
  ⟨by decide +kernel, by decide +kernel, by decide +kernel, stands_atBlock (by decide +kernel), stands_atBlock (by decide +kernel),
    stands_atBlock (by decide +kernel), stands_atBlock (by decide +kernel), stands_atBlock (by decide +kernel),
    by decide +kernel⟩

/-- A pulse in progress that ends at 10, at rig time `t`. -/
def pulsing (t : Nat) : State :=
  (base.withTrigger { base.trigger with sync := { base.trigger.sync with pulse := some ⟨10, 10⟩ } }).withClock
    ⟨t, t, 500⟩

theorem witness_sync :
    (heads (.syncCommit 5) base = true ∧ heads (.syncCommit 5) (pulsing 5) = true ∧
      base.trigger.sync.pulse = none ∧ (pulsing 5).trigger.sync.pulse = some ⟨10, 10⟩ ∧
      10 ≤ (pulsing 10).clock.rig ∧ ¬ 10 ≤ (pulsing 9).clock.rig) ∧
    (∀ r ∈ ([.syncConfig 2 1, .syncConfig 0 0, .syncConfig 0 1001] : List Request),
      ((hold r base).link .a).inHand = some (hA, r) ∧ boundSession hA (hold r base) = some 0) ∧
    AtBlock .notTold hA (.syncConfig 1 1) 0 (hold (.syncConfig 1 1) base) ∧
    AtBlock .notTold hA (.syncConfig 1 1000) 0 (hold (.syncConfig 1 1000) (pulsing 5)) ∧
    (polarityOf 1 = some .activeLow ∧ polarityOf 2 = none) :=
  ⟨by decide +kernel, by decide +kernel, stands_atBlock (by decide +kernel), stands_atBlock (by decide +kernel),
    by decide +kernel⟩

/-- The HALT monitor as given, at instant `t`. -/
def monitored (m : Monitor) (t : Nat) (s : State) : State :=
  (s.withTrigger { s.trigger with monitor := m }).withClock ⟨t, t, 500⟩

theorem witness_halt :
    ((monitored (.qualifying 20) 20 base).trigger.monitor = .qualifying 20 ∧
      20 ≤ (monitored (.qualifying 20) 20 base).clock.uptime ∧
      (monitored (.qualifying 20) 19 base).clock.uptime < 20 ∧
      (monitored (.qualifying 20) 20 base).trigger.halted = none ∧
      (monitored (.qualifying 20) 20 (halted base)).trigger.halted ≠ none) ∧
    AtBlock .notTold hA .haltNow 0 (hold .haltNow base) ∧
    AtBlock .notTold hA .haltNow 0 (hold .haltNow (halted base)) ∧
    AtBlock .notTold hA .resume 0 (hold .resume base) ∧
    AtBlock .notTold hA .resume 0 (hold .resume (monitored .asserted 0 (halted base))) ∧
    AtBlock .notTold hA .resume 0 (hold .resume (halted base)) ∧
    (base.trigger.halted = none ∧ (halted base).trigger.halted = some ⟨.line, 0⟩ ∧
      (halted base).trigger.monitor = .released ∧
      (monitored .asserted 0 (halted base)).trigger.monitor ≠ .released) :=
  ⟨by decide +kernel, stands_atBlock (by decide +kernel), stands_atBlock (by decide +kernel),
    stands_atBlock (by decide +kernel), stands_atBlock (by decide +kernel), stands_atBlock (by decide +kernel),
    by decide +kernel⟩

/-! ### Witnesses: slots -/

/-- Slot 0 in a state with a reading, at instant `t`. -/
def slotIn (x : SlotState) (r : Reading) (t : Nat) : State :=
  (base.withSlot 0 { Slot.reset with
    state := x, reading := r, settleTimer := some 50000, powerTimer := some 20000, ident := 1
    descriptor := some descr }).withClock ⟨t, t, 500⟩

theorem witness_slots_change :
    ((slotIn .ready .seatedLow 0).slot 0).state.powered = true ∧
    ((slotIn .empty .vacant 0).slot 0).state.powered = false ∧
    ((slotIn .settling .seatedHigh 0).slot 0).powerGood = false ∧
    ((slotIn .settling .seatedHigh 0).slot 0).overcurrent = false ∧
    ({ Slot.reset with powerGood := true, overcurrent := true } : Slot).overcurrent = true := by
  decide +kernel

theorem witness_slot_lines :
    (readingOf ⟨false, false, false⟩ = .vacant ∧ ((slotIn .empty .vacant 0).slot 0).reading = .vacant ∧
      readingOf ⟨true, false, false⟩ ≠ .vacant ∧ ((slotIn .ready .seatedLow 0).slot 0).reading = .seatedLow) ∧
    (((slotIn .settling .seatedLow 50000).slot 0).state = .settling ∧
      ((slotIn .settling .seatedLow 50000).slot 0).settleTimer = some 50000 ∧
      50000 ≤ (slotIn .settling .seatedLow 50000).clock.uptime ∧
      ¬ 50000 ≤ (slotIn .settling .seatedLow 49999).clock.uptime) ∧
    (((slotIn .powering .seatedLow 20000).slot 0).state = .powering ∧
      ((slotIn .powering .seatedLow 20000).slot 0).powerTimer = some 20000 ∧
      20000 ≤ (slotIn .powering .seatedLow 20000).clock.uptime ∧
      ¬ 20000 ≤ (slotIn .powering .seatedLow 19999).clock.uptime) ∧
    heads (.busFailure 0) (slotIn .ready .seatedLow 0) = true := by decide +kernel

/-- Bytes 1 to 97 of a DESCRIBE reply (R145): rail 12 V, model 1, serial 2, `count` channels, each
with limits −1 to 1, safe value 0. -/
def described (count : Byte) : List Byte :=
  withCheck ([0, 0, 1, 0, 0, 0, 2, count] ++
    (List.replicate 8 ([0, 0xFF, 0xFF, 0, 1, 0, 0, 0, 1, 0, 1] : List Byte)).flatten)

theorem witness_slot_requests :
    (heads (.describeReply 0 1 []) (slotIn .identifying .seatedLow 0) = true ∧
      heads (.describeReply 0 2 []) (slotIn .identifying .seatedLow 0) = true ∧
      ((slotIn .identifying .seatedLow 0).slot 0).ident = 1 ∧
      ((slotIn .identifying .seatedLow 0).slot 0).held = false ∧
      (readDescriptor (described 9) (some .v12)).valid = false ∧
      (readDescriptor (described 8) (some .v12)).valid = true) ∧
    (heads (.heldReply 0 1 [3]) (slotIn .identifying .seatedLow 0) = true ∧
      ((slotIn .identifying .seatedLow 0).slot 0).descriptor = some descr ∧
      ({ Slot.reset with held := true } : Slot).held = true) ∧
    AtBlock .notTold hA (.slotReset 4) 0 (hold (.slotReset 4) base) ∧
    AtBlock .notTold hA (.slotReset 0) 0 (hold (.slotReset 0) (slotIn .ready .seatedLow 0)) ∧
    AtBlock .notTold hA (.slotReset 0) 0 (hold (.slotReset 0) (slotIn .fault .partialSeat 0)) ∧
    AtBlock .notTold hA (.slotEnable 0) 0 (hold (.slotEnable 0) (slotIn .ready .seatedLow 0)) ∧
    AtBlock .notTold hA (.slotEnable 0) 0 (hold (.slotEnable 0) (slotIn .disabled .vacant 0)) ∧
    AtBlock .notTold hA (.slotDisable 0) 0 (hold (.slotDisable 0) (slotIn .disabled .vacant 0)) ∧
    AtBlock .notTold hA (.slotDisable 0) 0
      (hold (.slotDisable 0) (withChan 7 (chan (some 1)) (slotIn .ready .seatedLow 0))) ∧
    AtBlock .notTold hA (.slotDisable 0) 0 (hold (.slotDisable 0) (slotIn .fault .seatedLow 0)) ∧
    AtBlock .notTold hA (.slotDisable 0) 0
      (hold (.slotDisable 0) (withChan 7 (chan (some 0)) (slotIn .ready .seatedLow 0))) ∧
    (slotOf 4 = none ∧ slotOf 0 = some 0 ∧ slotOfChan 7 = 0 ∧
      headNotice (.slotToClaim 0) (hold (.slotDisable 0) (withChan 7 (chan (some 0)) (slotIn .ready .seatedLow 0))) =
        none) :=
  ⟨by decide +kernel, by decide +kernel, stands_atBlock (by decide +kernel), stands_atBlock (by decide +kernel),
    stands_atBlock (by decide +kernel), stands_atBlock (by decide +kernel), stands_atBlock (by decide +kernel),
    stands_atBlock (by decide +kernel), stands_atBlock (by decide +kernel), stands_atBlock (by decide +kernel),
    stands_atBlock (by decide +kernel), by decide +kernel⟩

/-! ### Witnesses: the module bus -/

/-- Every slot live. -/
def live (s : State) : State := s.withBus { s.bus with live := Table.const true }

theorem witness_bus_requests :
    (heads (.busRequest .applyEngine (.stage 0 1 [])) (live base) = true ∧
      heads (.busRequest .applyEngine (.stage 0 1 [])) base = true ∧
      (let s := post (.busRequest .applyEngine (.stage 0 1 []))
         (post (.busRequest .claimUnit (.driveSafe 0 [(0, 1)])) (live base))
       headNotice (requesterLane .applyEngine) s = some (.busRequest .applyEngine (.stage 0 1 [])) ∧
        s.notices = [] ++ [.busRequest .claimUnit (.driveSafe 0 [(0, 1)])] ++
          [.busRequest .applyEngine (.stage 0 1 [])] ∧
        requesterLane .claimUnit ≠ requesterLane .applyEngine ∧ s.trigger.halted = none) ∧
      heads (.busRequest .applyEngine (.readback 3 (.capture 1) [0])) base = true ∧
      heads (.busRequest (.slotController 1) (.describe 1 1)) base = true ∧
      heads (.busRequest .claimUnit (.driveSafe 0 [(0, 1)])) (live base) = true ∧
      (live base).bus.live.get 0 = true ∧ base.bus.live.get 0 = false) ∧
    (let b : Bus := { Bus.reset with safeQ := [.safeAll, .driveSafe 0 [(0, 1), (1, 2)], .driveSafe 1 []] }
     b.safeQ = [.safeAll] ++ [.driveSafe 0 [(0, 1), (1, 2)]] ++ [.driveSafe 1 []] ∧
      ([(1, 3), (2, 4)] : List (Nat × Int)).map (·.1) = [1, 2]) ∧
    (heads (.withdraw (.stages 1)) base = true ∧ heads (.withdraw (.readbacks [1])) base = true ∧
      heads (.withdraw (.commit 1)) (base.withBus { base.bus with commit := some ⟨1, [0], false⟩ }) = true ∧
      base.bus.commit = none) ∧
    (heads (.slotPowered 0) base = true ∧ heads (.slotLeftPowered 0) base = true ∧
      heads (.slotLeftPowered 0) (live base) = true ∧ heads (.haltEntry .busController (some 0)) base = true) ∧
    heads (.commitRequest ⟨1, [0, 3], true⟩) (live base) = true ∧
    heads (.commitRequest ⟨1, [0, 3], true⟩) base = true := by decide +kernel

theorem witness_bus_grants :
    (base.bus.current = none ∧ base.bus.commit = none ∧ base.bus.safeQ = [] ∧ base.bus.applyQ = [] ∧
      base.bus.identifyQ = [] ∧ base.bus.readbackQ = []) ∧
    (base.withBus { base.bus with commit := some ⟨1, [0], true⟩ }).bus.commit = some ⟨1, [0], true⟩ ∧
    (base.withBus { base.bus with safeQ := [.safeAll], applyQ := [.abandon] }).bus.safeQ = .safeAll :: [] ∧
    (let s := (working .staging .queued).withBus { base.bus with applyQ := [.stage 0 1 []] }
     s.bus.safeQ = [] ∧ s.bus.applyQ = .stage 0 1 [] :: [] ∧
      s.engine.work = some (workIn .staging .queued) ∧ (workIn .staging .queued).take = 1) ∧
    (base.withBus { base.bus with identifyQ := [.describe 0 1] }).bus.identifyQ = .describe 0 1 :: [] ∧
    (base.withBus { base.bus with readbackQ := [.readback 0 (.capture 1) [0]] }).bus.readbackQ =
      .readback 0 (.capture 1) [0] :: [] := by decide +kernel

/-- A transaction in progress since instant 0, at instant `t`. -/
def onBus (x : Txn) (attempt t : Nat) (values : Option (List (Option Int))) : State :=
  (live base).withBus { (live base).bus with
    attempts := 4, current := some ⟨x, attempt, 4, 0, [], values⟩ } |>.withClock ⟨t, t, 500⟩

theorem witness_bus_ends :
    (∀ x a t v, (onBus x a t v).bus.current = some ⟨x, a, 4, 0, [], v⟩) ∧
    ((Txn.stage 0 1 []).slot = some 0 ∧ (Txn.describe 3 1).slot = some 3 ∧
      0 + 200 ≤ (onBus (.stage 0 1 []) 1 200 none).clock.uptime ∧
      (onBus (.stage 0 1 []) 1 199 none).clock.uptime < 0 + 200) ∧
    (let stage := withCheck [BitVec.ofNat 8 (txnCode (.stage 0 1 []))]
     let read := withCheck [BitVec.ofNat 8 (txnCode (.readback 0 (.capture 1) [5])), 1, 0, 9]
     (stage.map (·.toNat)).sum % 256 = 0 ∧ stage.length = 2 ∧ (read.map (·.toNat)).sum % 256 = 0 ∧
      read.length = 3 + 2 * 1) ∧
    (onBus .safeAll 1 0 (some [])).bus.current = some ⟨.safeAll, 1, 4, 0, [], some []⟩ :=
  ⟨fun _ _ _ _ => rfl, by decide +kernel, by decide +kernel, rfl⟩

theorem witness_modules :
    (let m : Module := { Module.off with powered := true, staged := [⟨0, 5, 0⟩, ⟨7, 6, 1⟩] }
     (∀ i ∈ m.staged, i.index ≠ 3) ∧ (⟨7, 6, 1⟩ : StageItem) ∈ m.staged ∧
      (∀ x ∈ m.staged, x.index = 7 → x = ⟨7, 6, 1⟩)) ∧
    ((7, 6) ∈ ([(0, 5), (7, 6)] : List (Nat × Int)) ∧
      (∀ w ∈ ([(0, 5), (7, 6)] : List (Nat × Int)), w.1 = 7 → w.2 = 6)) ∧
    (([some 4, none] : List (Option Int))[0 * 8 + 0]? = some (some 4) ∧
      ([some 4, none] : List (Option Int))[0 * 8 + 1]? ≠ some (some 4)) := by decide +kernel

/-! ### Witnesses: reports and resets -/

/-- An outstanding report. -/
def sent (seq : Nat) (t : RetryTimer) (n : Nat) : Outstanding := ⟨seq, seq, .queueLow 0 1, n, t⟩

/-- Session 1's lists as given, at instant `t`. -/
def listed (x : ReportLists) (t : Nat) : State := (base.withLists 0 x).withClock ⟨t, t, 500⟩

theorem witness_reports :
    (heads (.report .schedule (some (0, 1)) (.queueLow 0 1)) base = true ∧
      heads (.report .schedule (some (0, 2)) (.queueLow 0 1)) base = true ∧
      heads (.report .slotController none (.queueLow 0 1)) base = true ∧ base.session 0 = some control ∧
      control.incarnation = 1) ∧
    ((base.lists 0).torn = false ∧ (base.lists 0).held.length < 32 ∧
      ({ ReportLists.reset with held := List.replicate 32 (.queueLow 0 1) } : ReportLists).held.length = 32 ∧
      ({ ReportLists.reset with torn := true } : ReportLists).torn = true ∧
      (base.lists 0).outstanding.length ≤ 8) ∧
    (heads (.frameEnd .a 0 1) (listed { ReportLists.reset with outstanding := [sent 1 .sending 0] } 0) = true) ∧
    (let s := listed { ReportLists.reset with outstanding := [sent 1 (.running 9) 3, sent 2 (.running 9) 2] } 9
     ((s.lists 0).outstanding.find? fun o => o.seq = (1 : Half).toNat) = some (sent 1 (.running 9) 3) ∧
      ((s.lists 0).outstanding.find? fun o => o.seq = (2 : Half).toNat) = some (sent 2 (.running 9) 2) ∧
      9 ≤ s.clock.uptime ∧ 3 ≤ (sent 1 (.running 9) 3).retransmissions ∧
      (sent 2 (.running 9) 2).retransmissions < 3 ∧
      heads (.ack .a 0 1 2) s = true ∧ heads (.ack .a 0 1 3) s = true ∧ heads (.ack .a 0 2 2) s = true ∧
      (s.lists 0).outstanding = [sent 1 (.running 9) 3] ++ [sent 2 (.running 9) 2] ++ [] ∧
      s.session 0 = some control) := by decide +kernel

theorem witness_resets :
    AtBlock .sessionTable hA (.deviceReset 1) 0 (hold (.deviceReset 1) base) ∧
    AtBlock .sessionTable hA (.deviceReset 0) 0
      (hold (.deviceReset 0) (base.withSessions { base.sessions with resetPending := some .drop })) ∧
    (((hold (.deviceReset 2) base).link .a).inHand = some (hA, .deviceReset 2) ∧ resetKindOf 2 = none ∧
      boundSession hA (hold (.deviceReset 2) base) = some 0 ∧ (hold (.deviceReset 2) base).isEnding 0 = false) ∧
    (resetKindOf 1 = some .drop ∧ resetKindOf 0 = some .hold ∧ base.sessions.resetPending = none ∧
      base.sessions.resetDue = false) ∧
    (let s := base.withSessions { base.sessions with resetPending := some .drop, resetDue := true }
     s.sessions.resetDue = true ∧ s.sessions.resetPending = some .drop) :=
  ⟨stands_atBlock (by decide +kernel), stands_atBlock (by decide +kernel), by decide +kernel,
    by decide +kernel, by decide +kernel⟩

/-! ### The spec's own examples, one event at a time -/

/-- The state after a command. -/
def after (i : Instr) (s : State) : State :=
  match exec i s with
  | .next t => t
  | .fault _ => s
  | .refused _ => s

/-- 00_scope.md, Numbering: channel 19 is index 3 of slot 2. -/
theorem test_channel_19 : slotOfChan 19 = 2 ∧ indexOfChan 19 = 3 := by decide

/-- R183's CRC on the characters 1 to 9 (the published check value of this CRC, not the spec's). -/
theorem test_crc : crc16 [0x31, 0x32, 0x33, 0x34, 0x35, 0x36, 0x37, 0x38, 0x39] = 0x29B1 := by decide +kernel

/-- 12_message_formats.md, one SET_ADD on the line: the 19 bytes before the CRC, and 21 in all. -/
theorem test_set_add_on_the_line :
    let f := requestFrame 2 77 (.setAdd 1 [⟨16, 1200, 50⟩, ⟨17, -300, 0⟩])
    f.take 19 = [0xD5, 17, 1, 0x21, 2, 0, 77, 2, 1, 16, 0x04, 0xB0, 0, 50, 17, 0xFE, 0xD4, 0, 0] ∧
      f.length = 21 := by decide +kernel

/-- The Channel Table and Claim Wait List of 01_channels_and_claims.md after 1 500 000. -/
def contending : State :=
  let s := base.withSession 1 (some { control with incarnation := 2 })
  (s.withChannels (Table.tab fun c =>
    if c.val < 6 then some (chan (some 0))
    else if c.val < 10 then some (chan none)
    else if c.val < 12 then some (chan (some 1)) else none)).withWaits
    [⟨1, 4, 9, .safe, 4100000, 21⟩, ⟨0, 8, 11, .hold, 1800000, 6⟩, ⟨1, 0, 1, .hold, 2400000, 23⟩]

/-- 01_channels_and_claims.md, worked example: RELEASE 0–3 grants the newest entry, 0–1 to session 2. -/
theorem test_release_grants_the_newest :
    let t := after (.release hA 0 3 0 0) (hold (.release 0 3 0 0) contending)
    (allChannels.take 12).map (fun c => (t.channel c).bind (·.owner)) =
        [some 1, some 1, none, none, some 0, some 0, none, none, none, none, some 1, some 1] ∧
      t.claims.waits = [⟨1, 4, 9, .safe, 4100000, 21⟩, ⟨0, 8, 11, .hold, 1800000, 6⟩] ∧
      .report .claimUnit (some (1, 2)) (.claimResult ⟨.granted, 0, 1, 23, none⟩) ∈ t.notices := by
  decide +kernel

/-- 01_channels_and_claims.md, worked example: session 2 already has 2 entries. -/
theorem test_claim_wait_list_full :
    let s := contending.withSession 0 (some control) |>.withSession 1 (some { control with incarnation := 2 })
    let h : Header := ⟨.a, 2, 24⟩
    let t := after (.claim h 2 3 0 1000) (s.withLink .a { s.link .a with inHand := some (h, .claim 2 3 0 1000) })
    t.claims = s.claims ∧ ((t.link .a).cache.get 1).map (·.reply.reason) = some (some .waitListFull) := by
  decide +kernel

/-- 02_building_sets.md, step 1: quota 20 and 480 free entries leave 20 items. -/
theorem test_set_open_answers_20 :
    let s := (opened { control with quota := 20 }).withAssembler ⟨Table.const none, 480⟩
    let r : Request := .setOpen 1 1 1 0 9000000 0 0 0
    let t := after (.setOpen hA 1 1 1 0 9000000 0 0 0) (hold r s)
    ((t.link .a).cache.get 0).map (·.reply.body) = some [20] ∧
      (t.openSet 0).map (·.due) = some (.atTime 9000000) := by decide +kernel

/-- 02_building_sets.md, step 3: the item at position 4 names channel 3, which is there already. -/
theorem test_set_add_duplicate_at_4 :
    let item (c : Byte) : RawItem := ⟨c, 0, 0⟩
    let r : Request := .setAdd 0 [item 12, item 13, item 14, item 15, item 3, item 7]
    let s := ((opened { control with quota := 20, inUse := 12 }).withChannels
      (Table.tab fun c => if c.val < 16 then some (chan (some 0)) else none)).withAssembler
      ⟨Table.tab fun n => if n = 0 then some (openOf ((allChannels.take 12).map fun c => ⟨c, 0, 0⟩)) else none,
        468⟩
    let t := after (commandOf hA r) (hold r s)
    t.assembler = s.assembler ∧ ((t.link .a).cache.get 0).map (fun e => (e.reply.reason, e.reply.body)) =
      some (some .duplicateChannel, [1, 4, 1, 3, 0, 12, 0, 12, 0x01, 0xD4]) := by decide +kernel

/-- R30, R31: a set takes the counter's id, and the counter moves on past it. -/
theorem test_set_id : chooseId 66 [] 7 = 7 ∧ nextSetId 7 = 8 ∧
    chooseId 66 [{ set1 .due .now with id := 7 }] 7 = 8 := by decide +kernel

/-- 04_applying_a_set.md: channel 2 at 1 249 800 is 249.8, taken as 249. -/
theorem test_interpolation :
    ({ chan none with commanded := 400, ramp := some ⟨0, 400, 1000000, 1400000⟩ } : Channel).interpolated
      1249800 = 249 := by decide +kernel

/-- 04_applying_a_set.md: set 70's capture time is 1 450 300. -/
theorem test_capture_time :
    let w : Work :=
      { take := 1, phase := .recording, setId := 70, owner := 0, capture := true, sync := true
        items := [⟨⟨9, 2000, 0⟩, 300⟩, ⟨⟨2, 1000, 200⟩, 500⟩, ⟨⟨3, -500, 0⟩, 1000⟩]
        slots := [], cause := none, commitTime := some 1249800, abandon := false, ended := false }
    (after .commitRecordsTaken (post .recordsTaken (base.withWork (some w)))).engine.captures.map
      (·.captureTime) = [1450300] := by decide +kernel

/-- 06_trigger_lines_sync_output_and_halt.md: the edge at 3 000 030 qualifies at 3 000 080, count 8. -/
theorem test_edge_qualifies :
    let x : TrigRec :=
      { enabled := true, edge := .rising, debounce := .us50, qualified := .low, candidate := some 3000030
        timer := some 3000080, count := 7, lastStamp := none }
    let t := after (.qualificationTimerExpiry .trig1) ((base.withTrig .trig1 x).withClock ⟨3000080, 3000080, 500⟩)
    (t.trig .trig1).qualified = .high ∧ (t.trig .trig1).count = 8 ∧
      (t.trig .trig1).lastStamp = some 3000030 ∧ t.notices = [.edge .trig1 3000030 false] := by decide +kernel

/-- 07_slots_and_module_identification.md: a bounce of SNS_B at 10 006 500 restarts the settle timer. -/
theorem test_settle_restarts :
    let s := (base.withSlot 2 { Slot.reset with
      state := .settling, reading := .partialSeat, settleTimer := some 10056000 }).withClock
        ⟨10006500, 10006500, 500⟩
    let t := after (.readingChange 2 ⟨true, true, false⟩) s
    (t.slot 2).reading = .seatedLow ∧ (t.slot 2).settleTimer = some 10056500 := by decide +kernel

/-- 11_reports.md: ACK 105 removes 101 to 105; five reports and then the OVERRUN follow. -/
theorem test_ack_105 :
    let s := base.withLists 0
      { nextSeq := 109, held := List.replicate 32 (.queueLow 0 1), dropped := 3, torn := false
        outstanding := (List.range 8).map fun i => sent (101 + i) (.running 0) 0 }
    let t := after (.ack .a) (post (.ack .a 0 1 105) s)
    (t.lists 0).outstanding.map (·.seq) = [106, 107, 108, 109, 110, 111, 112, 113] ∧
      (t.lists 0).held.length = 28 ∧ (t.lists 0).held.getLast? = some (.overrun 3 0) ∧
      (t.lists 0).dropped = 0 := by decide +kernel

/-- 08_the_module_bus.md: at 8 000 150 slot 0 accepts and the DRIVE_SAFE of slot 3 goes before the SAFE_ALL. -/
theorem test_safe_class_first :
    let s := base.withBus { (live base).bus with
      attempts := 1, current := some ⟨.stage 0 140 [], 1, 1, 0, [], none⟩
      safeQ := [.driveSafe 3 [(0, 1)], .safeAll], identifyQ := [.describe 2 1] }
    let t := after (.moduleReply 1 (withCheck [0x02])) s
    t.bus.current.map (·.txn) = some (.driveSafe 3 [(0, 1)]) ∧ t.notices = [.stageEnd 0 140 .accepted] := by
  decide +kernel

end Sys2Proof.Tests
end

section
/-! PROOFS. SET_DISCARD (R35): its body on the line, what removing an open set does to the Set Assembler and to its
session's record (R36), and the obligation. -/

namespace Sys2Proof.Machine

/-- A request without fields is taken with an empty body alone. -/
theorem ofLength_zero (body : List Byte) (r : Request) :
    ofLength body 0 r = if body = [] then .request r else .badLength := by
  simp only [ofLength, List.length_eq_zero_iff]

/-! ### The items in use and the pool -/

/-- The items in use of an OPEN session are counted anew in its record. -/
theorem changeInUse_of_session {n : SessionIx} {k : Session} {s : State} (hk : s.session n = some k)
    (f : Nat → Nat) : changeInUse n f s = s.withSession n (some { k with inUse := f k.inUse }) := by
  simp [changeInUse, hk]

@[simp] theorem changeInUse_assembler (n : SessionIx) (f : Nat → Nat) (s : State) :
    (changeInUse n f s).assembler = s.assembler := by
  unfold changeInUse
  split <;> rfl

@[simp] theorem changePool_session (f : Nat → Nat) (s : State) (n : SessionIx) :
    (changePool f s).session n = s.session n := rfl

@[simp] theorem changePool_openSet (f : Nat → Nat) (s : State) (n : SessionIx) :
    (changePool f s).openSet n = s.openSet n := rfl

@[simp] theorem changePool_poolFree (f : Nat → Nat) (s : State) :
    (changePool f s).assembler.poolFree = f s.assembler.poolFree := rfl

@[simp] theorem withOpenSet_session (n m : SessionIx) (o : Option OpenSet) (s : State) :
    (s.withOpenSet n o).session m = s.session m := rfl

@[simp] theorem withOpenSet_poolFree (n : SessionIx) (o : Option OpenSet) (s : State) :
    (s.withOpenSet n o).assembler.poolFree = s.assembler.poolFree := rfl

/-- The open sets rest on the Set Assembler alone. -/
theorem openSet_of_assembler_eq {s t : State} (h : t.assembler = s.assembler) (n : SessionIx) :
    t.openSet n = s.openSet n := congrArg (fun a : Assembler => a.openSets.get n) h

/-! ### Removing an open set -/

section
variable (n : SessionIx) (o : OpenSet) (s : State)

/-- R35: the session's open set is gone, and no other session's is touched. -/
theorem discardOpenSet_openSet (m : SessionIx) :
    (discardOpenSet n o s).openSet m = if n = m then none else s.openSet m := by
  rw [discardOpenSet, openSet_of_assembler_eq (changeInUse_assembler _ _ _)]
  simp

/-- R36: the items are free in the pool again. -/
theorem discardOpenSet_poolFree :
    (discardOpenSet n o s).assembler.poolFree = s.assembler.poolFree + o.items.length := by
  simp [discardOpenSet]

/-- R36: the items leave their session's items in use, and no other session's record is touched. -/
theorem discardOpenSet_session {k : Session} (hk : s.session n = some k) (m : SessionIx) :
    (discardOpenSet n o s).session m =
      if n = m then some { k with inUse := k.inUse - o.items.length } else s.session m := by
  rw [discardOpenSet, changeInUse_of_session (k := k) (by simpa using hk)]
  simp

/-- R35: no report is made and no sealed set is touched, for neither the notices nor the Schedule change. -/
theorem discardOpenSet_frame : OnlyChanges [.assembler, .sessions] s (discardOpenSet n o s) :=
  (only_discardOpenSet (by simp) (by simp) n o).2 fun p _ => by cases p <;> rfl

end

/-! ### The request -/

section
variable {h : Header} {n : SessionIx} {s : State}

/-- SET_DISCARD at the Set Assembler is run by R35 alone, whatever the halt state. -/
theorem exec_setDiscard (a : AtBlock (.told .setAssembler) h .setDiscard n s) :
    exec (.setDiscard h) s = .next (setDiscardBody h n s) := serve_atBlock a (setDiscardBody h)

theorem setDiscardBody_none (ho : s.openSet n = none) :
    setDiscardBody h n s = refuse h .setDiscard .noOpenSet s := by simp [setDiscardBody, ho]

theorem setDiscardBody_some {o : OpenSet} (ho : s.openSet n = some o) : setDiscardBody h n s =
    answer h .setDiscard (doneWith (u8 o.items.length)) (discardOpenSet n o s) := by simp [setDiscardBody, ho]

end

/-- R24, R35: an open set holds at most 32 items. -/
theorem TablesBounded.openSet_items {s : State} (hb : TablesBounded s) {n : SessionIx} {o : OpenSet}
    (ho : s.openSet n = some o) : o.items.length ≤ 32 := by
  obtain ⟨-, -, -, -, hopen, -⟩ := hb
  exact hopen n o ho

/-- Settles O34: the request is run by R35's body, whose open set is gone by the lemmas about `discardOpenSet`. -/
theorem setDiscardReturnsTheItems : Obligations.SetDiscardReturnsTheItems := by
  refine ⟨fun body => ofLength_zero body .setDiscard, fun h n k s hat hk => ?_⟩
  rw [exec_setDiscard hat]
  refine ⟨fun ho => by rw [setDiscardBody_none ho], fun o ho => ?_⟩
  refine ⟨discardOpenSet n o s, by rw [setDiscardBody_some ho], discardOpenSet_frame n o s, ?_, ?_,
    discardOpenSet_poolFree n o s, ?_, ?_, fun hb => hb.openSet_items ho⟩
  · rw [discardOpenSet_openSet, if_pos rfl]
  · exact fun m hm => by rw [discardOpenSet_openSet, if_neg hm.symm]
  · rw [discardOpenSet_session n o s hk, if_pos rfl]
  · exact fun m hm => by rw [discardOpenSet_session n o s hk, if_neg hm.symm]

end Sys2Proof.Machine
end

section
/-! PROOFS. TIME_GET (R60): steps 4 to 7 of R169 for a request that is not answered from the cache, the frame of an
answer, the request's body at the Time Base, and the obligation. -/

namespace Sys2Proof.Machine

/-- A block's reply stays on the link its request came on. -/
theorem answer_frame (h : Header) (r : Request) (a : Answer) (s : State) :
    OnlyChanges [linkPart h.link] s (answer h r a s) :=
  (only_answer h (by simp) r a).2 (.refl _ s)

/-- R169 steps 4 to 7: a request of a served session that its cache does not answer goes to its block, if the
session's role may send it (R150). -/
theorem dispatchBound_handOver {h : Header} {r : Request} {n : SessionIx} {s : State}
    (hn : boundSession h s = some n) (he : s.isEnding n = false)
    (hc : ∀ e, (s.link h.link).cache.get n = some e → e.seq ≠ h.seq)
    (hr : s.isControl n = true ∨ observeMaySend r = true) : dispatchBound h r s = handOver h r s := by
  have hrole : (s.isControl n || observeMaySend r) = true := by simpa using hr
  cases hg : (s.link h.link).cache.get n with
  | none => simp [dispatchBound, hn, he, hg, hrole]
  | some e => simp [dispatchBound, hn, he, hg, hc e hg, hrole]

/-- R60: TIME_GET at the Time Base is answered with the rig time, and nothing is checked first. -/
theorem exec_timeGet {h : Header} {n : SessionIx} {s : State} (a : AtBlock .notTold h .timeGet n s) :
    exec (.timeGet h) s = .next (answer h .timeGet (doneWith (u48 s.clock.rig)) s) :=
  serve_atBlock a fun _ t => answer h .timeGet (doneWith (u48 t.clock.rig)) t

/-- Settles O20: at its block the request is answered at once, and on its way there the role decides nothing, for
OBSERVE may send TIME_GET too. -/
theorem timeGetAnswersRigTime : Obligations.TimeGetAnswersRigTime := by
  refine ⟨fun h n s hat => ⟨exec_timeGet hat, answer_frame h _ _ s⟩, fun h n s hn he hc => ?_⟩
  have uncached : ∀ e, (s.link h.link).cache.get n = some e → e.seq ≠ h.seq := by simp [hc]
  have observe : observeMaySend .timeGet = true := rfl
  exact dispatchBound_handOver hn he uncached (.inr observe)

end Sys2Proof.Machine
end


section
/-! PROOFS. The machine: what every command changes (the frame), which commands run, the step on an empty queue, and the
state after a power-on reset. -/

namespace Sys2Proof.Machine

/-! ### The frame of a request's own rule -/

section
variable {ps : List Part} {s t : State} {h : Header}
@[simp] theorem only_sessionOpenBody (hl : linkPart h.link ∈ ps) (h1 : Part.sessions ∈ ps) (h2 : Part.reports ∈ ps) (h3 : Part.schedule ∈ ps) (h4 : Part.cycles ∈ ps) (role : Byte) (x : RawSettings) :
    OnlyChanges ps s (sessionOpenBody h role x t) ↔ OnlyChanges ps s t := by
  simp only [sessionOpenBody]; repeat' split
  all_goals simp [hl, h1, h2, h3, h4]

@[simp] theorem only_sessionConfigBody (hl : linkPart h.link ∈ ps) (h1 : Part.sessions ∈ ps) (h2 : Part.schedule ∈ ps) (x : RawSettings) (n : SessionIx) :
    OnlyChanges ps s (sessionConfigBody h x n t) ↔ OnlyChanges ps s t := by
  simp only [sessionConfigBody]; repeat' split
  all_goals simp [hl, h1, h2]

@[simp] theorem only_sessionCloseBody (hl : linkPart h.link ∈ ps) (h1 : Part.sessions ∈ ps) (h2 : Part.notices ∈ ps) (n : SessionIx) :
    OnlyChanges ps s (sessionCloseBody h n t) ↔ OnlyChanges ps s t := by
  simp [sessionCloseBody, hl, h1, h2]

@[simp] theorem only_deviceResetBody (h1 : Part.linkA ∈ ps) (h2 : Part.linkB ∈ ps) (h3 : Part.sessions ∈ ps) (kind : Byte) :
    OnlyChanges ps s (deviceResetBody h kind t) ↔ OnlyChanges ps s t := by
  simp only [deviceResetBody]; repeat' split
  all_goals simp [linkPart_mem h1 h2, h1, h2, h3]

@[simp] theorem only_linkStatusBody (h1 : Part.linkA ∈ ps) (h2 : Part.linkB ∈ ps) (link clear : Byte) :
    OnlyChanges ps s (linkStatusBody h link clear t) ↔ OnlyChanges ps s t := by
  simp only [linkStatusBody]; repeat' split
  all_goals simp [linkPart_mem h1 h2]

@[simp] theorem only_timeSetBody (hl : linkPart h.link ∈ ps) (h1 : Part.clock ∈ ps) (h2 : Part.claims ∈ ps) (h3 : Part.schedule ∈ ps) (h4 : Part.engine ∈ ps) (h5 : Part.trigger ∈ ps) (h6 : Part.sessions ∈ ps) (h7 : Part.notices ∈ ps) (x : Time) :
    OnlyChanges ps s (timeSetBody h x t) ↔ OnlyChanges ps s t := by
  simp only [timeSetBody]; repeat' split
  all_goals simp [hl, h1, h2, h3, h4, h5, h6, h7]

@[simp] theorem only_deviceConfigBody (hl : linkPart h.link ∈ ps) (h1 : Part.clock ∈ ps) (x : Half) :
    OnlyChanges ps s (deviceConfigBody h x t) ↔ OnlyChanges ps s t := by
  simp [deviceConfigBody, hl, h1]

@[simp] theorem only_claimBody (hl : linkPart h.link ∈ ps) (h1 : Part.claims ∈ ps) (h2 : Part.notices ∈ ps) (a b p : Byte) (w : Half) (n : SessionIx) :
    OnlyChanges ps s (claimBody h a b p w n t) ↔ OnlyChanges ps s t := by
  simp only [claimBody]; repeat' split
  all_goals simp [hl, h1, h2]

@[simp] theorem only_releaseBody (hl : linkPart h.link ∈ ps) (h1 : Part.claims ∈ ps) (h2 : Part.schedule ∈ ps) (h3 : Part.cycles ∈ ps) (h4 : Part.notices ∈ ps) (a b x f : Byte) (n : SessionIx) :
    OnlyChanges ps s (releaseBody h a b x f n t) ↔ OnlyChanges ps s t := by
  simp only [releaseBody]; repeat' split
  all_goals simp [hl, h1, h2, h3, h4]

@[simp] theorem only_channelConfigBody (hl : linkPart h.link ∈ ps) (h1 : Part.claims ∈ ps) (h2 : Part.assembler ∈ ps) (c : Byte) (lo up safe : Half) (n : SessionIx) :
    OnlyChanges ps s (channelConfigBody h c lo up safe n t) ↔ OnlyChanges ps s t := by
  simp only [channelConfigBody]; repeat' split
  all_goals simp [hl, h1, h2]

@[simp] theorem only_channelReadBody (hl : linkPart h.link ∈ ps)  (a b : Byte) :
    OnlyChanges ps s (channelReadBody h a b t) ↔ OnlyChanges ps s t := by
  simp only [channelReadBody]; repeat' split
  all_goals simp [hl]

@[simp] theorem only_readbackBody (hl : linkPart h.link ∈ ps) (h1 : Part.engine ∈ ps) (h2 : Part.notices ∈ ps) (a b : Byte) (n : SessionIx) :
    OnlyChanges ps s (readbackBody h a b n t) ↔ OnlyChanges ps s t := by
  simp only [readbackBody]; repeat' split
  all_goals simp [hl, h1, h2]

@[simp] theorem only_setOpenBody (hl : linkPart h.link ∈ ps) (h1 : Part.assembler ∈ ps) (k l c y : Byte) (x : Time) (p : Half) (d o : Long) (n : SessionIx) :
    OnlyChanges ps s (setOpenBody h k l c y x p d o n t) ↔ OnlyChanges ps s t := by
  simp only [setOpenBody]; repeat' split
  all_goals simp [hl, h1]

@[simp] theorem only_setAddBody (hl : linkPart h.link ∈ ps) (h1 : Part.assembler ∈ ps) (h2 : Part.sessions ∈ ps) (h3 : Part.notices ∈ ps) (f : Byte) (is : List RawItem) (n : SessionIx) :
    OnlyChanges ps s (setAddBody h f is n t) ↔ OnlyChanges ps s t := by
  simp only [setAddBody]; repeat' split
  all_goals simp [hl, h1, h2, h3]

@[simp] theorem only_setDiscardBody (hl : linkPart h.link ∈ ps) (h1 : Part.assembler ∈ ps) (h2 : Part.sessions ∈ ps) (n : SessionIx) :
    OnlyChanges ps s (setDiscardBody h n t) ↔ OnlyChanges ps s t := by
  simp only [setDiscardBody]; repeat' split
  all_goals simp [hl, h1, h2]

@[simp] theorem only_setCancelBody (hl : linkPart h.link ∈ ps) (h1 : Part.schedule ∈ ps) (h2 : Part.cycles ∈ ps) (h3 : Part.notices ∈ ps) (id : Half) (n : SessionIx) :
    OnlyChanges ps s (setCancelBody h id n t) ↔ OnlyChanges ps s t := by
  simp only [setCancelBody]; repeat' split
  all_goals simp [hl, h1, h2, h3]

@[simp] theorem only_setListBody (hl : linkPart h.link ∈ ps)  (m x : Byte) (g : Long) (id : Half) :
    OnlyChanges ps s (setListBody h m x g id t) ↔ OnlyChanges ps s t := by
  simp only [setListBody]; repeat' split
  all_goals simp [hl]

@[simp] theorem only_cycleBeginBody (hl : linkPart h.link ∈ ps) (h1 : Part.cycles ∈ ps) (x : Time) (p k : Long) (n : SessionIx) :
    OnlyChanges ps s (cycleBeginBody h x p k n t) ↔ OnlyChanges ps s t := by
  simp only [cycleBeginBody]; repeat' split
  all_goals simp [hl, h1]

@[simp] theorem only_cycleEndBody (hl : linkPart h.link ∈ ps) (h1 : Part.cycles ∈ ps) (h2 : Part.schedule ∈ ps) (n : SessionIx) :
    OnlyChanges ps s (cycleEndBody h n t) ↔ OnlyChanges ps s t := by
  simp only [cycleEndBody]; repeat' split
  all_goals simp [hl, h1, h2]

@[simp] theorem only_cycleStopBody (hl : linkPart h.link ∈ ps) (h1 : Part.cycles ∈ ps) (h2 : Part.schedule ∈ ps) (h3 : Part.notices ∈ ps) (k : Byte) (n : SessionIx) :
    OnlyChanges ps s (cycleStopBody h k n t) ↔ OnlyChanges ps s t := by
  simp only [cycleStopBody]; repeat' split
  all_goals simp [hl, h1, h2, h3]

@[simp] theorem only_cycleStatusBody (hl : linkPart h.link ∈ ps)  (x p : Byte) :
    OnlyChanges ps s (cycleStatusBody h x p t) ↔ OnlyChanges ps s t := by
  simp only [cycleStatusBody]; repeat' split
  all_goals simp [hl]

@[simp] theorem only_triggerConfigBody (hl : linkPart h.link ∈ ps) (h1 : Part.trigger ∈ ps) (h2 : Part.notices ∈ ps) (l e g d c : Byte) (n : SessionIx) :
    OnlyChanges ps s (triggerConfigBody h l e g d c n t) ↔ OnlyChanges ps s t := by
  simp only [triggerConfigBody]; repeat' split
  all_goals simp [hl, h1, h2]

@[simp] theorem only_syncConfigBody (hl : linkPart h.link ∈ ps) (h1 : Part.trigger ∈ ps) (p : Byte) (w : Half) :
    OnlyChanges ps s (syncConfigBody h p w t) ↔ OnlyChanges ps s t := by
  simp only [syncConfigBody]; repeat' split
  all_goals simp [hl, h1]

@[simp] theorem only_haltNowBody (hl : linkPart h.link ∈ ps) (h1 : Part.trigger ∈ ps) (h2 : Part.notices ∈ ps) (n : SessionIx) :
    OnlyChanges ps s (haltNowBody h n t) ↔ OnlyChanges ps s t := by
  simp only [haltNowBody]; repeat' split
  all_goals simp [hl, h1, h2]

@[simp] theorem only_resumeBody (hl : linkPart h.link ∈ ps) (h1 : Part.trigger ∈ ps) (h2 : Part.notices ∈ ps) (n : SessionIx) :
    OnlyChanges ps s (resumeBody h n t) ↔ OnlyChanges ps s t := by
  simp only [resumeBody]; repeat' split
  all_goals simp [hl, h1, h2]

@[simp] theorem only_slotStatusBody (hl : linkPart h.link ∈ ps)  (k : Byte) :
    OnlyChanges ps s (slotStatusBody h k t) ↔ OnlyChanges ps s t := by
  simp only [slotStatusBody]; repeat' split
  all_goals simp [hl]

@[simp] theorem only_slotDisableBody (hl : linkPart h.link ∈ ps) (h1 : Part.slots ∈ ps) (h2 : Part.modules ∈ ps) (h3 : Part.claims ∈ ps) (h4 : Part.notices ∈ ps) (k : Byte) (n : SessionIx) :
    OnlyChanges ps s (slotDisableBody h k n t) ↔ OnlyChanges ps s t := by
  simp only [slotDisableBody]; repeat' split
  all_goals simp [hl, h1, h2, h3, h4]

@[simp] theorem only_slotEnableBody (hl : linkPart h.link ∈ ps) (h1 : Part.slots ∈ ps) (h2 : Part.modules ∈ ps) (h3 : Part.notices ∈ ps) (h4 : Part.free ∈ ps) (k : Byte) :
    OnlyChanges ps s (slotEnableBody h k t) ↔ OnlyChanges ps s t := by
  simp only [slotEnableBody]; repeat' split
  all_goals simp [hl, h1, h2, h3, h4]

@[simp] theorem only_slotResetBody (hl : linkPart h.link ∈ ps) (h1 : Part.slots ∈ ps) (h2 : Part.modules ∈ ps) (h3 : Part.notices ∈ ps) (h4 : Part.free ∈ ps) (k : Byte) :
    OnlyChanges ps s (slotResetBody h k t) ↔ OnlyChanges ps s t := by
  simp only [slotResetBody]; repeat' split
  all_goals simp [hl, h1, h2, h3, h4]

end

/-! ### The frame of every command -/

/-- Taking the oldest notice of a lane changes the notices and what the taking block changes. -/
theorem notice_changes {ps : List Part} {lane : Lane} {f : Notice → State → Option State} {s t : State}
    (h : Part.notices ∈ ps) (hf : ∀ n u v, f n u = some v → (OnlyChanges ps s v ↔ OnlyChanges ps s u))
    (hu : (Host.Outcome.next (onNotice lane f s) : Host.Outcome State Fault Refusal) = .next t) :
    OnlyChanges ps s t := by
  cases hu
  exact (only_onNotice h lane f hf).2 (.refl ps s)

/-- R1 to R182: a command changes only the parts that `touches` lists, given that a request taken as one that has just
arrived may change its session's lease. The cases are the requests, which go through `serve`; the events that take a
notice; the resets; and the line and timer events. -/
theorem exec_changes {i : Instr} {s t : State} {ps : List Part} (hm : ∀ p ∈ touches i, p ∈ ps)
    (hj : ArrivesNow i s → Part.sessions ∈ ps) (hu : exec i s = .next t) : OnlyChanges ps s t := by
  have served {v : Server} {h : Header} {r : Request} {body : SessionIx → State → State}
      (hu : serve v h r body s = .next t) (e : i = commandOf h r) (hl : linkPart h.link ∈ ps)
      (hb : ∀ n u, OnlyChanges ps s (body n u) ↔ OnlyChanges ps s u) : OnlyChanges ps s t :=
    (only_serve v h hl r body (fun a => hj ⟨h, r, e, a⟩) hb hu).2 (.refl ps s)
  cases i <;> simp only [touches, List.forall_mem_cons] at hm
  case sessionOpen h role x =>
    obtain ⟨hl, h1, h2, h3, h4, -⟩ := hm
    cases hu
    exact (only_runRequest h hl _ _ (fun _ => h1) fun _ => only_sessionOpenBody hl h1 h2 h3 h4 role x).2 (.refl ps s)
  case setAdd h f is =>
    simp only [exec, execSetAdd] at hu
    split at hu
    · cases hu
    · split at hu
      · cases hu; exact .refl ps s
      · exact served hu rfl hm.1 fun n _ => by simp [hm]
  case deviceReset | linkStatus =>
    exact served hu rfl (linkPart_mem hm.1 hm.2.1 _) fun n _ => by simp [hm]
  case sessionClose | sessionConfig | deviceStatus | deviceConfig | timeGet | timeSet | claim | release
     | channelRead | channelConfig | readback | setOpen | setDiscard | setCancel | setList | cycleBegin
     | cycleEnd | cycleStop | cycleStatus | triggerConfig | syncConfig
     | triggerStatus | haltNow | resume | slotStatus | slotDisable | slotEnable | slotReset =>
    exact served hu rfl hm.1 fun n _ => by simp [hm]
  case linkBreakNotice | lostChannelsSetAssembler | haltEntryCycleUnit =>
    refine notice_changes (by simp [hm]) (fun n u v hv => ?_) hu
    repeat' split at hv
    all_goals cases hv
    all_goals exact only_foldl _ _ fun _ _ => by simp [hm]
  case commitRecords =>
    refine notice_changes (by simp [hm]) (fun n u v hv => ?_) hu
    split at hv <;> cases hv
    rw [only_post hm.2.1]
    exact only_foldl _ _ fun _ _ => only_takeRecord hm.1 _ _
  case sessionEndLinkPort | sealTaken =>
    refine notice_changes (by simp [hm]) (fun n u v hv => ?_) hu
    repeat' split at hv
    all_goals cases hv
    all_goals simp [linkPart_mem hm.1 hm.2.1, hm]
  case heldReadbackReply =>
    refine notice_changes hm.2.1 (fun n u v hv => ?_) hu
    split at hv <;> cases hv
    repeat' split
    all_goals simp [hm]
  case reportRetriesExhausted | teardownAnswer | sessionRecordClose | sessionEndSetAssembler | sessionEndSchedule | sessionEndCycleUnit | sessionEndApplyEngine
     | sessionEndWaitEntries | sessionEndClaimUnit | teardownNotice | reportHandover | endOfTransmissionNotice
     | ack | triggerEdge | outcome | lostChannelsSchedule | haltEntrySchedule | itemsReturn
     | memberParkedNotice | stageAcceptance | stageFailure
     | stageSlotLost | slotLostNotice | haltEntryApplyEngine | strobeAnswer | withdrawnAnswer
     | commitRecordsTaken | captureReadbackEnd | captureItems | slotReady | slotLeftReady
     | haltEntryClaimUnit | safeAllValues | syncCommitNotice | busFailureNotice | describeReply
     | busRequest | commitRequest | withdrawal | slotPoweredNotice | leftPoweredNotice
     | haltEntryBusController =>
    refine notice_changes (by simp [hm]) (fun n u v hv => ?_) hu
    repeat' split at hv
    all_goals cases hv
    all_goals simp [hm]
  case frameReceived =>
    simp only [exec, execFrameReceived] at hu
    split at hu <;> cases hu
    simp [hm]
  case resetPerformed p =>
    refine OnlyChanges.mono (qs := allButPending) (by simpa [allButPending] using hm) ?_
    cases hu
    repeat' split
    all_goals simp [only_resetHeld, only_resetUnpowered]
  case powerOnReset p | lineReset p =>
    cases hu
    exact (only_resetUnpowered p s).mono (by simpa [allButPending] using hm)
  case heldReset p => cases hu; exact (only_resetHeld p s).mono (by simpa [allButPending] using hm)
  all_goals
    cases hu
    repeat' split
    all_goals simp [hm]


/-- No command changes the queue of commands. -/
theorem pending_not_mem_touches (i : Instr) : Part.pending ∉ Part.sessions :: touches i := by
  have link (l : LinkId) : Part.pending ≠ linkPart l := by cases l <;> simp [linkPart]
  cases i <;> simp [touches, allButPending, link]

/-- Settles O3: by `exec_changes`, once with the listed parts and once with the Session Table besides. -/
theorem commandsChangeOnlyTheirParts : Obligations.CommandsChangeOnlyTheirParts := by
  intro i s t hu
  have wide : OnlyChanges (.sessions :: touches i) s t :=
    exec_changes (fun p hp => List.mem_cons_of_mem _ hp) (fun _ => List.mem_cons_self) hu
  exact ⟨fun hn => exec_changes (fun p hp => hp) (fun ha => absurd ha hn) hu, fun _ => wide,
    wide .pending (pending_not_mem_touches i)⟩

/-! ### Which commands run -/

/-- Settles O2: only SET_ADD and FRAME_RECEIVED look at their operands before they run. -/
theorem wellFormedCommandsRun : Obligations.WellFormedCommandsRun := by
  refine ⟨fun i s h => ?_, fun i s h => ?_⟩
  · cases i
    case setAdd g f is =>
      have hl : ¬ maxFrameItems < is.length := by simpa [Instr.wellFormed] using h
      by_cases hw : sealWaits g s = true
      · exact ⟨s, by simp [exec, execSetAdd, hl, hw]⟩
      · exact ⟨_, by simp [exec, execSetAdd, hl, hw]; rfl⟩
    case frameReceived l bytes => exact ⟨_, if_pos h⟩
    all_goals exact ⟨_, rfl⟩
  · cases i
    case setAdd g f is =>
      have hl : maxFrameItems < is.length := by simpa [Instr.wellFormed] using h
      exact if_pos hl
    case frameReceived l bytes => exact if_neg (by simpa [Instr.wellFormed] using h)
    all_goals cases h

/-! ### The step -/

/-- Settles O1: both equations are those of `step`, and the tick is read off the clock. -/
theorem stepRunsTheQueue : Obligations.StepRunsTheQueue := by
  refine ⟨fun c rest s h => by simp [step, h], fun s h => ⟨tick s, by simp [step, h], ?_, rfl, rfl, rfl⟩⟩
  exact (only_withClock (by simp) _).2 (.refl _ s)

/-! ### The state after a power-on reset -/

/-- Settles O11: every table of the state after a reset is empty and every count 0. -/
theorem resetMeetsTheInvariants : Obligations.ResetMeetsTheInvariants := by
  have noChannel (c : ChanIx) : State.reset.channel c = none := by simp [State.channel, State.reset]
  have noSession (n : SessionIx) : State.reset.session n = none := by simp [State.session, State.reset]
  have noOpenSet (n : SessionIx) : State.reset.openSet n = none := by simp [State.openSet, State.reset]
  have noCycle (n : SessionIx) : State.reset.cycle n = none := by simp [State.cycle, State.reset]
  have lists (n : SessionIx) : State.reset.lists n = ReportLists.reset := by simp [State.lists, State.reset]
  have slots (k : SlotIx) : State.reset.slot k = Slot.reset := by simp [State.slot, State.reset]
  have links (l : LinkId) : State.reset.link l = Link.reset := by cases l <;> rfl
  have sets : State.reset.sets = [] := rfl
  have notices : State.reset.notices = [] := rfl
  have ready : State.reset.schedule.ready = [] := rfl
  have held (n : SessionIx) : heldItems n State.reset = 0 := by
    simp [heldItems, noOpenSet, sets, notices, returning]
  refine ⟨by unfold ClockBounded; decide, by unfold BusBounded; decide, by unfold LinksBounded Link.bounded; decide, fun n => ?_,
    ⟨by decide, fun n => by simp [State.reset], by decide, by decide, by simp [noOpenSet], by simp [noCycle]⟩,
    ⟨fun l => by simp [links, Link.reset], fun l f => by simp [links, Link.reset], by simp [noSession],
      fun n => by simp [lists, ReportLists.reset]⟩,
    ⟨by simp [noChannel], by simp [notices], fun k d => by simp [slots, Slot.reset]⟩,
    by unfold PoolConserved; decide, by unfold OneApplying; decide,
    ⟨by simp [sets], by decide, fun id => by simp [sets, ready], by simp [sets], by decide⟩,
    by unfold ReadyOrdered; decide, by decide, by intro c x; simp [noChannel], by intro rs q; simp [notices],
    ⟨by simp [noChannel], by simp [State.reset], fun h r n => by simp [links, Link.reset]⟩,
    ⟨by simp [sets], fun n => ⟨by simp [noSession], fun _ => held n⟩⟩⟩
  rw [lists]
  unfold ReportLists.bounded
  decide

end Sys2Proof.Machine
end


section
/-! PROOFS. What each operation hands over: no operation outside the Schedule hands over items that return, and each other
class of notices that an invariant speaks of has one operation that hands it over. One lemma per operation, in the form of
Laws/Frame.lean. -/

namespace Sys2Proof.Machine

/-! ### Classes of notices -/

/-- The classes of notices that an invariant speaks of: items on their way back to the pool (R36), the Report Unit's
notices of session ends (R155) and the descriptors for the Claim Unit (R126). -/
inductive NoticeClass
  | itemsReturn
  | reportEnd
  | slotReady
  | other
deriving DecidableEq

def Notice.class (n : Notice) : NoticeClass :=
  match n with
  | .itemsReturn _ _ => .itemsReturn
  | .sessionEnd .reportUnit _ => .reportEnd
  | .slotReady _ _ _ => .slotReady
  | .sessionEnd _ _ | .commitRecords _ _
  | .haltEntry _ _ | .teardownAnswer _ _ | .claimSessionEnd _ | .recordClose _ | .report _ _ _ | .frameEnd _ _ _
  | .retriesExhausted _ _ | .linkBroken _ | .ack _ _ _ _ | .sealAsked _ _ _ _ | .edge _ _ _ | .outcome _ _ _
  | .lostToSchedule _ | .lostToAssembler _ | .memberParked _ _ | .stageEnd _ _ _ | .engineSlotLost _ _
  | .commitAnswer _ | .recordsTaken | .readEnd _ _ _ | .captureComplete _ | .slotLeftReady _ | .safeAllValues
  | .syncCommit _ | .busFailure _ | .describeReply _ _ _ | .heldReply _ _ _ | .busRequest _ _ | .commitRequest _
  | .withdraw _ | .slotPowered _ | .slotLeftPowered _ => .other

/-- The notices of a class that have been handed over and not yet taken, oldest first. -/
def State.noticesOf (c : NoticeClass) (s : State) : List Notice := s.notices.filter fun n => n.class = c

/-- Every part but one. -/
def everyPartBut (q : Part) : List Part :=
  [.clock, .claims, .assembler, .schedule, .cycles, .engine, .trigger, .slots, .bus, .modules, .sessions,
   .reports, .linkA, .linkB, .notices, .free, .pending].filter fun p => p ≠ q

@[simp] theorem mem_everyPartBut {p q : Part} : p ∈ everyPartBut q ↔ p ≠ q := by
  unfold everyPartBut
  rw [List.mem_filter]
  cases p <;> simp

@[simp] theorem linkPart_ne {l : LinkId} {p : Part} (ha : p ≠ .linkA) (hb : p ≠ .linkB) : linkPart l ≠ p := by
  cases l
  · exact ha.symm
  · exact hb.symm

@[simp] theorem ne_linkPart {l : LinkId} {p : Part} (ha : p ≠ .linkA) (hb : p ≠ .linkB) : p ≠ linkPart l :=
  (linkPart_ne ha hb).symm

section
variable {c : NoticeClass} {t u : State}

theorem mem_noticesOf {n : Notice} : n ∈ t.noticesOf n.class ↔ n ∈ t.notices := by simp [State.noticesOf]

/-- What changes no notice hands nothing over. -/
theorem noticesOf_quiet (h : OnlyChanges (everyPartBut .notices) t u) : u.noticesOf c = t.noticesOf c :=
  congrArg (List.filter _) (h .notices (by simp))

theorem noticesOf_post (n : Notice) :
    (post n t).noticesOf c = t.noticesOf c ++ if c = n.class then [n] else [] := by
  simp [State.noticesOf, post, List.filter_singleton, eq_comm]

theorem noticesOf_postAll {ns : List Notice} (hc : c ≠ .other) (h : ∀ n ∈ ns, n.class = .other) :
    (postAll ns t).noticesOf c = t.noticesOf c := by
  simp only [State.noticesOf, postAll, State.withNotices_notices, List.filter_append, List.append_right_eq_self,
    List.filter_eq_nil_iff, decide_eq_true_eq]
  exact fun n hn e => hc (e.symm.trans (h n hn))

/-- The class of which a lane may carry notices, beside those of no class. -/
def Lane.carries (l : Lane) : NoticeClass :=
  match l with
  | .itemsReturn _ => .itemsReturn
  | .sessionEnd .reportUnit _ => .reportEnd
  | .slotToClaim _ => .slotReady
  | _ => .other

theorem class_noticeLane (n : Notice) : n.class = (noticeLane n).carries ∨ n.class = .other := by
  cases n
  case sessionEnd b _ => cases b <;> simp [Notice.class, noticeLane, Lane.carries]
  case busRequest r _ => cases r <;> simp [Notice.class]
  all_goals simp [Notice.class, noticeLane, Lane.carries]

theorem noticesOf_dropNotice_of {lane : Lane} (h : ∀ n, headNotice lane t = some n → n.class ≠ c) :
    (dropNotice lane t).noticesOf c = t.noticesOf c := by
  simp only [State.noticesOf, dropNotice, State.withNotices_notices]
  unfold headNotice at h
  revert h
  induction t.notices with
  | nil => exact fun _ => rfl
  | cons n ns ih =>
    intro h
    by_cases hn : noticeLane n = lane
    · have hne := h n (by simp [hn])
      simp [hn, hne]
    · have := ih fun m hm => h m (by simpa [hn] using hm)
      simp [hn, List.filter_cons, this]

/-- A notice of another lane's class is taken away. -/
theorem noticesOf_dropNotice {lane : Lane} (hc : c ≠ .other) (hl : c ≠ lane.carries) :
    (dropNotice lane t).noticesOf c = t.noticesOf c := by
  refine noticesOf_dropNotice_of fun n hn e => ?_
  have hlane : noticeLane n = lane := by simpa using List.find?_some hn
  obtain h | h := class_noticeLane n
  · exact hl (by rw [← e, h, hlane])
  · exact hc (e ▸ h)

/-- A block that takes the oldest notice of a lane. -/
theorem noticesOf_onNotice {lane : Lane} {f : Notice → State → Option State} (hc : c ≠ .other) (hl : c ≠ lane.carries)
    (hf : ∀ n u v, f n u = some v → v.noticesOf c = u.noticesOf c) :
    (onNotice lane f t).noticesOf c = t.noticesOf c := by
  obtain h | ⟨n, u, -, hu, h⟩ := onNotice_cases lane f t
  · rw [h]
  · rw [h, hf n _ u hu, noticesOf_dropNotice hc hl]

theorem noticesOf_foldl {α : Type} (f : State → α → State) (xs : List α)
    (h : ∀ (u : State) (a : α), (f u a).noticesOf c = u.noticesOf c) :
    (xs.foldl f t).noticesOf c = t.noticesOf c := by
  induction xs generalizing t with
  | nil => rfl
  | cons a xs ih => rw [List.foldl_cons, ih, h]

@[simp] theorem noticesOf_sessionReport (hc : c ≠ .other) (line : ReportLine) (n : SessionIx) (r : Report) :
    (sessionReport line n r t).noticesOf c = t.noticesOf c := by
  unfold sessionReport; split <;> simp [noticesOf_post, Notice.class, hc]

@[simp] theorem noticesOf_systemReport (hc : c ≠ .other) (line : ReportLine) (r : Report) :
    (systemReport line r t).noticesOf c = t.noticesOf c := by simp [systemReport, noticesOf_post, Notice.class, hc]

/-! ### Operations that hand nothing over -/

@[simp] theorem noticesOf_withClock (x : Clock) : (t.withClock x).noticesOf c = t.noticesOf c := rfl
@[simp] theorem noticesOf_withClaims (x : Claims) : (t.withClaims x).noticesOf c = t.noticesOf c := rfl
@[simp] theorem noticesOf_withAssembler (x : Assembler) : (t.withAssembler x).noticesOf c = t.noticesOf c := rfl
@[simp] theorem noticesOf_withSchedule (x : Schedule) : (t.withSchedule x).noticesOf c = t.noticesOf c := rfl
@[simp] theorem noticesOf_withEngine (x : Engine) : (t.withEngine x).noticesOf c = t.noticesOf c := rfl
@[simp] theorem noticesOf_withTrigger (x : Trigger) : (t.withTrigger x).noticesOf c = t.noticesOf c := rfl
@[simp] theorem noticesOf_withBus (x : Bus) : (t.withBus x).noticesOf c = t.noticesOf c := rfl
@[simp] theorem noticesOf_withSessions (x : SessionTable) : (t.withSessions x).noticesOf c = t.noticesOf c := rfl
@[simp] theorem noticesOf_withReports (x : Reports) : (t.withReports x).noticesOf c = t.noticesOf c := rfl
@[simp] theorem noticesOf_withFree (x : Nat) : (t.withFree x).noticesOf c = t.noticesOf c := rfl
@[simp] theorem noticesOf_withPending (x : List Instr) : (t.withPending x).noticesOf c = t.noticesOf c := rfl
@[simp] theorem noticesOf_withSlots (x : Table Slot 4) : (t.withSlots x).noticesOf c = t.noticesOf c := rfl
@[simp] theorem noticesOf_withModules (x : Table Module 4) : (t.withModules x).noticesOf c = t.noticesOf c := rfl
@[simp] theorem noticesOf_withCycles (x : Table (Option Cycle) 4) : (t.withCycles x).noticesOf c = t.noticesOf c := rfl
@[simp] theorem noticesOf_withLink (l : LinkId) (k : Link) : (t.withLink l k).noticesOf c = t.noticesOf c :=
  noticesOf_quiet (by simp)
@[simp] theorem noticesOf_withSession (n : SessionIx) (r : Option Session) : (t.withSession n r).noticesOf c = t.noticesOf c :=
  noticesOf_quiet (by simp)
@[simp] theorem noticesOf_withChannels (x : Table (Option Channel) 32) : (t.withChannels x).noticesOf c = t.noticesOf c :=
  noticesOf_quiet (by simp)
@[simp] theorem noticesOf_withWaits (x : List WaitEntry) : (t.withWaits x).noticesOf c = t.noticesOf c :=
  noticesOf_quiet (by simp)
@[simp] theorem noticesOf_withOpenSet (n : SessionIx) (o : Option OpenSet) : (t.withOpenSet n o).noticesOf c = t.noticesOf c :=
  noticesOf_quiet (by simp)
@[simp] theorem noticesOf_withCycle (n : SessionIx) (x : Option Cycle) : (t.withCycle n x).noticesOf c = t.noticesOf c :=
  noticesOf_quiet (by simp)
@[simp] theorem noticesOf_withSlot (k : SlotIx) (x : Slot) : (t.withSlot k x).noticesOf c = t.noticesOf c :=
  noticesOf_quiet (by simp)
@[simp] theorem noticesOf_withModule (k : SlotIx) (x : Module) : (t.withModule k x).noticesOf c = t.noticesOf c :=
  noticesOf_quiet (by simp)
@[simp] theorem noticesOf_withLists (n : SessionIx) (x : ReportLists) : (t.withLists n x).noticesOf c = t.noticesOf c :=
  noticesOf_quiet (by simp)
@[simp] theorem noticesOf_withTrig (l : TrigLine) (x : TrigRec) : (t.withTrig l x).noticesOf c = t.noticesOf c :=
  noticesOf_quiet (by simp)
@[simp] theorem noticesOf_withSets (x : List SealedSet) : (t.withSets x).noticesOf c = t.noticesOf c :=
  noticesOf_quiet (by simp)
@[simp] theorem noticesOf_withReady (x : List Nat) : (t.withReady x).noticesOf c = t.noticesOf c :=
  noticesOf_quiet (by simp)
@[simp] theorem noticesOf_withArmed (n : SessionIx) (b : Bool) : (withArmed n b t).noticesOf c = t.noticesOf c :=
  noticesOf_quiet (by simp)
@[simp] theorem noticesOf_withWork (w : Option Work) : (t.withWork w).noticesOf c = t.noticesOf c :=
  noticesOf_quiet (by simp)
@[simp] theorem noticesOf_withCaptures (x : List CaptureEntry) : (t.withCaptures x).noticesOf c = t.noticesOf c :=
  noticesOf_quiet (by simp)
@[simp] theorem noticesOf_withSync (x : SyncOut) : (t.withSync x).noticesOf c = t.noticesOf c :=
  noticesOf_quiet (by simp)
@[simp] theorem noticesOf_withMonitor (x : Monitor) : (t.withMonitor x).noticesOf c = t.noticesOf c :=
  noticesOf_quiet (by simp)
@[simp] theorem noticesOf_startSending (l : LinkId) : (startSending l t).noticesOf c = t.noticesOf c :=
  noticesOf_quiet (by simp)
@[simp] theorem noticesOf_placeReply (l : LinkId) (r : Reply) : (placeReply l r t).noticesOf c = t.noticesOf c :=
  noticesOf_quiet (by simp)
@[simp] theorem noticesOf_placeOrDiscard (l : LinkId) (r : Reply) : (placeOrDiscard l r t).noticesOf c = t.noticesOf c :=
  noticesOf_quiet (by simp)
@[simp] theorem noticesOf_moveHeldReply (l : LinkId) : (moveHeldReply l t).noticesOf c = t.noticesOf c :=
  noticesOf_quiet (by simp)
@[simp] theorem noticesOf_changeLink (l : LinkId) (f : Link → Link) : (changeLink l f t).noticesOf c = t.noticesOf c :=
  noticesOf_quiet (by simp)
@[simp] theorem noticesOf_changeInUse (n : SessionIx) (f : Nat → Nat) : (changeInUse n f t).noticesOf c = t.noticesOf c :=
  noticesOf_quiet (by simp)
@[simp] theorem noticesOf_changePool (f : Nat → Nat) : (changePool f t).noticesOf c = t.noticesOf c :=
  noticesOf_quiet (by simp)
@[simp] theorem noticesOf_cacheReply (h : Header) (r : Request) (x : Reply) (o : Option SessionIx) : (cacheReply h r x o t).noticesOf c = t.noticesOf c :=
  noticesOf_quiet (by simp)
@[simp] theorem noticesOf_answerOpened (h : Header) (r : Request) (a : Answer) (o : Option SessionIx) : (answerOpened h r a o t).noticesOf c = t.noticesOf c :=
  noticesOf_quiet (by simp)
@[simp] theorem noticesOf_answer (h : Header) (r : Request) (a : Answer) : (answer h r a t).noticesOf c = t.noticesOf c :=
  noticesOf_quiet (by simp)
@[simp] theorem noticesOf_refuse (h : Header) (r : Request) (x : Reason) : (refuse h r x t).noticesOf c = t.noticesOf c :=
  noticesOf_quiet (by simp)
@[simp] theorem noticesOf_refuseUncached (h : Header) (k : Byte) (x : Reason) : (refuseUncached h k x t).noticesOf c = t.noticesOf c :=
  noticesOf_quiet (by simp)
@[simp] theorem noticesOf_handOver (h : Header) (r : Request) : (handOver h r t).noticesOf c = t.noticesOf c :=
  noticesOf_quiet (by simp)
@[simp] theorem noticesOf_dispatchOpen (h : Header) (r : Request) : (dispatchOpen h r t).noticesOf c = t.noticesOf c :=
  noticesOf_quiet (by simp)
@[simp] theorem noticesOf_dispatchBound (h : Header) (r : Request) : (dispatchBound h r t).noticesOf c = t.noticesOf c :=
  noticesOf_quiet (by simp)
@[simp] theorem noticesOf_dispatchRequest (h : Header) (r : Request) : (dispatchRequest h r t).noticesOf c = t.noticesOf c :=
  noticesOf_quiet (by simp)
@[simp] theorem noticesOf_dispatchFrame (l : LinkId) (f : InFrame) : (dispatchFrame l f t).noticesOf c = t.noticesOf c :=
  noticesOf_quiet (by simp)
@[simp] theorem noticesOf_dispatchOldest (l : LinkId) : (dispatchOldest l t).noticesOf c = t.noticesOf c :=
  noticesOf_quiet (by simp)
@[simp] theorem noticesOf_refreshLease (l : LinkId) (b : Byte) : (refreshLease l b t).noticesOf c = t.noticesOf c :=
  noticesOf_quiet (by simp)
@[simp] theorem noticesOf_moduleCarriesOut (k : SlotIx) (no : Nat) (f : Module → Module) : (moduleCarriesOut k no f t).noticesOf c = t.noticesOf c :=
  noticesOf_quiet (by simp)
@[simp] theorem noticesOf_modulesCarryOut (no : Nat) (f : SlotIx → Module → Module) : (modulesCarryOut no f t).noticesOf c = t.noticesOf c :=
  noticesOf_quiet (by simp)
@[simp] theorem noticesOf_transactionReaches (x : Txn) (no : Nat) : (transactionReaches x no t).noticesOf c = t.noticesOf c :=
  noticesOf_quiet (by simp)
@[simp] theorem noticesOf_strobeModules : (strobeModules t).noticesOf c = t.noticesOf c := noticesOf_quiet (by simp)
@[simp] theorem noticesOf_changeChannels (f : ChanIx → Channel → Option Channel) : (changeChannels f t).noticesOf c = t.noticesOf c :=
  noticesOf_quiet (by simp)
@[simp] theorem noticesOf_changeChannel (x : ChanIx) (f : Channel → Channel) : (changeChannel x f t).noticesOf c = t.noticesOf c :=
  noticesOf_quiet (by simp)
@[simp] theorem noticesOf_driveRecordsSafe : (driveRecordsSafe t).noticesOf c = t.noticesOf c :=
  noticesOf_quiet (by simp)
@[simp] theorem noticesOf_grantRange (n : SessionIx) (a b : ChanIx) (p : LossPolicy) : (grantRange n a b p t).noticesOf c = t.noticesOf c :=
  noticesOf_quiet (by simp)
@[simp] theorem noticesOf_spoil (n : SessionIx) (cs : List ChanIx) : (spoil n cs t).noticesOf c = t.noticesOf c :=
  noticesOf_quiet (by simp)
@[simp] theorem noticesOf_makePresent (k : SlotIx) (d : Descriptor) (v : Option HeldValues) : (makePresent k d v t).noticesOf c = t.noticesOf c :=
  noticesOf_quiet (by simp)
@[simp] theorem noticesOf_dropWaits (n : SessionIx) : (dropWaits n t).noticesOf c = t.noticesOf c :=
  noticesOf_quiet (by simp)
@[simp] theorem noticesOf_takeRecord (q : Bool) (r : CommitRecord) : (takeRecord q t r).noticesOf c = t.noticesOf c :=
  noticesOf_quiet (by simp)
@[simp] theorem noticesOf_giveSafeValues : (giveSafeValues t).noticesOf c = t.noticesOf c :=
  noticesOf_quiet (by simp)
@[simp] theorem noticesOf_takeOpenItems (n : SessionIx) (o : OpenSet) (is : List Item) : (takeItems n o is t).noticesOf c = t.noticesOf c :=
  noticesOf_quiet (by simp)
@[simp] theorem noticesOf_discardOpenSet (n : SessionIx) (o : OpenSet) : (discardOpenSet n o t).noticesOf c = t.noticesOf c :=
  noticesOf_quiet (by simp)
@[simp] theorem noticesOf_endSessionAssembler (n : SessionIx) : (endSessionAssembler n t).noticesOf c = t.noticesOf c :=
  noticesOf_quiet (by simp)
@[simp] theorem noticesOf_changeEntry (e : CaptureEntry) : (changeEntry e t).noticesOf c = t.noticesOf c :=
  noticesOf_quiet (by simp)
@[simp] theorem noticesOf_syncCommit (n : Nat) : (syncCommit n t).noticesOf c = t.noticesOf c :=
  noticesOf_quiet (by simp)
@[simp] theorem noticesOf_beginAttempt (x : Txn) (n : Nat) : (beginAttempt x n t).noticesOf c = t.noticesOf c :=
  noticesOf_quiet (by simp)
@[simp] theorem noticesOf_markInProgress (x : Txn) : (markInProgress x t).noticesOf c = t.noticesOf c :=
  noticesOf_quiet (by simp)
@[simp] theorem noticesOf_openSession (l : LinkId) (n : SessionIx) (r : Role) (x : Settings) : (openSession l n r x t).noticesOf c = t.noticesOf c :=
  noticesOf_quiet (by simp)
@[simp] theorem noticesOf_rearm (n : SessionIx) (x : Settings) : (rearm n x t).noticesOf c = t.noticesOf c :=
  noticesOf_quiet (by simp)
@[simp] theorem noticesOf_stopLinks : (stopLinks t).noticesOf c = t.noticesOf c := noticesOf_quiet (by simp)
@[simp] theorem noticesOf_offerRequest (l : LinkId) (f : InFrame) : (offerRequest l f t).noticesOf c = t.noticesOf c :=
  noticesOf_quiet (by simp)
@[simp] theorem noticesOf_sendNext (l : LinkId) : (sendNext l t).noticesOf c = t.noticesOf c :=
  noticesOf_quiet (by simp)
@[simp] theorem noticesOf_handFrame (n : SessionIx) (o : Outstanding) : (handFrame n o t).noticesOf c = t.noticesOf c :=
  noticesOf_quiet (by simp)
@[simp] theorem noticesOf_promote (n : SessionIx) (r : Report) (rest : List Report) : (promote n r rest t).noticesOf c = t.noticesOf c :=
  noticesOf_quiet (by simp)
@[simp] theorem noticesOf_makeOverrun (n : SessionIx) : (makeOverrun n t).noticesOf c = t.noticesOf c :=
  noticesOf_quiet (by simp)
@[simp] theorem noticesOf_settleLoop (fuel : Nat) (n : SessionIx) : (settleLoop fuel n t).noticesOf c = t.noticesOf c :=
  noticesOf_quiet (by simp)
@[simp] theorem noticesOf_settleLists (n : SessionIx) : (settleLists n t).noticesOf c = t.noticesOf c :=
  noticesOf_quiet (by simp)
@[simp] theorem noticesOf_takeReport (n : SessionIx) (r : Report) : (takeReport n r t).noticesOf c = t.noticesOf c :=
  noticesOf_quiet (by simp)
@[simp] theorem noticesOf_routeTo (n : SessionIx) (r : Report) : (routeTo r t n).noticesOf c = t.noticesOf c :=
  noticesOf_quiet (by simp)
@[simp] theorem noticesOf_takeHandover (n : Option (SessionIx × Nat)) (r : Report) : (takeHandover n r t).noticesOf c = t.noticesOf c :=
  noticesOf_quiet (by simp)
@[simp] theorem noticesOf_changeOutstanding (n : SessionIx) (u : Nat) (f : Outstanding → Outstanding) : (changeOutstanding n u f t).noticesOf c = t.noticesOf c :=
  noticesOf_quiet (by simp)
@[simp] theorem noticesOf_startTimer (n : SessionIx) (u : Nat) : (startTimer n u t).noticesOf c = t.noticesOf c :=
  noticesOf_quiet (by simp)
@[simp] theorem noticesOf_withdrawFrames (n : SessionIx) (g : ReportFrame → Bool) : (withdrawFrames n g t).noticesOf c = t.noticesOf c :=
  noticesOf_quiet (by simp)
@[simp] theorem noticesOf_takeAck (n : SessionIx) (q : Nat) : (takeAck n q t).noticesOf c = t.noticesOf c :=
  noticesOf_quiet (by simp)
@[simp] theorem noticesOf_tearReports (n : SessionIx) : (tearReports n t).noticesOf c = t.noticesOf c :=
  noticesOf_quiet (by simp)
@[simp] theorem noticesOf_queueResetSafeAll (p : Pins) : (queueResetSafeAll p t).noticesOf c = t.noticesOf c :=
  noticesOf_quiet (by simp)
@[simp] theorem noticesOf_queueDescribe (k : SlotIx) : (queueDescribe t k).noticesOf c = t.noticesOf c :=
  noticesOf_quiet (by simp)

end

/-! ### Operations that hand over -/

section
variable {c : NoticeClass} {t : State}

/-! ### Claim Unit -/

@[simp] theorem noticesOf_claimResult (hc : c ≠ .other) (e : WaitEntry) (o : ClaimOutcome) (l : Option ChanIx) :
    (claimResult e o l t).noticesOf c = t.noticesOf c := by
  simp [claimResult, hc]
@[simp] theorem noticesOf_grantEntry (hc : c ≠ .other) (e : WaitEntry) :
    (grantEntry t e).noticesOf c = t.noticesOf c := by
  unfold grantEntry; split <;> simp [hc]
@[simp] theorem noticesOf_grantPass (hc : c ≠ .other) :
    (grantPass t).noticesOf c = t.noticesOf c := by
  exact noticesOf_foldl _ _ fun _ _ => noticesOf_grantEntry hc _
@[simp] theorem noticesOf_queueDriveSafe (hc : c ≠ .other) (d : ChanIx → Bool) :
    (queueDriveSafe d t).noticesOf c = t.noticesOf c := by
  refine noticesOf_postAll hc fun n hn => ?_
  obtain ⟨k, -, hk⟩ := List.mem_filterMap.1 hn
  dsimp only at hk
  split at hk <;> cases hk
  rfl
@[simp] theorem noticesOf_freeChannels (hc : c ≠ .other) (f d : ChanIx → Bool) :
    (freeChannels f d t).noticesOf c = t.noticesOf c := by simp [freeChannels, hc]
@[simp] theorem noticesOf_dropAbsentWaits (hc : c ≠ .other) (l : List ChanIx) :
    (dropAbsentWaits l t).noticesOf c = t.noticesOf c := by
  refine noticesOf_foldl _ _ fun u e => ?_
  split <;> simp [hc]
@[simp] theorem noticesOf_makeAbsent (hc : c ≠ .other) (k : SlotIx) :
    (makeAbsent k t).noticesOf c = t.noticesOf c := by
  simp only [makeAbsent]; split
  · simp [hc]
  · rw [noticesOf_postAll hc (by simp [Notice.class])]; simp [hc]
@[simp] theorem noticesOf_endSessionClaims (hc : c ≠ .other) (n : SessionIx) :
    (endSessionClaims n t).noticesOf c = t.noticesOf c := by simp [endSessionClaims, hc]
@[simp] theorem noticesOf_recordReading (hc : c ≠ .other) (e : CaptureEntry) (i : CaptureItem) (v : Int) :
    (recordReading e i v t).noticesOf c = t.noticesOf c := by
  simp only [recordReading]; repeat' split
  all_goals simp [hc]
theorem noticesOf_takeItem (hc : c ≠ .other) (e : CaptureEntry) (acc : State × List CapturedItem) (i : CaptureItem) :
    (takeItem e acc i).1.noticesOf c = acc.1.noticesOf c := by
  have recorded (p : Prop) [Decidable p] (v : Int) :
      (if p then recordReading e i v acc.1 else acc.1).noticesOf c = acc.1.noticesOf c := by
    split <;> simp [hc]
  exact recorded _ _
theorem noticesOf_takeItems (hc : c ≠ .other) (e : CaptureEntry) (is : List CaptureItem) (acc : State × List CapturedItem) :
    (is.foldl (takeItem e) acc).1.noticesOf c = acc.1.noticesOf c := by
  induction is generalizing acc with
  | nil => rfl
  | cons i is ih => rw [List.foldl_cons, ih, noticesOf_takeItem hc]
@[simp] theorem noticesOf_takeCapture (hc : c ≠ .other) (e : CaptureEntry) :
    (takeCapture e t).noticesOf c = t.noticesOf c := by
  simp [takeCapture, noticesOf_takeItems hc, hc]

/-! ### Set Assembler -/

@[simp] theorem noticesOf_askSeal (hc : c ≠ .other) (h : Header) (r : Request) (n : SessionIx) (k : Nat) :
    (askSeal h r n k t).noticesOf c = t.noticesOf c := by
  unfold askSeal; repeat' split
  all_goals simp [noticesOf_post, Notice.class, hc]

/-! ### Apply Engine -/

@[simp] theorem noticesOf_handOutcome (hc : c ≠ .other) (w : Work) (o : EngineOutcome) :
    (handOutcome w o t).noticesOf c = t.noticesOf c := by
  simp [handOutcome, noticesOf_post, Notice.class, hc]
@[simp] theorem noticesOf_queueAbandon (hc : c ≠ .other) (w : Work) :
    (queueAbandon w t).noticesOf c = t.noticesOf c := by
  unfold queueAbandon; split <;> simp [noticesOf_post, Notice.class, hc]
@[simp] theorem noticesOf_failStaging (hc : c ≠ .other) (w : Work) (x : Cause) :
    (failStaging w x t).noticesOf c = t.noticesOf c := by
  simp only [failStaging]; split <;> simp [noticesOf_post, Notice.class, hc]
@[simp] theorem noticesOf_settled (hc : c ≠ .other) (n : SessionIx) :
    (settled n t).noticesOf c = t.noticesOf c := by
  simp [settled, noticesOf_post, Notice.class, hc]
@[simp] theorem noticesOf_beginStaging (hc : c ≠ .other) (x : SealedSet) (w : Work) :
    (beginStaging x w t).noticesOf c = t.noticesOf c := by
  have posted := noticesOf_postAll (t := t.withWork (some w)) hc
    (ns := ((touchedSlots x.items).filter t.bus.live.get).map fun k =>
      .busRequest .applyEngine (.stage k w.take (stageItems k x.items))) (List.forall_mem_map.2 fun _ _ => rfl)
  simp only [beginStaging]
  split
  · exact posted
  · rw [noticesOf_failStaging hc]; exact posted
@[simp] theorem noticesOf_stageAccepted (hc : c ≠ .other) (k : SlotIx) (n : Nat) :
    (stageAccepted k n t).noticesOf c = t.noticesOf c := by
  simp only [stageAccepted]; repeat' split
  all_goals simp [noticesOf_post, Notice.class, hc]
@[simp] theorem noticesOf_stageLost (hc : c ≠ .other) (n : Nat) (x : Cause) :
    (stageLost n x t).noticesOf c = t.noticesOf c := by
  unfold stageLost; split <;> simp [hc]
@[simp] theorem noticesOf_withdrawCommit (hc : c ≠ .other) (w : Work) (x : Cause) :
    (withdrawCommit w x t).noticesOf c = t.noticesOf c := by simp [withdrawCommit, noticesOf_post, Notice.class, hc]
@[simp] theorem noticesOf_slotLost (hc : c ≠ .other) (k : SlotIx) (n : Nat) :
    (slotLost k n t).noticesOf c = t.noticesOf c := by
  unfold slotLost; repeat' split
  all_goals simp [hc]
@[simp] theorem noticesOf_haltEngine (hc : c ≠ .other) :
    (haltEngine t).noticesOf c = t.noticesOf c := by
  unfold haltEngine; repeat' split
  all_goals simp [hc]
@[simp] theorem noticesOf_dropCaptures (hc : c ≠ .other) (n : SessionIx) :
    (dropCaptures n t).noticesOf c = t.noticesOf c := by
  simp only [dropCaptures]; split <;> simp [noticesOf_post, Notice.class, hc]
@[simp] theorem noticesOf_endSessionEngine (hc : c ≠ .other) (n : SessionIx) :
    (endSessionEngine n t).noticesOf c = t.noticesOf c := by
  unfold endSessionEngine; repeat' split
  all_goals simp [noticesOf_post, Notice.class, hc]
@[simp] theorem noticesOf_takeStrobe (hc : c ≠ .other) (w : Work) (n : Nat) (q : Bool) :
    (takeStrobe w n q t).noticesOf c = t.noticesOf c := by simp [takeStrobe, noticesOf_post, Notice.class, hc]
@[simp] theorem noticesOf_takeWithdrawn (hc : c ≠ .other) (w : Work) (a : CommitAnswer) :
    (takeWithdrawn w a t).noticesOf c = t.noticesOf c := by
  simp only [takeWithdrawn]; repeat' split
  all_goals simp [hc]
@[simp] theorem noticesOf_makeSetCapture (hc : c ≠ .other) (w : Work) (n : Nat) :
    (makeSetCapture w n t).noticesOf c = t.noticesOf c := by
  simp only [makeSetCapture]; split <;> simp [hc]
@[simp] theorem noticesOf_finishRecording (hc : c ≠ .other) (w : Work) :
    (finishRecording w t).noticesOf c = t.noticesOf c := by
  simp only [finishRecording]; repeat' split
  all_goals simp [hc]
@[simp] theorem noticesOf_keepEntry (hc : c ≠ .other) (e : CaptureEntry) :
    (keepEntry e t).noticesOf c = t.noticesOf c := by
  simp only [keepEntry]; split <;> simp [noticesOf_post, Notice.class, hc]
@[simp] theorem noticesOf_makeCapture (hc : c ≠ .other) (e : CaptureEntry) :
    (makeCapture e t).noticesOf c = t.noticesOf c := by
  simp only [makeCapture]; split
  · simp [hc]
  · rw [noticesOf_keepEntry hc]
    exact noticesOf_postAll hc (List.forall_mem_map.2 fun _ _ => rfl)
@[simp] theorem noticesOf_takeReadEnd (hc : c ≠ .other) (e : CaptureEntry) (k : SlotIx) (r : ReadEnd) :
    (takeReadEnd e k r t).noticesOf c = t.noticesOf c := by
  simp [takeReadEnd, hc]

/-! ### Trigger Unit -/

@[simp] theorem noticesOf_qualify (hc : c ≠ .other) (l : TrigLine) (n : Nat) :
    (qualify l n t).noticesOf c = t.noticesOf c := by
  simp only [qualify]; split <;> simp [noticesOf_post, Notice.class, hc]
@[simp] theorem noticesOf_transition (hc : c ≠ .other) (l : TrigLine) (x : Level) :
    (transition l x t).noticesOf c = t.noticesOf c := by
  simp only [transition]; repeat' split
  all_goals simp [hc]
@[simp] theorem noticesOf_requalify (hc : c ≠ .other) (l : TrigLine) :
    (requalify l t).noticesOf c = t.noticesOf c := by
  simp only [requalify]; repeat' split
  all_goals simp [hc]
@[simp] theorem noticesOf_haltFrom (hc : c ≠ .other) (x : HaltCause) :
    (haltFrom x t).noticesOf c = t.noticesOf c := by
  unfold haltFrom
  exact noticesOf_postAll hc (List.forall_mem_map.2 fun _ _ => rfl)
@[simp] theorem noticesOf_haltReport (hc : c ≠ .other) (x : Option HaltCause) (n : Option SessionIx) :
    (haltReport x n t).noticesOf c = t.noticesOf c := by
  unfold haltReport; split <;> simp [hc]
@[simp] theorem noticesOf_enterHalt (hc : c ≠ .other) (x : HaltCause) :
    (enterHalt x t).noticesOf c = t.noticesOf c := by simp [enterHalt, hc]

/-! ### Slot Controller -/

@[simp] theorem noticesOf_enterState (hc : c ≠ .other) (k : SlotIx) (b : Bool) (x : Slot) :
    (enterState k b x t).noticesOf c = t.noticesOf c := by simp [enterState, hc]
@[simp] theorem noticesOf_leavePowered (hc : c ≠ .other) (k : SlotIx) :
    (leavePowered k t).noticesOf c = t.noticesOf c := by
  simp only [leavePowered]; repeat' split
  all_goals simp [noticesOf_post, Notice.class, hc]
@[simp] theorem noticesOf_moveTo (hc : c ≠ .other) (k : SlotIx) (x : Slot) :
    (moveTo k x t).noticesOf c = t.noticesOf c := by
  unfold moveTo; split <;> simp [hc]
@[simp] theorem noticesOf_settle (hc : c ≠ .other) (k : SlotIx) :
    (settle k t).noticesOf c = t.noticesOf c := by
  simp [settle, hc]
@[simp] theorem noticesOf_faultSlot (hc : c ≠ .other) (k : SlotIx) (f : FaultReason) :
    (faultSlot k f t).noticesOf c = t.noticesOf c := by
  simp [faultSlot, hc]
@[simp] theorem noticesOf_identify (hc : c ≠ .other) (k : SlotIx) :
    (identify k t).noticesOf c = t.noticesOf c := by simp [identify, noticesOf_post, Notice.class, hc]
@[simp] theorem noticesOf_takePowerGood (hc : c ≠ .other) (k : SlotIx) :
    (takePowerGood k t).noticesOf c = t.noticesOf c := by
  unfold takePowerGood; split <;> simp [hc]
@[simp] theorem noticesOf_takeOvercurrent (hc : c ≠ .other) (k : SlotIx) :
    (takeOvercurrent k t).noticesOf c = t.noticesOf c := by
  unfold takeOvercurrent; split <;> simp [hc]
@[simp] theorem noticesOf_takeAsserted (hc : c ≠ .other) (k : SlotIx) :
    (takeAsserted k t).noticesOf c = t.noticesOf c := by
  simp only [takeAsserted]; repeat' split
  all_goals simp [hc]
@[simp] theorem noticesOf_powerUp (hc : c ≠ .other) (k : SlotIx) (r : Rail) :
    (powerUp k r t).noticesOf c = t.noticesOf c := by simp [powerUp, noticesOf_post, Notice.class, hc]
@[simp] theorem noticesOf_judge (hc : c ≠ .other) (k : SlotIx) :
    (judge k t).noticesOf c = t.noticesOf c := by
  unfold judge; split <;> simp [hc]
@[simp] theorem noticesOf_takeReading (hc : c ≠ .other) (k : SlotIx) :
    (takeReading k t).noticesOf c = t.noticesOf c := by
  simp only [takeReading]; repeat' split
  all_goals simp [hc]
@[simp] theorem noticesOf_becomeReady (hc : c ≠ .other) (hr : c ≠ .slotReady) (k : SlotIx) (d : Descriptor) (v : Option HeldValues) :
    (becomeReady k d v t).noticesOf c = t.noticesOf c := by simp [becomeReady, noticesOf_post, Notice.class, hc, hr]
@[simp] theorem noticesOf_takeDescriptor (hc : c ≠ .other) (hr : c ≠ .slotReady) (k : SlotIx) (bytes : List Byte) :
    (takeDescriptor k bytes t).noticesOf c = t.noticesOf c := by
  simp only [takeDescriptor]; repeat' split
  all_goals simp [noticesOf_post, Notice.class, hc, hr]
@[simp] theorem noticesOf_resetSlot (hc : c ≠ .other) (k : SlotIx) :
    (resetSlot k t).noticesOf c = t.noticesOf c := by
  unfold resetSlot; split <;> simp [hc]
@[simp] theorem noticesOf_drainClaims (hc : c ≠ .other) (hr : c ≠ .slotReady) (fuel : Nat) (k : SlotIx) :
    (drainClaims fuel k t).noticesOf c = t.noticesOf c := by
  have dropped (t : State) : (dropNotice (.slotToClaim k) t).noticesOf c = t.noticesOf c := noticesOf_dropNotice hc hr
  induction fuel generalizing t with
  | zero => rfl
  | succ f ih => simp only [drainClaims]; split <;> simp [ih, hc, dropped]
@[simp] theorem noticesOf_disableSlot (hc : c ≠ .other) (hr : c ≠ .slotReady) (k : SlotIx) :
    (disableSlot k t).noticesOf c = t.noticesOf c := by
  simp only [disableSlot]; split <;> simp [hc, hr]
/-! ### Module Bus Controller -/

theorem class_slotLostNotices (x : Txn) : ∀ n ∈ slotLostNotices x, n.class = .other := by
  unfold slotLostNotices; split <;> simp [Notice.class]
theorem class_failureNotices (x : Txn) : ∀ n ∈ failureNotices x, n.class = .other := by
  unfold failureNotices; split <;> simp [Notice.class]
theorem class_answerNotices (x : Txn) (bytes : List Byte) : ∀ n ∈ answerNotices x bytes, n.class = .other := by
  unfold answerNotices; split <;> simp [Notice.class]

@[simp] theorem noticesOf_issueStrobe (hc : c ≠ .other) (x : CommitReq) :
    (issueStrobe x t).noticesOf c = t.noticesOf c := by
  simp only [issueStrobe]; split <;> simp [noticesOf_post, Notice.class, hc]
@[simp] theorem noticesOf_serveCommit (hc : c ≠ .other) :
    (serveCommit t).noticesOf c = t.noticesOf c := by
  unfold serveCommit; split <;> simp [hc]
@[simp] theorem noticesOf_grantSafeAll (hc : c ≠ .other) :
    (grantSafeAll t).noticesOf c = t.noticesOf c := by
  simp only [grantSafeAll]; split <;> simp [noticesOf_post, Notice.class, hc]
@[simp] theorem noticesOf_startTransaction (hc : c ≠ .other) (x : Txn) :
    (startTransaction x t).noticesOf c = t.noticesOf c := by
  simp only [startTransaction]; split <;> simp [hc]
@[simp] theorem noticesOf_grantBus (hc : c ≠ .other) :
    (grantBus t).noticesOf c = t.noticesOf c := by
  simp only [grantBus]; repeat' split
  all_goals simp [hc]
@[simp] theorem noticesOf_takeBusRequest (hc : c ≠ .other) (x : Txn) :
    (takeBusRequest x t).noticesOf c = t.noticesOf c := by
  unfold takeBusRequest
  split
  · simp only
    split
    · rw [noticesOf_postAll hc (class_slotLostNotices x)]
    · simp [hc]
  · simp [hc]
@[simp] theorem noticesOf_takeCommitRequest (hc : c ≠ .other) (x : CommitReq) :
    (takeCommitRequest x t).noticesOf c = t.noticesOf c := by
  unfold takeCommitRequest; split <;> simp [noticesOf_post, Notice.class, hc]
@[simp] theorem noticesOf_takeWithdrawal (hc : c ≠ .other) (w : Withdrawn) :
    (takeWithdrawal w t).noticesOf c = t.noticesOf c := by
  unfold takeWithdrawal; repeat' split
  all_goals simp [noticesOf_post, Notice.class, hc]
@[simp] theorem noticesOf_withdrawNaming (hc : c ≠ .other) (k : SlotIx) :
    (withdrawNaming k t).noticesOf c = t.noticesOf c := by
  unfold withdrawNaming; repeat' split
  all_goals simp [noticesOf_post, Notice.class, hc]
@[simp] theorem noticesOf_takeLeftPowered (hc : c ≠ .other) (k : SlotIx) :
    (takeLeftPowered k t).noticesOf c = t.noticesOf c := by
  unfold takeLeftPowered; split
  · rw [noticesOf_withdrawNaming hc, noticesOf_postAll hc (by
      simpa using fun n y _ => class_slotLostNotices y n)]
    simp
  · rfl
@[simp] theorem noticesOf_endTransaction (hc : c ≠ .other) :
    (endTransaction t).noticesOf c = t.noticesOf c := by
  simp [endTransaction, hc]
@[simp] theorem noticesOf_noReply (hc : c ≠ .other) (p : InProgress) (k : SlotIx) :
    (noReply p k t).noticesOf c = t.noticesOf c := by
  unfold noReply; split
  · simp
  · have other : ∀ n ∈ failureNotices p.txn ++ [Notice.busFailure k], n.class = .other := by
      simpa [or_imp, forall_and, Notice.class] using class_failureNotices p.txn
    rw [noticesOf_endTransaction hc, noticesOf_postAll hc other]
    simp
@[simp] theorem noticesOf_takeReply (hc : c ≠ .other) (p : InProgress) (k : SlotIx) (bytes : List Byte) :
    (takeReply p k bytes t).noticesOf c = t.noticesOf c := by
  unfold takeReply; split
  · rw [noticesOf_endTransaction hc, noticesOf_postAll hc (class_answerNotices _ _)]
  · simp [hc]
/-! ### Session Table -/

@[simp] theorem noticesOf_beginTeardown (hc : c ≠ .other) (he : c ≠ .reportEnd) (x : EndingCause) (n : SessionIx) :
    (beginTeardown x n t).noticesOf c = t.noticesOf c := by
  simp only [beginTeardown]; repeat' split
  · rfl
  · rfl
  · have ends : (endBlocks.map fun b => Notice.sessionEnd b n).filter (fun m => m.class = c) = [] := by
      simp [endBlocks, Notice.class, he.symm, hc.symm]
    simp only [State.noticesOf, postAll, State.withNotices_notices, List.filter_append, ends, List.append_nil]
    exact noticesOf_withSession _ _
@[simp] theorem noticesOf_takeTeardownAnswer (hc : c ≠ .other) (b : AnswerBlock) (n : SessionIx) :
    (takeTeardownAnswer b n t).noticesOf c = t.noticesOf c := by
  simp only [takeTeardownAnswer]; repeat' split
  all_goals simp [noticesOf_post, Notice.class, hc]
@[simp] theorem noticesOf_closeRecord (hc : c ≠ .other) (n : SessionIx) :
    (closeRecord n t).noticesOf c = t.noticesOf c := by
  simp only [closeRecord]; repeat' split
  all_goals simp [hc]

/-! ### Link Ports -/

@[simp] theorem noticesOf_handAck (hc : c ≠ .other) (l : LinkId) (f : InFrame) :
    (handAck l f t).noticesOf c = t.noticesOf c := by
  unfold handAck; repeat' split
  all_goals simp [noticesOf_post, Notice.class, hc]
@[simp] theorem noticesOf_takeFrame (hc : c ≠ .other) (l : LinkId) (f : InFrame) :
    (takeFrame l f t).noticesOf c = t.noticesOf c := by
  simp only [takeFrame]; split <;> simp [hc]
@[simp] theorem noticesOf_arriveFrame (hc : c ≠ .other) (l : LinkId) (b : List Byte) :
    (arriveFrame l b t).noticesOf c = t.noticesOf c := by
  unfold arriveFrame; split <;> simp [hc]
@[simp] theorem noticesOf_receiveFrame (hc : c ≠ .other) (l : LinkId) (b : List Byte) :
    (receiveFrame l b t).noticesOf c = t.noticesOf c := by
  simp only [receiveFrame]; repeat' split
  all_goals simp [hc]
@[simp] theorem noticesOf_tellSent (hc : c ≠ .other) (l : LinkId) (f : OutFrame) :
    (tellSent l f t).noticesOf c = t.noticesOf c := by
  unfold tellSent; repeat' split
  all_goals simp [noticesOf_post, Notice.class, hc]

/-! ### Report Unit -/

@[simp] theorem noticesOf_retryExpired (hc : c ≠ .other) (n : SessionIx) (r : Session) (o : Outstanding) :
    (retryExpired n r o t).noticesOf c = t.noticesOf c := by
  unfold retryExpired; split <;> simp [noticesOf_post, Notice.class, hc]

end

end Sys2Proof.Machine
end


section
/-! PROOFS. What every operation of the Schedule and the Cycle Unit keeps: a property that a set's leaving, a set's
falling due, the take of the head and the few other moves of a set keep is kept by chains, cancellations, passes, ends of
cycles, outcomes and TAKE. -/

namespace Sys2Proof.Machine

/-! ### The moves -/

/-- A set as it waits for a due time. -/
def SealedSet.pendingAt (v : Nat) (x : SealedSet) : SealedSet := { x with state := .pending, dueTime := some v }

/-- A cycle member between two passes (R46). -/
def SealedSet.parkedAgain (x : SealedSet) : SealedSet := { x with state := .parked, dueTime := none }

/-- A set that the engine has taken (R48). -/
def SealedSet.taken (x : SealedSet) : SealedSet := { x with state := .applying }

/-- The set is not DUE with a due time, and so has no place on the Ready List. -/
def SealedSet.unlisted (x : SealedSet) : Prop := x.state = .due → x.dueTime = none

/-- The member list of a session's cycle. -/
def State.membersOf (s : State) (n : SessionIx) : List Nat := ((s.cycle n).map (·.members)).getD []

/-- A cycle record that takes its session's place lists no member that the session's cycle did not list before. -/
def Trims (s : State) (n : SessionIx) (c : Option Cycle) : Prop :=
  ∀ k, c = some k → k.members.Sublist (s.membersOf n)

/-- A property that every move of a set keeps: a set leaves (R51), falls due or waits for its due time (R42, R43, R46,
R91), is parked (R46) or is taken off the head of the Ready List (R48, R49). A property that has distinct ids (`strict`)
need keep the leaving and the falling due of live sets alone. -/
structure KeptByMoves (strict : Prop) (P : State → Prop) : Prop where
  ids : strict → ∀ {s}, P s → (s.sets.map (·.id)).Nodup
  posted : ∀ {s} (n : Notice), n.class = .other → P s → P (post n s)
  cycle : ∀ {s} (n : SessionIx) (c : Option Cycle), Trims s n c → P s → P (s.withCycle n c)
  armed : ∀ {s} (n : SessionIx) (b : Bool), P s → P (withArmed n b s)
  engine : ∀ {s} (e : Engine), P s → P (s.withEngine e)
  relabelled : ∀ {s} (f : SealedSet → SealedSet),
    (∀ x, ∃ m p, f x = { x with member := m, pass := p }) → P s → P (s.withSets (s.sets.map f))
  left : ∀ {s x}, (strict → x ∈ s.sets) → P s → P (removeSet x s)
  due : ∀ {s x} (v : Nat), (strict → x ∈ s.sets ∧ x.unlisted) → P s → P (makeDue x.id v s)
  pending : ∀ {s x} (v : Nat), (strict → x ∈ s.sets ∧ x.unlisted) → P s → P (changeSet x.id (SealedSet.pendingAt v) s)
  dueAgain : ∀ {s x} (v : Nat), x ∈ s.sets → P s →
    P (makeDue x.id v (s.withReady (s.schedule.ready.erase x.id)))
  pendingAgain : ∀ {s x} (v : Nat), x ∈ s.sets → P s →
    P (changeSet x.id (SealedSet.pendingAt v) (s.withReady (s.schedule.ready.erase x.id)))
  parked : ∀ {s x}, x ∈ s.sets → x.state = .applying → P s → P (changeSet x.id SealedSet.parkedAgain s)
  headGone : ∀ {s id rest}, s.schedule.ready = id :: rest → s.findSet id = none → P s → P (s.withReady rest)
  headLeft : ∀ {s x rest}, s.schedule.ready = x.id :: rest → x ∈ s.sets → P s → P (removeSet x (s.withReady rest))
  headParked : ∀ {s x rest}, s.schedule.ready = x.id :: rest → x ∈ s.sets → P s →
    P (changeSet x.id SealedSet.parkedAgain (s.withReady rest))
  headTaken : ∀ {s x rest}, s.schedule.ready = x.id :: rest → x ∈ s.sets → (∀ y ∈ s.sets, y.waiting = true) → P s →
    P (changeSet x.id SealedSet.taken (s.withReady rest))

theorem Trims.of_sublist {s : State} {n : SessionIx} {c k : Cycle} (h : s.cycle n = some c)
    (hk : k.members.Sublist c.members) : Trims s n (some k) := by
  rintro _ ⟨⟩
  simpa [State.membersOf, h] using hk

theorem Trims.refl {s : State} {n : SessionIx} {c : Cycle} (h : s.cycle n = some c) : Trims s n (some c) :=
  .of_sublist h (List.Sublist.refl _)

theorem Trims.none (s : State) (n : SessionIx) : Trims s n none := fun _ e => by cases e

/-! ### Live sets -/

/-- A set that is found is live and has the id. -/
theorem mem_of_findSet {s : State} {id : Nat} {x : SealedSet} (h : s.findSet id = some x) : x ∈ s.sets ∧ x.id = id :=
  ⟨List.mem_of_find?_eq_some h, by simpa using List.find?_some h⟩

theorem sets_removeSet (x : SealedSet) (s : State) : (removeSet x s).sets = s.sets.filter fun y => y.id ≠ x.id := rfl

theorem sets_post (n : Notice) (s : State) : (post n s).sets = s.sets := rfl

theorem sets_sessionReport (line : ReportLine) (n : SessionIx) (r : Report) (s : State) :
    (sessionReport line n r s).sets = s.sets := by
  unfold sessionReport; split <;> rfl

theorem sets_leaveSet (x : SealedSet) (o : SetOutcome) (r : Option ResultReason) (c : Option Nat) (s : State) :
    (leaveSet x o r c s).sets = s.sets.filter fun y => y.id ≠ x.id := by
  simp only [leaveSet, handResult, sets_sessionReport, sets_removeSet]

theorem sets_changeSet (id : Nat) (f : SealedSet → SealedSet) (s : State) :
    (changeSet id f s).sets = s.sets.map fun x => if x.id = id then f x else x := rfl

/-- A set that falls due keeps its id, and no other set changes. -/
theorem sets_fallDueAt (id v : Nat) (s : State) : ∃ f : SealedSet → SealedSet, (∀ x, (f x).id = x.id) ∧
    (∀ x, x.id ≠ id → f x = x) ∧ (fallDueAt id v s).sets = s.sets.map f := by
  unfold fallDueAt
  split
  · exact ⟨SealedSet.madeDue id v, SealedSet.madeDue_id id v, fun x hx => if_neg hx, rfl⟩
  · refine ⟨fun x => if x.id = id then x.pendingAt v else x, fun x => ?_, fun x hx => if_neg hx, rfl⟩
    dsimp only
    split <;> rfl

theorem sets_dropMember (n : SessionIx) (id : Nat) (s : State) : (dropMember n id s).sets = s.sets := by
  unfold dropMember; split <;> rfl

namespace KeptByMoves

variable {strict : Prop} {P : State → Prop} (K : KeptByMoves strict P) {s : State}
include K

/-! ### Reports -/

theorem sessionReport (line : ReportLine) (n : SessionIx) (r : Report) (h : P s) :
    P (sessionReport line n r s) := by
  unfold Machine.sessionReport
  split
  · exact K.posted _ rfl h
  · exact h

theorem handResult (x : SealedSet) (o : SetOutcome) (r : Option ResultReason) (p : Bool) (c : Option Nat) (h : P s) :
    P (handResult x o r p c s) := K.sessionReport _ _ _ h

theorem closeCycle (line : ReportLine) (n : SessionIx) (c : Cycle) (x : CycleEndReason)
    (m : Option (Nat × ResultReason)) (h : P s) : P (closeCycle line n c x m s) :=
  K.sessionReport _ _ _ (K.cycle n none (Trims.none _ _) h)

theorem dropMember (n : SessionIx) (id : Nat) (h : P s) : P (dropMember n id s) := by
  unfold Machine.dropMember
  split
  · next c hc => exact K.cycle _ _ (Trims.of_sublist hc List.erase_sublist) h
  · exact h

/-! ### Sets leave -/

theorem leaveSet {x : SealedSet} (hx : strict → x ∈ s.sets) (o : SetOutcome) (r : Option ResultReason) (c : Option Nat)
    (h : P s) : P (leaveSet x o r c s) := K.handResult _ _ _ _ _ (K.left hx h)

theorem breakChains (fuel : Nat) (work ex : List Nat) (h : P s) : P (breakChains fuel work ex s) := by
  induction fuel generalizing work s with
  | zero => exact h
  | succ f ih =>
    cases work with
    | nil => exact h
    | cons id rest =>
      simp only [Machine.breakChains]
      split
      · exact ih _ h
      · next x hx => exact ih _ (K.leaveSet (fun _ => (mem_of_findSet hx).1) _ _ _ h)

theorem breakChain (x : SealedSet) (ex : List Nat) (h : P s) : P (breakChain x ex s) := K.breakChains _ _ _ h

theorem cancelSet {x : SealedSet} (hx : x ∈ s.sets) (r : ResultReason) (ex : List Nat) (h : P s) :
    P (cancelSet x r ex s) := K.breakChain _ _ (K.dropMember _ _ (K.leaveSet (fun _ => hx) _ _ _ h))

omit K in
/-- A fold keeps what its function keeps. -/
theorem foldl {α : Type} (f : State → α → State) (xs : List α) (hf : ∀ u, P u → ∀ a ∈ xs, P (f u a)) (h : P s) :
    P (xs.foldl f s) := by
  induction xs generalizing s with
  | nil => exact h
  | cons a xs ih =>
    exact ih (fun u hu b hb => hf u hu b (List.mem_cons_of_mem _ hb)) (hf s h a List.mem_cons_self)

theorem cancelSets (ids : List Nat) (r : ResultReason) (h : P s) : P (cancelSets ids r s) := by
  refine foldl _ _ (fun u hu id _ => ?_) h
  split
  · next x hx =>
    split
    · exact K.cancelSet (mem_of_findSet hx).1 _ _ hu
    · exact hu
  · exact hu

theorem stopMembers (c : Cycle) (ex : List Nat) (h : P s) : P (stopMembers c ex s) := by
  refine foldl _ _ (fun u hu id _ => ?_) h
  split
  · next x hx =>
    split
    · exact K.cancelSet (mem_of_findSet hx).1 _ _ hu
    · exact hu
  · exact hu

theorem detachMembers (c : Cycle) (h : P s) : P (detachMembers c s) := by
  refine K.relabelled _ (fun x => ?_) h
  split
  · exact ⟨_, _, rfl⟩
  · exact ⟨_, _, rfl⟩

theorem endCycleEarly (n : SessionIx) (c : Cycle) (x : CycleEndReason) (id : Nat) (w : ResultReason) (ex : List Nat)
    (h : P s) : P (endCycleEarly n c x id w ex s) :=
  K.closeCycle _ _ _ _ _ (K.detachMembers _ (K.stopMembers _ _ h))

theorem cancelLost (r : ResultReason) (d : List Nat) (id : Nat) (h : P s) : P (cancelLost r d id s) := by
  simp only [Machine.cancelLost]
  split
  · exact h
  · next x hx =>
    have hc := K.cancelSet (mem_of_findSet hx).1 r d h
    split
    · exact K.endCycleEarly _ _ _ _ _ _ hc
    · exact hc

theorem queueCheck (n : SessionIx) (h : P s) : P (queueCheck s n) := by
  simp only [Machine.queueCheck]
  repeat' split
  · exact h
  · exact h
  · exact K.armed _ _ h
  · exact K.armed _ _ (K.sessionReport _ _ _ h)
  · exact h

theorem queueChecks (h : P s) : P (queueChecks s) := foldl _ _ (fun _ hu n _ => K.queueCheck n hu) h

theorem cancelLostAll (r : ResultReason) (lost : List LostChannel) (h : P s) : P (cancelLostAll r lost s) :=
  K.queueChecks (foldl _ _ (fun _ hu _ _ => K.cancelLost _ _ _ hu) h)

omit K in
/-- Sets of a list leave one after the other: with distinct ids each is still live when its turn comes. -/
theorem foldl_left (f : State → SealedSet → State) (xs : List SealedSet) (hx : strict → ∀ x ∈ xs, x ∈ s.sets)
    (hn : strict → (xs.map (·.id)).Nodup) (hf : ∀ u x, (strict → x ∈ u.sets) → P u → P (f u x))
    (hsets : ∀ u x, (f u x).sets = u.sets.filter fun y => y.id ≠ x.id) (h : P s) : P (xs.foldl f s) := by
  induction xs generalizing s with
  | nil => exact h
  | cons x xs ih =>
    refine ih (fun hs y hy => ?_) (fun hs => (List.nodup_cons.1 (hn hs)).2)
      (hf s x (fun hs => hx hs x List.mem_cons_self) h)
    rw [hsets, List.mem_filter]
    refine ⟨hx hs y (List.mem_cons_of_mem _ hy), decide_eq_true fun e => (List.nodup_cons.1 (hn hs)).1 ?_⟩
    exact List.mem_map.2 ⟨y, hy, e⟩

theorem cancelForHalt (h : P s) : P (cancelForHalt s) := by
  refine K.queueChecks (foldl_left _ _ (fun _ x hx => (List.mem_filter.1 hx).1)
    (fun hs => (K.ids hs h).sublist (List.filter_sublist.map _)) (fun u x hx hu => K.leaveSet hx _ _ _ hu)
    (fun u x => sets_leaveSet _ _ _ _ _) h)

theorem endSessionSchedule (n : SessionIx) (h : P s) : P (endSessionSchedule n s) := by
  refine K.armed _ _ (foldl_left _ _ (fun _ x hx => (List.mem_filter.1 hx).1)
    (fun hs => (K.ids hs h).sublist (List.filter_sublist.map _)) (fun u x hx hu => K.dropMember _ _ (K.left hx hu))
    (fun u x => (sets_dropMember _ _ _).trans (sets_removeSet x u)) h)

/-! ### Sets fall due -/

theorem fallDueAt {x : SealedSet} (v : Nat) (hx : strict → x ∈ s.sets ∧ x.unlisted) (h : P s) :
    P (fallDueAt x.id v s) := by
  unfold Machine.fallDueAt
  split
  · exact K.due v hx h
  · exact K.pending v hx h

omit K in
/-- The sets of some ids still wait without a due time after another one has fallen due. -/
theorem unlisted_fallDueAt {ids : List Nat} {id : Nat} (v : Nat) (hid : id ∉ ids)
    (hd : ∀ y ∈ s.sets, y.id ∈ ids → y.unlisted) : ∀ y ∈ (Machine.fallDueAt id v s).sets, y.id ∈ ids → y.unlisted := by
  obtain ⟨f, hf, hne, hs⟩ := sets_fallDueAt id v s
  rw [hs]
  intro y hy hm
  obtain ⟨w, hw, rfl⟩ := List.mem_map.1 hy
  rw [hf] at hm
  rw [hne w fun e => hid (e ▸ hm)]
  exact hd w hw hm

/-- Dependants wait without a due time, and each falls due once. -/
theorem resolveChain (x : SealedSet) (c : Nat) (h : P s) : P (resolveChain x c s) := by
  have hn : strict → (dependants x [] s).Nodup := fun hs => (K.ids hs h).sublist (List.filter_sublist.map _)
  have hd : strict → ∀ y ∈ s.sets, y.id ∈ dependants x [] s → y.unlisted := by
    intro hs y hy hm _
    obtain ⟨z, hz, he⟩ := List.mem_map.1 hm
    obtain ⟨hz, hc⟩ := List.mem_filter.1 hz
    obtain rfl := List.inj_on_of_nodup_map (K.ids hs h) hz hy he
    simp only [Bool.and_eq_true, Option.isNone_iff_eq_none] at hc
    exact hc.1.1.2
  unfold Machine.resolveChain
  revert hn hd
  generalize dependants x [] s = ids
  intro hn hd
  induction ids generalizing s with
  | nil => exact h
  | cons id ids ih =>
    have hne (hs : strict) : id ∉ ids := (List.nodup_cons.1 (hn hs)).1
    have hnd (hs : strict) : ids.Nodup := (List.nodup_cons.1 (hn hs)).2
    have hrest (hs : strict) : ∀ y ∈ s.sets, y.id ∈ ids → y.unlisted :=
      fun y hy hm => hd hs y hy (List.mem_cons_of_mem _ hm)
    rw [List.foldl_cons]
    split
    · next y hfound =>
      obtain ⟨hy, rfl⟩ := mem_of_findSet hfound
      split
      · exact ih (K.fallDueAt _ (fun hs => ⟨hy, hd hs y hy List.mem_cons_self⟩) h) hnd
          fun hs => unlisted_fallDueAt _ (hne hs) (hrest hs)
      · exact ih h hnd hrest
    · exact ih h hnd hrest

theorem fallDueAgain {x : SealedSet} (v : Nat) (hx : x ∈ s.sets) (h : P s) :
    P (Machine.fallDueAt x.id v (s.withReady (s.schedule.ready.erase x.id))) := by
  unfold Machine.fallDueAt
  split
  · exact K.dueAgain v hx h
  · exact K.pendingAgain v hx h

theorem startPass (n : SessionIx) {c : Cycle} (hc : Trims s n (some c)) (start : Nat) (h : P s) :
    P (startPass n c start s) := by
  refine foldl _ _ (fun u hu id _ => ?_) (K.cycle _ _ (fun _ e => by cases e; exact hc c rfl) h)
  split
  · next x hfound =>
    obtain ⟨hx, rfl⟩ := mem_of_findSet hfound
    split
    · exact K.fallDueAgain _ hx hu
    · exact hu
  · exact hu

theorem finishCycle (n : SessionIx) (c : Cycle) (x : CycleEndReason) (h : P s) : P (finishCycle n c x s) := by
  refine K.closeCycle _ _ _ _ _ (foldl _ _ (fun u hu y _ => K.breakChain _ _ hu) (foldl _ _ (fun u hu id _ => ?_) h))
  split
  · next y hy => exact K.left (fun _ => (mem_of_findSet hy).1) hu
  · exact hu

theorem memberParked (n : SessionIx) (id : Nat) (h : P s) : P (memberParked n id s) := by
  unfold Machine.memberParked
  split
  · exact h
  · next c hc =>
    split
    · split
      · split
        · exact K.startPass _ (Trims.refl hc) _ h
        · exact K.queueChecks (K.finishCycle _ _ _ h)
      · exact K.queueChecks (K.finishCycle _ _ _ h)
      · exact h
      · exact h
    · exact h

/-! ### Outcomes -/

theorem parkMember {x : SealedSet} (hx : x ∈ s.sets) (ha : x.state = .applying) (h : P s) : P (parkMember x s) :=
  K.posted _ rfl (K.parked hx ha h)

theorem endStoppedCycle (n : SessionIx) (h : P s) : P (endStoppedCycle n s) := by
  unfold Machine.endStoppedCycle
  split
  · exact K.closeCycle _ _ _ _ _ h
  · exact h

theorem takeApplied {x : SealedSet} (hx : x ∈ s.sets) (ha : x.state = .applying) (c : Nat) (h : P s) :
    P (takeApplied x c s) := by
  simp only [Machine.takeApplied]
  split
  · refine K.resolveChain _ _ (K.parkMember ?_ ha (K.handResult _ _ _ _ _ h))
    rw [Machine.handResult, sets_sessionReport]
    exact hx
  · have hl := K.resolveChain x c (K.leaveSet (fun _ => hx) .applied none (some c) h)
    split
    · exact K.endStoppedCycle _ hl
    · exact hl

theorem takeFailed {x : SealedSet} (hx : x ∈ s.sets) (r : ResultReason) (h : P s) : P (takeFailed x r s) := by
  have hl := K.breakChain x [] (K.leaveSet (fun _ => hx) .failed (some r) none h)
  simp only [Machine.takeFailed]
  split
  · split
    · exact K.endStoppedCycle _ hl
    · exact K.endCycleEarly _ _ _ _ _ _ (K.dropMember _ _ hl)
  · exact hl

theorem takeOutcome {x : SealedSet} (hx : x ∈ s.sets) (ha : x.state = .applying) (o : EngineOutcome) (h : P s) :
    P (takeOutcome x o s) := by
  have hr : P (removeApplying x s) := K.dropMember _ _ (K.left (fun _ => hx) h)
  unfold Machine.takeOutcome
  split
  · exact hr
  · split
    · exact K.takeApplied hx ha _ h
    · split
      · exact K.takeFailed hx _ h
      · exact hr
    · exact hr

/-! ### TAKE -/

omit K in
theorem handResult_withReady (x : SealedSet) (o : SetOutcome) (r : Option ResultReason) (p : Bool) (c : Option Nat)
    (ready : List Nat) :
    Machine.handResult x o r p c (s.withReady ready) = (Machine.handResult x o r p c s).withReady ready := by
  have hs : (s.withReady ready).session x.owner = s.session x.owner := rfl
  unfold Machine.handResult Machine.sessionReport
  rw [hs]
  split <;> rfl

theorem discardLate {x : SealedSet} {rest : List Nat} (hr : s.schedule.ready = x.id :: rest) (hx : x ∈ s.sets)
    (h : P s) : P (discardLate x (s.withReady rest)) := by
  unfold Machine.discardLate
  split
  · have hsame : (Machine.handResult x .discarded (some .late) true none s).schedule = s.schedule := by
      unfold Machine.handResult Machine.sessionReport; split <;> rfl
    rw [handResult_withReady]
    refine K.breakChain _ _ (K.posted _ rfl (K.headParked (rest := rest) ?_ ?_ (K.handResult x _ _ _ _ h)))
    · rw [hsame, hr]
    · rw [State.sets, hsame]; exact hx
  · exact K.breakChain _ _ (K.handResult _ _ _ _ _ (K.headLeft hr hx h))

theorem handOutcome (w : Work) (o : EngineOutcome) (h : P s) : P (handOutcome w o s) :=
  K.posted _ rfl (K.engine _ h)

theorem queueAbandon (w : Work) (h : P s) : P (queueAbandon w s) := by
  unfold Machine.queueAbandon
  split
  · exact h
  · exact K.posted _ rfl h

theorem failStaging (w : Work) (c : Cause) (h : P s) : P (failStaging w c s) := by
  have hp := K.posted (.withdraw (.stages w.take)) rfl h
  refine K.handOutcome _ _ ?_
  split
  · exact hp
  · exact K.queueAbandon _ hp

theorem postAll (ns : List Notice) (hn : ∀ n ∈ ns, n.class = .other) (h : P s) : P (postAll ns s) := by
  have : Machine.postAll ns s = ns.foldl (fun t n => post n t) s := by
    clear h hn
    induction ns generalizing s with
    | nil => simp [Machine.postAll, State.withNotices]
    | cons n ns ih => rw [List.foldl_cons, ← ih]; simp [Machine.postAll, post, State.withNotices]
  rw [this]
  exact foldl _ _ (fun u hu n hm => K.posted n (hn n hm) hu) h

theorem beginStaging (x : SealedSet) (w : Work) (h : P s) : P (beginStaging x w s) := by
  have hp := K.postAll (((touchedSlots x.items).filter s.bus.live.get).map fun k =>
    .busRequest .applyEngine (.stage k w.take (stageItems k x.items)))
    (List.forall_mem_map.2 fun _ _ => rfl) (K.engine { s.engine with work := some w } h)
  simp only [Machine.beginStaging]
  split
  · exact hp
  · exact K.failStaging _ _ hp

theorem beginApplying {x : SealedSet} {rest : List Nat} (hr : s.schedule.ready = x.id :: rest) (hx : x ∈ s.sets)
    (hw : ∀ y ∈ s.sets, y.waiting = true) (h : P s) : P (beginApplying x (s.withReady rest)) := by
  have hu := K.engine { s.engine with takes := s.engine.takes + 1 } (K.headTaken hr hx hw h)
  simp only [Machine.beginApplying]
  split
  · exact K.handOutcome _ _ hu
  · exact K.beginStaging _ _ hu

omit K in
theorem breakChains_sets (fuel : Nat) (work ex : List Nat) :
    ∀ y ∈ (Machine.breakChains fuel work ex s).sets, y ∈ s.sets := by
  induction fuel generalizing work s with
  | zero => exact fun y hy => hy
  | succ f ih =>
    cases work with
    | nil => exact fun y hy => hy
    | cons id rest =>
      simp only [Machine.breakChains]
      split
      · exact ih _
      · intro y hy
        have := ih _ y hy
        rw [sets_leaveSet] at this
        exact (List.mem_filter.1 this).1

omit K in
/-- A set that the late check discards leaves no set APPLYING that was not. -/
theorem waiting_discardLate {x : SealedSet} (hw : ∀ y ∈ s.sets, y.waiting = true) :
    ∀ y ∈ (Machine.discardLate x s).sets, y.waiting = true := by
  intro y hy
  unfold Machine.discardLate at hy
  split at hy
  · have hy := breakChains_sets _ _ _ y hy
    rw [sets_post, sets_changeSet, Machine.handResult, sets_sessionReport] at hy
    obtain ⟨z, hz, rfl⟩ := List.mem_map.1 hy
    split
    · rfl
    · exact hw z hz
  · have hy := breakChains_sets _ _ _ y hy
    rw [sets_leaveSet] at hy
    exact hw y (List.mem_filter.1 hy).1

theorem takeHeads (fuel : Nat) (hw : ∀ y ∈ s.sets, y.waiting = true) (h : P s) : P (takeHeads fuel s) := by
  induction fuel generalizing s with
  | zero => unfold Machine.takeHeads; exact h
  | succ f ih =>
    cases hr : s.schedule.ready with
    | nil => unfold Machine.takeHeads; simpa [hr] using h
    | cons id rest =>
      unfold Machine.takeHeads
      simp only [hr]
      cases hf : (s.withReady rest).findSet id with
      | none => exact ih hw (K.headGone hr hf h)
      | some x =>
        obtain ⟨hx, rfl⟩ := mem_of_findSet hf
        dsimp only
        split
        · exact ih (waiting_discardLate hw) (K.discardLate hr hx h)
        · exact K.beginApplying hr hx hw h

/-- The sets of the Schedule all wait when TAKE may take. -/
theorem take (h : P s) : P (if mayTake s && !s.schedule.ready.isEmpty then
    Machine.queueChecks (Machine.takeHeads s.schedule.ready.length s) else s) := by
  split
  · next hm =>
    simp only [mayTake, Bool.and_eq_true, List.all_eq_true] at hm
    exact K.queueChecks (K.takeHeads _ hm.1.1.2 h)
  · exact h

end KeptByMoves
end Sys2Proof.Machine
end


section
/-! PROOFS. What every command hands over: a command that does not deal with a class of notices leaves the notices of that
class as they are. -/

namespace Sys2Proof.Machine

/-! ### The commands that deal with a class -/

/-- The command may hand over or take notices of the class: the resets drop every notice; items return when a set leaves
the Schedule, session ends are told as a teardown begins, and a descriptor goes to the Claim Unit as its slot becomes
READY. -/
def dealsWith (i : Instr) (c : NoticeClass) : Prop :=
  match i with
  | .resetPerformed _ | .powerOnReset _ | .lineReset _ | .heldReset _ => True
  | .sessionClose _ | .leaseExpiry _ | .reportRetriesExhausted _ | .linkBreakNotice _ | .teardownNotice _ => c = .reportEnd
  | .slotDisable _ _ | .describeReply _ | .heldReadbackReply _ | .slotReady _ | .slotLeftReady _ => c = .slotReady
  | .release _ _ _ _ _ | .setCancel _ _ | .cycleEnd _ | .cycleStop _ _ | .sealTaken _ | .dueTimeExpiry _
  | .triggerEdge _ | .take | .outcome | .lostChannelsSchedule | .haltEntrySchedule | .sessionEndSchedule _
  | .memberParkedNotice _ | .haltEntryCycleUnit | .itemsReturn _ => c = .itemsReturn
  | _ => False

/-- The moves of sets hand over returned items and nothing else of a class. -/
theorem noticesOf_keptByMoves {c : NoticeClass} (hc : c ≠ .other) (hi : c ≠ .itemsReturn) (v : List Notice) :
    KeptByMoves False fun t => t.noticesOf c = v where
  ids h := h.elim
  posted n hn h := by simp [noticesOf_post, hn, hc, h]
  cycle n k _ h := by simpa using h
  armed n b h := by simpa using h
  engine e h := by simpa using h
  relabelled f _ h := by simpa using h
  left _ h := by simpa [removeSet, noticesOf_post, Notice.class, hi] using h
  due v _ h := by simpa [makeDue, joinReady, changeSet] using h
  pending v _ h := by simpa [changeSet] using h
  dueAgain v _ h := by simpa [makeDue, joinReady, changeSet] using h
  pendingAgain v _ h := by simpa [changeSet] using h
  parked _ _ h := by simpa [changeSet] using h
  headGone _ _ h := by simpa using h
  headLeft _ _ h := by simpa [removeSet, noticesOf_post, Notice.class, hi] using h
  headParked _ _ h := by simpa [changeSet] using h
  headTaken _ _ _ h := by simpa [changeSet] using h

@[simp] theorem noticesOf_makeDue {c : NoticeClass} (id v : Nat) (t : State) :
    (makeDue id v t).noticesOf c = t.noticesOf c := by simp [makeDue, joinReady, changeSet]

@[simp] theorem noticesOf_fallDueAt {c : NoticeClass} (id v : Nat) (t : State) :
    (fallDueAt id v t).noticesOf c = t.noticesOf c := by
  unfold fallDueAt; split <;> simp [changeSet]

/-! ### Requests -/

section
variable {c : NoticeClass} {s t : State}

@[simp] theorem noticesOf_bringIn (h : Header) (r : Request) : (bringIn h r t).noticesOf c = t.noticesOf c := by
  simp only [bringIn]; repeat' split
  all_goals simp

theorem noticesOf_runRequest {h : Header} {r : Request} {body : State → State}
    (hb : ∀ u, (body u).noticesOf c = u.noticesOf c) : (runRequest h r body t).noticesOf c = t.noticesOf c := by
  simp only [runRequest]; split <;> simp [hb]

theorem noticesOf_serve {v : Server} {h : Header} {r : Request} {body : SessionIx → State → State}
    (hb : ∀ n u, (body n u).noticesOf c = u.noticesOf c) (hu : serve v h r body s = .next t) :
    t.noticesOf c = s.noticesOf c := by
  cases hu
  refine noticesOf_runRequest fun u => ?_
  unfold takeRequest; repeat' split
  all_goals simp [hb]

end

section
variable {c : NoticeClass} {t : State} (hc : c ≠ .other)
include hc

theorem noticesOf_claimBody (h : Header) (a b p : Byte) (w : Half) (n : SessionIx) :
    (claimBody h a b p w n t).noticesOf c = t.noticesOf c := by
  simp only [claimBody]; repeat' split
  all_goals simp [hc]

theorem noticesOf_releaseBody (hi : c ≠ .itemsReturn) (h : Header) (a b x f : Byte) (n : SessionIx) :
    (releaseBody h a b x f n t).noticesOf c = t.noticesOf c := by
  have K := noticesOf_keptByMoves hc hi (t.noticesOf c)
  simp only [releaseBody]; repeat' split
  all_goals simp [hc, noticesOf_post, Notice.class, K.cancelLostAll]

theorem noticesOf_readbackBody (h : Header) (a b : Byte) (n : SessionIx) :
    (readbackBody h a b n t).noticesOf c = t.noticesOf c := by
  simp only [readbackBody]; repeat' split
  all_goals simp [hc]

theorem noticesOf_setAddBody (h : Header) (f : Byte) (is : List RawItem) (n : SessionIx) :
    (setAddBody h f is n t).noticesOf c = t.noticesOf c := by
  simp only [setAddBody]; repeat' split
  all_goals simp [hc]

theorem noticesOf_setCancelBody (hi : c ≠ .itemsReturn) (h : Header) (id : Half) (n : SessionIx) :
    (setCancelBody h id n t).noticesOf c = t.noticesOf c := by
  have K := noticesOf_keptByMoves hc hi (t.noticesOf c)
  simp only [setCancelBody]
  split
  · simpa using K.queueChecks (K.cancelSets _ _ rfl)
  · split
    · simp
    · next x hx =>
      repeat' split
      all_goals simp
      exact K.queueChecks (K.cancelSet (mem_of_findSet hx).1 _ _ rfl)

theorem noticesOf_cycleEndBody (hi : c ≠ .itemsReturn) (h : Header) (n : SessionIx) :
    (cycleEndBody h n t).noticesOf c = t.noticesOf c := by
  have K := noticesOf_keptByMoves hc hi (t.noticesOf c)
  unfold cycleEndBody
  split
  · simp
  · next k hk =>
    split
    · rw [noticesOf_answer]
      exact K.startPass n (.of_sublist (k := { k with phase := .running }) hk (List.Sublist.refl _)) _ rfl
    · simp

theorem noticesOf_cycleStopBody (hi : c ≠ .itemsReturn) (h : Header) (x : Byte) (n : SessionIx) :
    (cycleStopBody h x n t).noticesOf c = t.noticesOf c := by
  have K := noticesOf_keptByMoves hc hi (t.noticesOf c)
  have stopped (r : Request) (k : Cycle) : (stopNow h r n k t).noticesOf c = t.noticesOf c := by
    have hs : (stopMembers k [] t).noticesOf c = t.noticesOf c := K.stopMembers _ _ rfl
    simp only [stopNow]
    split
    · split
      · next j hj =>
        simpa using K.queueChecks (K.cycle n _ (.of_sublist (k := { j with phase := .stopping .now }) hj (List.Sublist.refl _)) hs)
      · exact K.queueChecks hs
    · simpa using K.queueChecks (K.closeCycle _ _ _ _ _ hs)
  simp only [cycleStopBody]; repeat' split
  all_goals simp [stopped]

theorem noticesOf_triggerConfigBody (h : Header) (l e g d x : Byte) (n : SessionIx) :
    (triggerConfigBody h l e g d x n t).noticesOf c = t.noticesOf c := by
  simp only [triggerConfigBody]; repeat' split
  all_goals simp [hc]

theorem noticesOf_haltNowBody (h : Header) (n : SessionIx) :
    (haltNowBody h n t).noticesOf c = t.noticesOf c := by
  simp only [haltNowBody]; repeat' split
  all_goals simp [hc]

theorem noticesOf_resumeBody (h : Header) (n : SessionIx) :
    (resumeBody h n t).noticesOf c = t.noticesOf c := by
  simp only [resumeBody]; repeat' split
  all_goals simp [hc]

theorem noticesOf_slotDisableBody (hr : c ≠ .slotReady) (h : Header) (k : Byte) (n : SessionIx) :
    (slotDisableBody h k n t).noticesOf c = t.noticesOf c := by
  simp only [slotDisableBody]; repeat' split
  all_goals simp [hc, hr]

theorem noticesOf_slotEnableBody (h : Header) (k : Byte) :
    (slotEnableBody h k t).noticesOf c = t.noticesOf c := by
  simp only [slotEnableBody]; repeat' split
  all_goals simp [hc]

theorem noticesOf_slotResetBody (h : Header) (k : Byte) :
    (slotResetBody h k t).noticesOf c = t.noticesOf c := by
  simp only [slotResetBody]; repeat' split
  all_goals simp [hc]

end

/-- A TIME_SET moves times in notices; the notices of a class carry none. -/
theorem shiftNotice_of_class {n : Notice} (h : n.class ≠ .other) (d : Int) : shiftNotice d n = n := by
  cases n <;> first | rfl | exact absurd rfl h

theorem class_shiftNotice (d : Int) (n : Notice) : (shiftNotice d n).class = n.class := by cases n <;> rfl

theorem filter_shiftNotice {c : NoticeClass} (hc : c ≠ .other) (d : Int) (ns : List Notice) :
    (ns.map (shiftNotice d)).filter (fun n => n.class = c) = ns.filter fun n => n.class = c := by
  have moved : (fun n => decide (n.class = c)) ∘ shiftNotice d = fun n => decide (n.class = c) :=
    funext fun n => by simp [class_shiftNotice]
  rw [List.filter_map, moved]
  refine (List.map_congr_left fun n hn => shiftNotice_of_class (fun e => hc ?_) d).trans (List.map_id' _)
  exact (of_decide_eq_true (List.mem_filter.1 hn).2).symm.trans e

theorem noticesOf_setTime {c : NoticeClass} (hc : c ≠ .other) (x : Nat) (t : State) :
    (setTime x t).noticesOf c = t.noticesOf c := filter_shiftNotice hc _ _

theorem noticesOf_timeSetBody {c : NoticeClass} (hc : c ≠ .other) (h : Header) (x : Time) (t : State) :
    (timeSetBody h x t).noticesOf c = t.noticesOf c := by
  simp only [timeSetBody]
  split <;> simp [noticesOf_setTime hc]

/-! ### Every command -/

/-- R36, R126, R155: a command that does not deal with a class of notices leaves them as they are. -/
theorem exec_noticesOf {c : NoticeClass} (hc : c ≠ .other) {i : Instr} {s t : State} (hd : ¬ dealsWith i c)
    (hu : exec i s = .next t) : t.noticesOf c = s.noticesOf c := by
  have served {v : Server} {h : Header} {r : Request} {body : SessionIx → State → State}
      (hb : ∀ n u, (body n u).noticesOf c = u.noticesOf c) (hu : serve v h r body s = .next t) :
      t.noticesOf c = s.noticesOf c := noticesOf_serve hb hu
  have noticed {lane : Lane} {f : Notice → State → Option State}
      (hl : c ≠ lane.carries) (hf : ∀ n u v, f n u = some v → v.noticesOf c = u.noticesOf c)
      (hu : (Host.Outcome.next (onNotice lane f s) : Host.Outcome State Fault Refusal) = .next t) :
      t.noticesOf c = s.noticesOf c := by cases hu; exact noticesOf_onNotice hc hl hf
  have moves (hi : c ≠ .itemsReturn) (u : State) := noticesOf_keptByMoves hc hi (u.noticesOf c)
  cases i
  case resetPerformed | powerOnReset | lineReset | heldReset => exact absurd trivial hd
  case sessionOpen h role x =>
    cases hu
    refine noticesOf_runRequest fun u => ?_
    simp only [sessionOpenBody]; repeat' split
    all_goals simp
  case setAdd h f is =>
    simp only [exec, execSetAdd] at hu
    split at hu
    · cases hu
    · split at hu
      · cases hu; rfl
      · exact served (fun n u => noticesOf_setAddBody hc h f is n) hu
  case sessionClose h => exact served (fun n u => by simp [sessionCloseBody, noticesOf_beginTeardown hc hd]) hu
  case timeSet => exact served (fun _ _ => noticesOf_timeSetBody hc _ _ _) hu
  case claim => exact served (fun _ _ => noticesOf_claimBody hc _ _ _ _ _ _) hu
  case release => exact served (fun _ _ => noticesOf_releaseBody hc hd _ _ _ _ _ _) hu
  case readback => exact served (fun _ _ => noticesOf_readbackBody hc _ _ _ _) hu
  case setCancel => exact served (fun _ _ => noticesOf_setCancelBody hc hd _ _ _) hu
  case cycleEnd => exact served (fun _ _ => noticesOf_cycleEndBody hc hd _ _) hu
  case cycleStop => exact served (fun _ _ => noticesOf_cycleStopBody hc hd _ _ _) hu
  case triggerConfig => exact served (fun _ _ => noticesOf_triggerConfigBody hc _ _ _ _ _ _ _) hu
  case haltNow => exact served (fun _ _ => noticesOf_haltNowBody hc _ _) hu
  case resume => exact served (fun _ _ => noticesOf_resumeBody hc _ _) hu
  case slotDisable => exact served (fun _ _ => noticesOf_slotDisableBody hc hd _ _ _) hu
  case slotEnable => exact served (fun _ _ => noticesOf_slotEnableBody hc _ _) hu
  case slotReset => exact served (fun _ _ => noticesOf_slotResetBody hc _ _) hu
  case sessionConfig | deviceStatus | deviceReset | linkStatus | deviceConfig | timeGet | channelRead
     | channelConfig | setOpen | setDiscard | setList | cycleBegin | cycleStatus | syncConfig | triggerStatus
     | slotStatus =>
    refine served (fun n u => noticesOf_quiet ?_) hu
    simp
  case frameReceived =>
    simp only [exec, execFrameReceived] at hu
    split at hu <;> cases hu
    simp [hc]
  case teardownNotice | itemsReturn =>
    refine noticed ?_ (fun n u v hv => ?_) hu
    · exact hd
    repeat' split at hv
    all_goals cases hv
    all_goals simp
  case outcome =>
    refine noticed (by simp [Lane.carries, hc]) (fun n u v hv => ?_) hu
    have K := moves hd u
    split at hv
    · split at hv <;> cases hv
      · next x hx =>
        have ha := List.find?_some hx
        simp only [Bool.and_eq_true, decide_eq_true_eq] at ha
        exact K.queueChecks (K.takeOutcome (List.mem_of_find?_eq_some hx) ha.2 _ rfl)
      · rfl
    · cases hv
  case sealTaken =>
    have sealed (n : SessionIx) (o : OpenSet) (u : State) : (sealSet n o u).noticesOf c = u.noticesOf c := by
      refine (moves hd u).queueChecks ?_
      unfold placeSealed
      repeat' split
      all_goals simp
    refine noticed (by simp [Lane.carries, hc]) (fun n u v hv => ?_) hu
    repeat' split at hv
    all_goals cases hv
    · simp only [takeSeal]; repeat' split
      all_goals simp [sealed]
    · rfl
    · rfl
  case triggerEdge =>
    refine noticed (by simp [Lane.carries, hc]) (fun n u v hv => ?_) hu
    split at hv <;> cases hv
    unfold takeEdge releaseOldest
    repeat' split
    all_goals simp
  case memberParkedNotice n =>
    refine noticed (by simp [Lane.carries, hc]) (fun n u v hv => ?_) hu
    split at hv <;> cases hv
    exact (moves hd u).memberParked _ _ rfl
  case lostChannelsSchedule =>
    refine noticed (by simp [Lane.carries, hc]) (fun n u v hv => ?_) hu
    split at hv <;> cases hv
    exact (moves hd u).cancelLostAll _ _ rfl
  case haltEntrySchedule =>
    refine noticed (by simp [Lane.carries, hc]) (fun n u v hv => ?_) hu
    cases hv
    exact (moves hd u).cancelForHalt rfl
  case sessionEndSchedule =>
    refine noticed (by simp [Lane.carries, hc]) (fun n u v hv => ?_) hu
    cases hv
    simpa [noticesOf_post, Notice.class, hc] using (moves hd u).endSessionSchedule _ rfl
  case haltEntryCycleUnit =>
    refine noticed (by simp [Lane.carries, hc]) (fun n u v hv => ?_) hu
    cases hv
    refine noticesOf_foldl _ _ fun w m => ?_
    unfold haltCycle
    split
    · exact (moves hd w).closeCycle _ _ _ _ _ (by simp [detachForHalt])
    · rfl
  case take => 
    cases hu
    exact (moves hd s).take rfl
  case dueTimeExpiry =>
    cases hu
    repeat' split
    all_goals simp
  case slotReady | slotLeftReady =>
    refine noticed ?_ (fun n u v hv => ?_) hu
    · exact hd
    split at hv <;> cases hv
    simp [hc]
  case describeReply =>
    refine noticed (by simp [Lane.carries, hc]) (fun n u v hv => ?_) hu
    split at hv <;> cases hv
    split
    · exact noticesOf_takeDescriptor hc hd _ _
    · rfl
  case heldReadbackReply =>
    refine noticed (by simp [Lane.carries, hc]) (fun n u v hv => ?_) hu
    split at hv <;> cases hv
    repeat' split
    · exact noticesOf_becomeReady hc hd _ _ _
    · rfl
    · rfl
  case linkBreakNotice =>
    refine noticed (by simp [Lane.carries, hc]) (fun n u v hv => ?_) hu
    cases hv
    exact noticesOf_foldl _ _ fun _ _ => noticesOf_beginTeardown hc hd _ _
  case reportRetriesExhausted =>
    refine noticed (by simp [Lane.carries, hc]) (fun n u v hv => ?_) hu
    repeat' split at hv
    all_goals cases hv
    · exact noticesOf_beginTeardown hc hd _ _
    all_goals rfl
  case leaseExpiry =>
    cases hu
    repeat' split
    all_goals simp [noticesOf_beginTeardown hc hd]
  case lostChannelsSetAssembler =>
    refine noticed (by simp [Lane.carries, hc]) (fun n u v hv => ?_) hu
    split at hv <;> cases hv
    exact noticesOf_foldl _ _ fun _ _ => noticesOf_spoil _ _
  case commitRecords =>
    refine noticed (by simp [Lane.carries, hc]) (fun n u v hv => ?_) hu
    split at hv <;> cases hv
    simpa [noticesOf_post, Notice.class, hc] using noticesOf_foldl _ _ fun _ _ => noticesOf_takeRecord _ _
  case busRequest r =>
    refine noticed (by cases r <;> simp [Lane.carries, requesterLane, hc]) (fun n u v hv => ?_) hu
    repeat' split at hv
    all_goals cases hv
    all_goals simp [hc]
  case teardownAnswer | sessionRecordClose | sessionEndSetAssembler | sessionEndCycleUnit | sessionEndApplyEngine
     | sessionEndWaitEntries | sessionEndClaimUnit | reportHandover | endOfTransmissionNotice
     | ack | stageAcceptance | stageFailure
     | stageSlotLost | slotLostNotice | haltEntryApplyEngine | strobeAnswer | withdrawnAnswer
     | commitRecordsTaken | captureReadbackEnd | captureItems
     | haltEntryClaimUnit | safeAllValues | syncCommitNotice | busFailureNotice
     | sessionEndLinkPort | commitRequest | withdrawal | slotPoweredNotice | leftPoweredNotice
     | haltEntryBusController =>
    refine noticed (by simp [Lane.carries, hc]) (fun n u v hv => ?_) hu
    repeat' split at hv
    all_goals cases hv
    all_goals simp [hc, noticesOf_post, Notice.class]
  all_goals
    cases hu
    repeat' split
    all_goals simp [hc, noticesOf_post, Notice.class]

end Sys2Proof.Machine
end


section
/-! PROOFS. What every command leaves of a session record: role and link never change while a session is OPEN, a teardown
that has begun goes on, and only the commands that move items change the items in use (R36, R149, R154). -/

namespace Sys2Proof.Machine

/-! ### Session records -/

/-- What is kept of an OPEN session's record, and, where `use` holds, of its account in the Item Pool too. -/
structure SessionKept (use : Prop) (r k : Session) : Prop where
  role : k.role = r.role
  link : k.link = r.link
  incarnation : k.incarnation = r.incarnation
  ending : r.ending ≠ none → k.ending ≠ none
  inUse : use → k.inUse = r.inUse
  quota : use → r.inUse ≤ r.quota → k.inUse ≤ k.quota

/-- No session is opened or closed, and of every record `SessionKept` holds. -/
def SessionsKept (use : Prop) (s t : State) : Prop := ∀ n, Option.Rel (SessionKept use) (s.session n) (t.session n)

section
variable {use : Prop} {s t u : State}

theorem SessionKept.refl (r : Session) : SessionKept use r r := ⟨rfl, rfl, rfl, id, fun _ => rfl, fun _ => id⟩

theorem SessionKept.trans {r k j : Session} (h : SessionKept use r k) (h' : SessionKept use k j) : SessionKept use r j :=
  ⟨h'.role.trans h.role, h'.link.trans h.link, h'.incarnation.trans h.incarnation, fun e => h'.ending (h.ending e),
    fun e => (h'.inUse e).trans (h.inUse e), fun e q => h'.quota e (h.quota e q)⟩

namespace SessionsKept

theorem of_session (h : ∀ n, t.session n = s.session n) : SessionsKept use s t := by
  intro n
  rw [h]
  cases s.session n with
  | none => exact .none
  | some r => exact .some (.refl r)

theorem of_eq (h : t.sessions = s.sessions) : SessionsKept use s t := of_session fun n => by simp only [State.session, h]

theorem refl (s : State) : SessionsKept use s s := of_eq rfl

theorem trans (h : SessionsKept use s t) (h' : SessionsKept use t u) : SessionsKept use s u := by
  intro n
  have h1 := h n
  have h2 := h' n
  generalize s.session n = a at *
  generalize t.session n = b at *
  generalize u.session n = c at *
  cases h1 with
  | none => exact h2
  | some e => cases h2 with | some e' => exact .some (e.trans e')

/-- What does not touch the Session Table. -/
theorem of_only {ps : List Part} (hp : .sessions ∉ ps) (h : OnlyChanges ps s t) : SessionsKept use s t :=
  of_eq (h .sessions hp)

theorem some (h : SessionsKept use s t) {n : SessionIx} {r : Session} (hr : s.session n = .some r) :
    ∃ k, t.session n = .some k ∧ SessionKept use r k := by
  have := h n
  rw [hr] at this
  generalize t.session n = k at *
  cases this with | some e => exact ⟨_, rfl, e⟩

theorem some' (h : SessionsKept use s t) {n : SessionIx} {k : Session} (hk : t.session n = .some k) :
    ∃ r, s.session n = .some r ∧ SessionKept use r k := by
  have := h n
  rw [hk] at this
  generalize s.session n = r at *
  cases this with | some e => exact ⟨_, rfl, e⟩

theorem none (h : SessionsKept use s t) {n : SessionIx} (hn : s.session n = .none) : t.session n = .none := by
  have := h n
  rw [hn] at this
  generalize t.session n = k at *
  cases this; rfl

/-- One session's record is changed. -/
theorem withSession {n : SessionIx} {r k : Session} (hr : s.session n = .some r) (h : SessionKept use r k) :
    SessionsKept use s (s.withSession n (.some k)) := by
  intro m
  rw [State.session_withSession]
  split
  · next e => subst e; rw [hr]; exact .some h
  · exact refl s m

theorem foldl {α : Type} (f : State → α → State) (xs : List α) (hf : ∀ u a, SessionsKept use u (f u a)) :
    SessionsKept use s (xs.foldl f s) := by
  induction xs generalizing s with
  | nil => exact refl s
  | cons a xs ih => exact (hf s a).trans ih

theorem ite {p : Prop} [Decidable p] {a b : State} (ha : p → SessionsKept use s a) (hb : ¬ p → SessionsKept use s b) :
    SessionsKept use s (if p then a else b) := by
  split
  · exact ha ‹_›
  · exact hb ‹_›

end SessionsKept

/-! ### Operations of the Session Table -/

theorem sessionsKept_refreshLease (l : LinkId) (b : Byte) (s : State) : SessionsKept use s (refreshLease l b s) := by
  obtain h | ⟨n, r, -, hr, -, -, h⟩ := refreshLease_cases l b s
  · exact .of_eq (congrArg _ h)
  · rw [h]
    exact .withSession hr ⟨rfl, rfl, rfl, id, fun _ => rfl, fun _ => id⟩

theorem sessionsKept_beginTeardown (x : EndingCause) (n : SessionIx) (s : State) :
    SessionsKept use s (beginTeardown x n s) := by
  unfold beginTeardown
  split
  · exact .refl s
  · next r hr =>
    split
    · exact .refl s
    · refine (SessionsKept.withSession (k := { r with ending := some _, deadline := none }) hr
        ⟨rfl, rfl, rfl, fun _ => ?_, fun _ => rfl, fun _ => id⟩).trans (.of_eq rfl)
      exact fun e => by cases e

theorem sessionsKept_takeTeardownAnswer (b : AnswerBlock) (n : SessionIx) (s : State) :
    SessionsKept use s (takeTeardownAnswer b n s) := by
  unfold takeTeardownAnswer
  split
  · exact .refl s
  · next r hr =>
    split
    · exact .refl s
    · next e he =>
      have kept : SessionsKept use s (s.withSession n (some { r with ending := some (e.note b) })) :=
        .withSession hr ⟨rfl, rfl, rfl, fun _ => by simp, fun _ => rfl, fun _ => id⟩
      exact .ite (fun _ => kept.trans (.of_eq rfl)) fun _ => kept

theorem sessionsKept_changeInUse (hn : ¬ use) (n : SessionIx) (f : Nat → Nat) (s : State) :
    SessionsKept use s (changeInUse n f s) := by
  unfold changeInUse
  split
  · next r hr => exact .withSession hr ⟨rfl, rfl, rfl, id, fun e => absurd e hn, fun e => absurd e hn⟩
  · exact .refl s

theorem sessionsKept_takeItems (hn : ¬ use) (n : SessionIx) (o : OpenSet) (is : List Item) (s : State) :
    SessionsKept use s (takeItems n o is s) :=
  (SessionsKept.of_eq rfl).trans (sessionsKept_changeInUse hn n _ (changePool (· - is.length) (s.withOpenSet n _)))

theorem sessionsKept_discardOpenSet (hn : ¬ use) (n : SessionIx) (o : OpenSet) (s : State) :
    SessionsKept use s (discardOpenSet n o s) :=
  (SessionsKept.of_eq rfl).trans (sessionsKept_changeInUse hn n _ (changePool (· + o.items.length) (s.withOpenSet n _)))

theorem sessionsKept_tellSent (l : LinkId) (f : OutFrame) (s : State) : SessionsKept use s (tellSent l f s) := by
  unfold tellSent
  repeat' split
  · exact .of_session fun _ => rfl
  · exact .refl s
  · exact .of_eq rfl

theorem sessionsKept_takeFrame (l : LinkId) (f : InFrame) (s : State) : SessionsKept use s (takeFrame l f s) := by
  refine (sessionsKept_refreshLease l f.session s).trans (.of_only (ps := [.linkA, .linkB, .notices]) (by simp) ?_)
  have hl : linkPart l ∈ [Part.linkA, .linkB, .notices] := linkPart_mem (by simp) (by simp) l
  simp only [takeFrame]
  split <;> simp [hl]

theorem sessionsKept_receiveFrame (l : LinkId) (b : List Byte) (s : State) : SessionsKept use s (receiveFrame l b s) := by
  have link (k : Link) : SessionsKept use s (s.withLink l k) := by cases l <;> exact .of_eq rfl
  have arrive : SessionsKept use s (arriveFrame l b s) :=
    .ite (fun _ => sessionsKept_takeFrame l _ s) fun _ => link _
  simp only [receiveFrame]
  repeat' split
  · exact (link _).trans (sessionsKept_takeFrame _ _ _)
  · exact .refl s
  · exact arrive
  · exact .refl s
  · exact .refl s

theorem sessionsKept_setTime (x : Nat) (s : State) : SessionsKept use s (setTime x s) := by
  intro n
  have hr : (setTime x s).session n = (s.session n).map (shiftLease (x - s.clock.rig)) := by
    simp [setTime, shiftSessions, State.session, shiftTrigger, shiftEngine, shiftSets, shiftClaims, State.withSets]
  rw [hr]
  cases s.session n with
  | none => exact .none
  | some r =>
    refine .some ?_
    unfold shiftLease
    split
    · next he => exact ⟨rfl, rfl, rfl, fun e => absurd he e, fun _ => rfl, fun _ => id⟩
    · exact .refl r

/-! ### Requests -/

theorem sessionsKept_bringIn (h : Header) (r : Request) (s : State) : SessionsKept use s (bringIn h r s) := by
  have link {u v : State} (hl : OnlyChanges [linkPart h.link] u v) : SessionsKept use u v :=
    .of_only (by cases h.link <;> simp [linkPart]) hl
  simp only [bringIn]
  repeat' split
  · exact (sessionsKept_refreshLease h.link h.session s).trans (link (by simp))
  · exact link (by simp)
  · exact .refl s
  · exact .refl s

theorem sessionsKept_runRequest {h : Header} {r : Request} {body : State → State}
    (hb : ∀ u, SessionsKept use u (body u)) : SessionsKept use s (runRequest h r body s) :=
  .ite (fun _ => (sessionsKept_bringIn h r s).trans (hb _)) fun _ => sessionsKept_bringIn h r s

theorem sessionsKept_serve {v : Server} {h : Header} {r : Request} {body : SessionIx → State → State}
    (hb : ∀ n u, SessionsKept use u (body n u)) (hu : serve v h r body s = .next t) : SessionsKept use s t := by
  cases hu
  refine sessionsKept_runRequest fun u => ?_
  have refused (x : Reason) : SessionsKept use u (refuse h r x u) :=
    .of_only (ps := [linkPart h.link]) (by cases h.link <;> simp [linkPart]) (by simp)
  unfold takeRequest
  repeat' split
  · exact refused _
  · exact refused _
  · exact hb _ u
  · exact refused _

theorem sessionsKept_onNotice {lane : Lane} {f : Notice → State → Option State}
    (hf : ∀ n u v, f n u = some v → SessionsKept use u v) : SessionsKept use s (onNotice lane f s) := by
  obtain h | ⟨n, u, -, hu, h⟩ := onNotice_cases lane f s
  · exact .of_eq (congrArg _ h)
  · rw [h]
    exact (SessionsKept.of_eq (t := dropNotice lane s) rfl).trans (hf n _ u hu)

end

/-! ### SET_ADD -/

/-- R24 to R28: a SET_ADD is answered with nothing taken, or its items, which keep to the set's size, the quota and the
pool, are taken and it is answered or asks for the seal. -/
theorem setAddBody_cases (h : Header) (f : Byte) (is : List RawItem) (n : SessionIx) (u : State) :
    (∃ a, setAddBody h f is n u = answer h (.setAdd f is) a u) ∨
    ∃ o, u.openSet n = some o ∧ o.items.length + is.length ≤ 32 ∧ u.itemsInUse n + is.length ≤ quotaOf n u ∧
      is.length ≤ u.assembler.poolFree ∧
      (setAddBody h f is n u = askSeal h (.setAdd f is) n is.length (takeItems n o (is.filterMap itemOf) u) ∨
        ∃ a, setAddBody h f is n u = answer h (.setAdd f is) a (takeItems n o (is.filterMap itemOf) u)) := by
  simp only [setAddBody]
  repeat' split
  case h_2.isFalse.isFalse.isTrue =>
    exact .inr ⟨_, ‹_›, by omega, by omega, by omega, .inl rfl⟩
  case h_2.isFalse.isFalse.isFalse =>
    exact .inr ⟨_, ‹_›, by omega, by omega, by omega, .inr ⟨_, rfl⟩⟩
  all_goals exact .inl ⟨_, rfl⟩

/-! ### Every command -/

/-- The command opens or closes session records, or starts the part anew. -/
def opensOrCloses (i : Instr) : Prop :=
  match i with
  | .resetPerformed _ | .powerOnReset _ | .lineReset _ | .heldReset _ | .sessionOpen _ _ _ | .sessionRecordClose _ => True
  | _ => False

/-- The command changes the items in use of a session (R36). -/
def movesItems (i : Instr) : Prop :=
  match i with
  | .setAdd _ _ _ | .setDiscard _ | .sessionEndSetAssembler _ | .itemsReturn _ => True
  | _ => False

/-- R149, R154, R157: what every command keeps of the session records. -/
theorem exec_sessionsKept {use : Prop} {i : Instr} {s t : State} (ho : ¬ opensOrCloses i) (hm : use → ¬ movesItems i)
    (hu : exec i s = .next t) : SessionsKept use s t := by
  have served {v : Server} {h : Header} {r : Request} {body : SessionIx → State → State}
      (hb : ∀ n u, SessionsKept use u (body n u)) (hu : serve v h r body s = .next t) : SessionsKept use s t :=
    sessionsKept_serve hb hu
  have framed (hi : Part.sessions ∉ touches i) (hj : ∀ h r, i ≠ commandOf h r) : SessionsKept use s t :=
    .of_only hi (exec_changes (fun p hp => hp) (fun ⟨h, r, e, _⟩ => absurd e (hj h r)) hu)
  have others {u v : State} (hv : OnlyChanges (everyPartBut .sessions) u v) : SessionsKept use u v := .of_only (by simp) hv
  cases i
  case resetPerformed | powerOnReset | lineReset | heldReset | sessionOpen | sessionRecordClose => exact absurd trivial ho
  case setAdd h f is =>
    have hn : ¬ use := fun e => hm e trivial
    simp only [exec, execSetAdd] at hu
    split at hu
    · cases hu
    · split at hu
      · cases hu; exact .refl s
      · refine served (fun n u => ?_) hu
        obtain ⟨a, e⟩ | ⟨o, -, -, -, -, e | ⟨a, e⟩⟩ := setAddBody_cases h f is n u
        · exact e ▸ others (by simp)
        all_goals
          rw [e]
          exact (sessionsKept_takeItems hn n o (is.filterMap itemOf) u).trans (others (by simp))
  case setDiscard =>
    refine served (fun n u => ?_) hu
    unfold setDiscardBody
    split
    · exact others (by simp)
    · next o _ => exact (sessionsKept_discardOpenSet (fun e => hm e trivial) n o u).trans (others (by simp))
  case sessionEndSetAssembler m =>
    cases hu
    refine sessionsKept_onNotice fun n u v hv => ?_
    cases hv
    unfold endSessionAssembler
    split
    · next o _ => exact (sessionsKept_discardOpenSet (fun e => hm e trivial) m o u).trans (others (by simp))
    · exact others (by simp)
  case itemsReturn m =>
    cases hu
    refine sessionsKept_onNotice fun n u v hv => ?_
    split at hv <;> cases hv
    next k =>
    exact (SessionsKept.of_eq (t := changePool (· + k) u) rfl).trans
      (sessionsKept_changeInUse (fun e => hm e trivial) m _ _)
  case timeSet h x =>
    refine served (fun n u => ?_) hu
    simp only [timeSetBody]
    split
    · exact others (by simp)
    · exact (sessionsKept_setTime x.toNat u).trans (others (by simp))
  case sessionConfig h x =>
    refine served (fun n u => ?_) hu
    simp only [sessionConfigBody]
    repeat' split
    · exact .refl u
    · exact others (by simp)
    · exact others (by simp)
    · next k hk _ hq =>
      refine (SessionsKept.withSession (k := k.withSettings (settingsOf x) u.clock.rig) hk
        ⟨rfl, rfl, rfl, id, fun _ => rfl, fun _ h => ?_⟩).trans (others (by simp))
      cases e : (settingsOf x).quota with
      | none => simpa [Session.withSettings, e] using h
      | some q => simpa [Session.withSettings, e] using hq
  case sessionClose =>
    refine served (fun n u => ?_) hu
    exact (sessionsKept_beginTeardown .close n u).trans
      (others (by simp [sessionCloseBody]))
  case deviceReset =>
    refine served (fun n u => ?_) hu
    unfold deviceResetBody
    repeat' split
    · exact others (by simp)
    · exact others (by simp)
    · next k _ _ _ =>
      exact (SessionsKept.of_session (t := u.withSessions { u.sessions with resetPending := some k }) fun _ => rfl).trans
        (others (by simp))
  case frameReceived =>
    simp only [exec, execFrameReceived] at hu
    split at hu <;> cases hu
    exact sessionsKept_receiveFrame _ _ s
  case frameSent l =>
    cases hu
    split
    · next x _ => exact (sessionsKept_tellSent l x.frame s).trans (others (by simp))
    · exact .refl s
  case leaseExpiry =>
    cases hu
    repeat' split
    · exact sessionsKept_beginTeardown _ _ s
    all_goals exact .refl s
  case reportRetriesExhausted =>
    cases hu
    refine sessionsKept_onNotice fun n u v hv => ?_
    repeat' split at hv
    all_goals cases hv
    · exact sessionsKept_beginTeardown _ _ u
    all_goals exact .refl u
  case linkBreakNotice =>
    cases hu
    refine sessionsKept_onNotice fun n u v hv => ?_
    cases hv
    exact .foldl _ _ fun w m => sessionsKept_beginTeardown _ _ w
  case teardownAnswer =>
    cases hu
    refine sessionsKept_onNotice fun n u v hv => ?_
    split at hv <;> cases hv
    exact sessionsKept_takeTeardownAnswer _ _ u
  case deviceStatus | linkStatus | deviceConfig | timeGet | channelRead
     | channelConfig | setOpen | setList | cycleBegin | cycleStatus | syncConfig | triggerStatus
     | slotStatus | claim | release | readback | setCancel | cycleEnd | cycleStop | triggerConfig | haltNow | resume
     | slotDisable | slotEnable | slotReset =>
    refine served (fun n u => .of_only (ps := everyPartBut .sessions) ?_ ?_) hu
    · simp
    · simp
  all_goals exact framed (by simp [touches]) fun h r => by cases r <;> nofun
end Sys2Proof.Machine
end


section
/-! PROOFS. Properties of the sets and their items that every command keeps: what has to be shown of the moves of a set, of
the Set Assembler's operations and of the opening and closing of sessions, so that every step keeps them. -/

namespace Sys2Proof.Machine

/-! ### A seal -/

/-- The sealed set that the open set of a session becomes (R30 to R32). -/
def sealedNow (n : SessionIx) (o : OpenSet) (s : State) : SealedSet :=
  sealedFrom n o (chooseId 66 s.sets s.schedule.nextId) ((s.schedule.lastSeal + 1) % (Config.heldLong + 1)) s.clock.rig

/-- The Schedule has taken the set, which has not yet the state that its due kind calls for; the open set's place is
empty (R30). -/
def sealedIn (n : SessionIx) (o : OpenSet) (s : State) : State :=
  (s.withSchedule
    { s.schedule with
      sets := s.sets ++ [sealedNow n o s]
      nextId := nextSetId (sealedNow n o s).id
      lastSeal := (sealedNow n o s).sealNo }).withOpenSet n none

theorem sealSet_eq (n : SessionIx) (o : OpenSet) (s : State) :
    sealSet n o s = queueChecks (placeSealed n (sealedNow n o s).id o.due (sealedIn n o s)) := rfl

/-- A set is sealed unlisted: it is PENDING or PARKED. -/
theorem sealedNow_unlisted (n : SessionIx) (o : OpenSet) (s : State) : (sealedNow n o s).unlisted := fun _ => rfl

/-! ### What the commands do -/

/-- The parts that no set, no item and no member list stands in. -/
def setlessParts : List Part :=
  [.clock, .claims, .engine, .trigger, .slots, .bus, .modules, .sessions, .reports, .linkA, .linkB, .notices, .free, .pending]

@[simp] theorem mem_setlessParts {p : Part} :
    p ∈ setlessParts ↔ p ≠ .assembler ∧ p ≠ .schedule ∧ p ≠ .cycles := by cases p <;> decide

/-- A property that every command keeps: beside the moves of a set, what leaves sets, items and member lists alone; the
opening and closing of a session; and what the Set Assembler and a seal do with items. -/
structure KeptByCommands (strict : Prop) (P : State → Prop) : Prop extends KeptByMoves strict P where
  quiet : ∀ {s t}, OnlyChanges setlessParts s t → t.noticesOf .itemsReturn = s.noticesOf .itemsReturn →
    SessionsKept True s t → P s → P t
  opened : ∀ {s n} (l : LinkId) (role : Role) (x : Settings), s.session n = none → P s → P (openSession l n role x s)
  closed : ∀ {s n r}, s.session n = some r → r.inUse = 0 → P s → P (s.withSession n none)
  setOpened : ∀ {s n o}, s.openSet n = none → o.items = [] → P s → P (s.withOpenSet n (some o))
  spoiled : ∀ {s n o} (c : ChanIx), s.openSet n = some o → P s → P (s.withOpenSet n (some { o with spoiled := some c }))
  taken : ∀ {s n o r} (is : List Item), s.openSet n = some o → s.session n = some r →
    o.items.length + is.length ≤ 32 → r.inUse + is.length ≤ r.quota → is.length ≤ s.assembler.poolFree → P s →
    P (takeItems n o is s)
  discarded : ∀ {s n o}, s.openSet n = some o → P s → P (discardOpenSet n o s)
  returned : ∀ {s n k}, headNotice (.itemsReturn n) s = some (.itemsReturn n k) → P s →
    P (changeInUse n (· - k) (changePool (· + k) (dropNotice (.itemsReturn n) s)))
  sealed : ∀ {s n o}, s.openSet n = some o → s.sets.length < 64 → P s → P (sealedIn n o s)
  joined : ∀ {s n c} (id : Nat), s.cycle n = some c → c.members.length < 16 → P s →
    P (s.withCycle n (some { c with members := c.members ++ [id] }))
  reset : P State.reset

theorem session_of_boundSession {h : Header} {n : SessionIx} {s : State} (hb : boundSession h s = some n) :
    ∃ r, s.session n = some r ∧ r.link = h.link ∧ sessionOf h.session = some n := by
  unfold boundSession at hb
  split at hb
  · cases hb
  · next m hm =>
    split at hb
    · next r hr =>
      split at hb <;> cases hb
      exact ⟨r, hr, ‹_›, hm⟩
    · cases hb

/-- The commands that do something with sets, items or member lists, and the resets. -/
def movesSets (i : Instr) : Prop :=
  match i with
  | .powerOnReset _ | .lineReset _ | .heldReset _ | .resetPerformed _ | .sessionOpen _ _ _ | .sessionConfig _ _
  | .timeSet _ _ | .release _ _ _ _ _ | .channelConfig _ _ _ _ _ | .setOpen _ _ _ _ _ _ _ _ _ | .setAdd _ _ _
  | .setDiscard _ | .setCancel _ _ | .cycleBegin _ _ _ _ | .cycleEnd _ | .cycleStop _ _ | .sessionRecordClose _
  | .sessionEndSetAssembler _ | .sessionEndSchedule _ | .sessionEndCycleUnit _ | .sealTaken _ | .dueTimeExpiry _
  | .triggerEdge _ | .take | .outcome | .lostChannelsSchedule | .haltEntrySchedule | .itemsReturn _
  | .lostChannelsSetAssembler | .memberParkedNotice _ | .haltEntryCycleUnit => True
  | _ => False

theorem touches_of_not_movesSets {i : Instr} (h : ¬ movesSets i) : ∀ p ∈ touches i, p ∈ setlessParts := by
  cases i
  case powerOnReset | lineReset | heldReset | resetPerformed | sessionOpen | sessionConfig | timeSet | release | channelConfig | setOpen | setAdd | setDiscard | setCancel | cycleBegin | cycleEnd | cycleStop | sessionRecordClose | sessionEndSetAssembler | sessionEndSchedule | sessionEndCycleUnit | sealTaken | dueTimeExpiry | triggerEdge | take | outcome | lostChannelsSchedule | haltEntrySchedule | itemsReturn | lostChannelsSetAssembler | memberParkedNotice | haltEntryCycleUnit => exact absurd trivial h
  all_goals simp [touches]

theorem dealsWith_of_not_movesSets {i : Instr} (h : ¬ movesSets i) : ¬ dealsWith i .itemsReturn := by
  cases i
  case powerOnReset | lineReset | heldReset | resetPerformed | sessionOpen | sessionConfig | timeSet | release | channelConfig | setOpen | setAdd | setDiscard | setCancel | cycleBegin | cycleEnd | cycleStop | sessionRecordClose | sessionEndSetAssembler | sessionEndSchedule | sessionEndCycleUnit | sealTaken | dueTimeExpiry | triggerEdge | take | outcome | lostChannelsSchedule | haltEntrySchedule | itemsReturn | lostChannelsSetAssembler | memberParkedNotice | haltEntryCycleUnit => exact absurd trivial h
  all_goals exact nofun

theorem opensOrCloses_of_not_movesSets {i : Instr} (h : ¬ movesSets i) : ¬ opensOrCloses i := by
  cases i
  case powerOnReset | lineReset | heldReset | resetPerformed | sessionOpen | sessionConfig | timeSet | release | channelConfig | setOpen | setAdd | setDiscard | setCancel | cycleBegin | cycleEnd | cycleStop | sessionRecordClose | sessionEndSetAssembler | sessionEndSchedule | sessionEndCycleUnit | sealTaken | dueTimeExpiry | triggerEdge | take | outcome | lostChannelsSchedule | haltEntrySchedule | itemsReturn | lostChannelsSetAssembler | memberParkedNotice | haltEntryCycleUnit => exact absurd trivial h
  all_goals exact id

theorem movesItems_of_not_movesSets {i : Instr} (h : ¬ movesSets i) : ¬ movesItems i := by
  cases i
  case powerOnReset | lineReset | heldReset | resetPerformed | sessionOpen | sessionConfig | timeSet | release | channelConfig | setOpen | setAdd | setDiscard | setCancel | cycleBegin | cycleEnd | cycleStop | sessionRecordClose | sessionEndSetAssembler | sessionEndSchedule | sessionEndCycleUnit | sealTaken | dueTimeExpiry | triggerEdge | take | outcome | lostChannelsSchedule | haltEntrySchedule | itemsReturn | lostChannelsSetAssembler | memberParkedNotice | haltEntryCycleUnit => exact absurd trivial h
  all_goals exact id

namespace KeptByCommands

variable {strict : Prop} {P : State → Prop} (K : KeptByCommands strict P) {s t : State}
include K

/-- What hands nothing over and leaves the sessions alone. -/
theorem silent (h : OnlyChanges (setlessParts.filter fun p => p ≠ .notices ∧ p ≠ .sessions) s t) (hp : P s) : P t :=
  K.quiet (h.mono fun _ hq => (List.mem_filter.1 hq).1) (noticesOf_quiet (h.mono fun p hq => by simp at hq; simp [hq]))
    (.of_only (by simp) h) hp

theorem answered (h : Header) (r : Request) (a : Answer) (hp : P s) : P (answer h r a s) := K.silent (by simp) hp

theorem refused (h : Header) (r : Request) (x : Reason) (hp : P s) : P (refuse h r x s) := K.answered h r _ hp

theorem bringIn (h : Header) (r : Request) (hp : P s) : P (bringIn h r s) := by
  exact K.quiet ((only_bringIn h (by simp) r fun _ => by simp).2 (.refl _ s)) (noticesOf_bringIn h r)
    (sessionsKept_bringIn h r s) hp

theorem served {v : Server} {h : Header} {r : Request} {body : SessionIx → State → State}
    (hb : ∀ n u, P u → boundSession h u = some n → u.schedule = s.schedule → u.clock = s.clock → P (body n u))
    (hp : P s) (hu : serve v h r body s = .next t) : P t := by
  cases hu
  have hu := K.bringIn h r hp
  have only : OnlyChanges [linkPart h.link, .sessions] s (Machine.bringIn h r s) :=
    (only_bringIn h (by simp) r fun _ => by simp).2 (.refl _ s)
  have refused (x : Reason) : P (refuse h r x (Machine.bringIn h r s)) := K.refused h r x hu
  simp only [runRequest]
  split
  · unfold takeRequest
    repeat' split
    · exact refused _
    · exact refused _
    · next n hn _ => exact hb n _ hu hn (only .schedule (by simp)) (only .clock (by simp))
    · exact refused _
  · exact hu

/-- A block takes a notice that is not one of items returned. -/
theorem noticed {lane : Lane} {f : Notice → State → Option State} (hl : .itemsReturn ≠ lane.carries)
    (hf : ∀ n u v, P u → f n u = some v → P v) (hp : P s)
    (hu : (Host.Outcome.next (onNotice lane f s) : Host.Outcome State Fault Refusal) = .next t) : P t := by
  cases hu
  obtain h | ⟨n, u, -, hu, h⟩ := onNotice_cases lane f s
  · rwa [h]
  · rw [h]
    refine hf n _ u (K.quiet ?_ (noticesOf_dropNotice (by simp) hl) (.of_eq rfl) hp) hu
    simp

theorem spoil (n : SessionIx) (cs : List ChanIx) (hp : P s) : P (spoil n cs s) := by
  unfold Machine.spoil
  repeat' split
  · exact hp
  · exact hp
  · exact K.spoiled _ ‹_› hp
  · exact hp

/-- R30: a sealed set takes its place. -/
theorem sealSet {n : SessionIx} {o : OpenSet} (ho : s.openSet n = some o) (hs : sealFault n o s = none) (hp : P s) :
    P (sealSet n o s) := by
  have room : s.sets.length < 64 := by
    by_contra h
    have h : Config.maxSets ≤ s.sets.length := by simpa [Config.maxSets] using h
    simp only [sealFault, h, if_true] at hs
    repeat' split at hs
    all_goals cases hs
  have due : dueFault n o.due s = none := by
    simp only [sealFault] at hs
    repeat' split at hs
    all_goals first | cases hs | simpa using hs
  have ht := K.sealed ho room hp
  have falls (v : Nat) : P (Machine.fallDueAt (sealedNow n o s).id v (sealedIn n o s)) :=
    K.fallDueAt v (fun _ => ⟨List.mem_append_right _ List.mem_cons_self, sealedNow_unlisted n o s⟩) ht
  rw [sealSet_eq]
  refine K.queueChecks ?_
  unfold placeSealed
  split
  · exact falls _
  · exact falls _
  · exact ht
  · exact ht
  · next v hd =>
    rw [hd] at due
    split
    · next c hc =>
      have hc' : s.cycle n = some c := hc
      refine K.joined _ hc ?_ ht
      by_contra h16
      simp only [dueFault, hc', Nat.le_of_not_lt h16, if_true] at due
      split at due <;> cases due
    · exact ht

/-- What a reset leaves of sets, items and member lists: nothing. -/
theorem afterReset (h : OnlyChanges (setlessParts.filter fun p => p ≠ .notices ∧ p ≠ .sessions) State.reset t) : P t :=
  K.silent h K.reset

theorem resetUnpowered (p : Pins) (s : State) : P (resetUnpowered p s) := by
  have hr : OnlyChanges (setlessParts.filter fun p => p ≠ .notices ∧ p ≠ .sessions) State.reset (Machine.afterReset p s) := by
    intro q hq
    cases q <;> simp at hq <;> rfl
  refine K.quiet (s := queueResetSafeAll p (Machine.afterReset p s)) ?_ ?_ ?_
    (K.afterReset ((only_queueResetSafeAll (by simp) p).2 hr))
  · simp [Machine.resetUnpowered]
  · simp [Machine.resetUnpowered]
  · exact .of_only (ps := everyPartBut .sessions) (by simp) (by simp [Machine.resetUnpowered])

theorem resetHeld (p : Pins) (s : State) : P (resetHeld p s) := by
  have hr : OnlyChanges (setlessParts.filter fun p => p ≠ .notices ∧ p ≠ .sessions) State.reset (Machine.afterReset p s) := by
    intro q hq
    cases q <;> simp at hq <;> rfl
  refine K.afterReset ?_
  simp only [Machine.resetHeld]
  rw [only_foldl _ _ fun u k => only_queueDescribe (by simp) k]
  simpa [keepPowered] using hr

/-! ### Requests -/

theorem sessionOpenBody (h : Header) (role : Byte) (x : RawSettings) (hp : P s) : P (sessionOpenBody h role x s) := by
  simp only [Machine.sessionOpenBody]
  split
  · exact K.refused _ _ _ hp
  · next k _ =>
    repeat' split
    · exact K.refused _ _ _ hp
    · exact K.refused _ _ _ hp
    · exact K.refused _ _ _ hp
    · exact K.refused _ _ _ hp
    · next n hn =>
      have hc : s.session n = none := by simpa using List.find?_some hn
      have hv := K.opened h.link k (settingsOf x) hc hp
      exact K.silent (by simp) hv

theorem sessionConfigBody (h : Header) (x : RawSettings) (n : SessionIx) (hp : P s) : P (sessionConfigBody h x n s) := by
  simp only [Machine.sessionConfigBody]
  repeat' split
  · exact hp
  · exact K.refused _ _ _ hp
  · exact K.refused _ _ _ hp
  · next k hk _ hq =>
    refine K.answered _ _ _ ?_
    have hv : P (s.withSession n (some (k.withSettings (settingsOf x) s.clock.rig))) := by
      refine K.quiet (by simp) (by simp) (.withSession hk ⟨rfl, rfl, rfl, id, fun _ => rfl, fun _ h => ?_⟩) hp
      cases e : (settingsOf x).quota with
      | none => simpa [Session.withSettings, e] using h
      | some q => simpa [Session.withSettings, e] using hq
    unfold rearm
    split
    · exact K.armed _ _ hv
    · exact hv

theorem timeSetBody (h : Header) (x : Time) (ht : P (setTime x.toNat s)) (hp : P s) : P (timeSetBody h x s) := by
  simp only [Machine.timeSetBody]
  split
  · exact K.refused _ _ _ hp
  · exact K.answered _ _ _ ht

theorem releaseBody (h : Header) (a b x f : Byte) (n : SessionIx) (hp : P s) : P (releaseBody h a b x f n s) := by
  have freed {u : State} (f d : ChanIx → Bool) (hu : P u) : P (freeChannels f d u) :=
    K.quiet (by simp) (by simp) (.of_only (ps := everyPartBut .sessions) (by simp) (by simp)) hu
  have granted {u : State} (lost : List LostChannel) (hu : P u) : P (grantPass (post (.lostToAssembler lost) u)) :=
    K.quiet (by simp) (by simp [noticesOf_post, Notice.class])
      (.of_only (ps := everyPartBut .sessions) (by simp) (by simp)) hu
  simp only [Machine.releaseBody]
  repeat' split
  · exact K.refused _ _ _ hp
  · exact K.refused _ _ _ hp
  · exact K.answered _ _ _ (freed _ _ (K.cancelLostAll _ _ hp))
  · exact granted _ (K.answered _ _ _ (freed _ _ (K.cancelLostAll _ _ hp)))

theorem channelConfigBody (h : Header) (c : Byte) (lo up safe : Half) (n : SessionIx) (hp : P s) :
    P (channelConfigBody h c lo up safe n s) := by
  simp only [Machine.channelConfigBody]
  repeat' split
  case h_2.isFalse.isFalse.isFalse.isFalse => exact K.answered _ _ _ (K.spoil _ _ (K.silent (by simp) hp))
  all_goals exact K.refused _ _ _ hp

theorem setOpenBody (h : Header) (k l c y : Byte) (x : Time) (p : Half) (d o : Long) (n : SessionIx) (hp : P s) :
    P (setOpenBody h k l c y x p d o n s) := by
  simp only [Machine.setOpenBody]
  split
  · split
    · exact K.refused _ _ _ hp
    · split
      · exact K.refused _ _ _ hp
      · exact K.answered _ _ _ (K.setOpened ‹_› rfl hp)
  · exact K.refused _ _ _ hp

theorem setAddBody (h : Header) (f : Byte) (is : List RawItem) {n : SessionIx} (hn : boundSession h s = some n) (hp : P s) :
    P (setAddBody h f is n s) := by
  obtain ⟨a, e⟩ | ⟨o, ho, h32, hq, hpool, hbody⟩ := setAddBody_cases h f is n s
  · exact e ▸ K.answered _ _ _ hp
  · obtain ⟨r, hr, -⟩ := session_of_boundSession hn
    have hlen : (is.filterMap itemOf).length ≤ is.length := List.length_filterMap_le _ _
    simp only [State.itemsInUse, quotaOf, hr] at hq
    have ht := K.taken (is.filterMap itemOf) ho hr (by omega) (by omega) (by omega) hp
    obtain e | ⟨a, e⟩ := hbody
    · rw [e]
      exact K.quiet (by simp) (by simp) (.of_only (ps := everyPartBut .sessions) (by simp) (by simp)) ht
    · exact e ▸ K.answered _ _ _ ht

theorem setDiscardBody (h : Header) (n : SessionIx) (hp : P s) : P (setDiscardBody h n s) := by
  unfold Machine.setDiscardBody
  split
  · exact K.refused _ _ _ hp
  · exact K.answered _ _ _ (K.discarded ‹_› hp)

theorem setCancelBody (h : Header) (id : Half) (n : SessionIx) (hp : P s) : P (setCancelBody h id n s) := by
  simp only [Machine.setCancelBody]
  split
  · exact K.answered _ _ _ (K.queueChecks (K.cancelSets _ _ hp))
  · split
    · exact K.refused _ _ _ hp
    · next x hx =>
      repeat' split
      · exact K.refused _ _ _ hp
      · exact K.refused _ _ _ hp
      · exact K.refused _ _ _ hp
      · exact K.answered _ _ _ (K.queueChecks (K.cancelSet (mem_of_findSet hx).1 _ _ hp))

theorem cycleBeginBody (h : Header) (x : Time) (p k : Long) (n : SessionIx) (hp : P s) :
    P (cycleBeginBody h x p k n s) := by
  simp only [Machine.cycleBeginBody]
  repeat' split
  · exact K.refused _ _ _ hp
  · exact K.refused _ _ _ hp
  · exact K.refused _ _ _ hp
  · refine K.answered _ _ _ (K.cycle _ _ (fun k e => ?_) hp)
    cases e
    exact List.nil_sublist _

theorem cycleEndBody (h : Header) (n : SessionIx) (hp : P s) : P (cycleEndBody h n s) := by
  unfold Machine.cycleEndBody
  split
  · exact K.refused _ _ _ hp
  · next c hc =>
    split
    · exact K.answered _ _ _
        (K.startPass n (.of_sublist (k := { c with phase := .running }) hc (List.Sublist.refl _)) _ hp)
    · exact K.refused _ _ _ hp

theorem stopNow (h : Header) (r : Request) (n : SessionIx) (c : Cycle) (hp : P s) : P (stopNow h r n c s) := by
  have hs := K.stopMembers c [] hp
  simp only [Machine.stopNow]
  split
  · split
    · next j hj =>
      exact K.answered _ _ _ (K.queueChecks
        (K.cycle n _ (.of_sublist (k := { j with phase := .stopping .now }) hj (List.Sublist.refl _)) hs))
    · exact K.queueChecks hs
  · exact K.answered _ _ _ (K.queueChecks (K.closeCycle _ _ _ _ _ hs))

theorem cycleStopBody (h : Header) (x : Byte) (n : SessionIx) (hp : P s) : P (cycleStopBody h x n s) := by
  simp only [Machine.cycleStopBody]
  split
  · exact K.refused _ _ _ hp
  · exact K.refused _ _ _ hp
  · split
    · exact K.answered _ _ _ hp
    · exact K.stopNow _ _ _ _ hp
    · exact K.stopNow _ _ _ _ hp
    · exact K.stopNow _ _ _ _ hp
  · next c _ hc =>
    split
    · exact K.stopNow _ _ _ _ hp
    · exact K.answered _ _ _
        (K.cycle n _ (.of_sublist (k := { c with phase := .stopping .afterPass }) hc (List.Sublist.refl _)) hp)
    · exact K.answered _ _ _ hp

/-! ### Events -/

theorem closeRecord {n : SessionIx} (hf : endUnfinished n s = false) (hp : P s) : P (closeRecord n s) := by
  unfold Machine.closeRecord
  split
  · exact hp
  · next r hr =>
    split
    · have hc : P (s.withSession n none) := K.closed hr (by
        simp only [endUnfinished, Bool.or_eq_false_iff, decide_eq_false_iff_not, State.itemsInUse, hr] at hf
        omega) hp
      dsimp only
      split
      · exact hc
      · exact K.posted _ rfl hc
    · exact hp

theorem takeSeal (n : SessionIx) (k : Nat) (h : Header) (r : Request) (taken : Nat) (hp : P s) :
    P (takeSeal n k h r taken s) := by
  unfold Machine.takeSeal
  split
  · exact K.answered _ _ _ hp
  · split
    · exact K.answered _ _ _ hp
    · split
      · exact K.answered _ _ _ hp
      · exact K.answered _ _ _ (K.sealSet ‹_› ‹_› hp)

theorem releaseOldest (l : TrigLine) (v : Nat) (hp : P s) : P (releaseOldest l v s) := by
  unfold Machine.releaseOldest
  split
  · exact hp
  · next x xs hx =>
    obtain ⟨hm, hs⟩ := List.mem_filter.1 (show x ∈ triggerOrder l s from hx ▸ List.mem_cons_self)
    exact K.due _ (fun _ => ⟨hm, fun e => by simp [e] at hs⟩) hp

/-! ### Every command -/

/-- A command that leaves sets, items and member lists alone. -/
theorem frame {i : Instr} (hi : ¬ movesSets i) (hp : P s) (hu : Machine.exec i s = .next t) : P t :=
  K.quiet (exec_changes (touches_of_not_movesSets hi) (fun _ => by simp) hu)
    (exec_noticesOf (by simp) (dealsWith_of_not_movesSets hi) hu)
    (exec_sessionsKept (opensOrCloses_of_not_movesSets hi) (fun _ => movesItems_of_not_movesSets hi) hu) hp

theorem exec {i : Instr} (ht : ∀ h time, i = .timeSet h time → ∀ u, u.schedule = s.schedule → u.clock = s.clock → P u →
    P (setTime time.toNat u)) (hp : P s) (hu : exec i s = .next t) : P t := by
  have noticed {lane : Lane} {f : Notice → State → Option State} (hl : .itemsReturn ≠ lane.carries)
    (hf : ∀ n u v, P u → f n u = some v → P v)
    (hu : (Host.Outcome.next (onNotice lane f s) : Host.Outcome State Fault Refusal) = .next t) : P t :=
    K.noticed hl hf hp hu
  cases i
  case powerOnReset p | lineReset p => cases hu; exact K.resetUnpowered p s
  case heldReset p => cases hu; exact K.resetHeld p s
  case resetPerformed p =>
    cases hu
    repeat' split
    · exact K.resetHeld p s
    · exact K.resetUnpowered p s
    all_goals exact hp
  case sessionOpen h role x =>
    cases hu
    have hb := K.bringIn h (.sessionOpen role x) hp
    simp only [runRequest]
    split
    · exact K.sessionOpenBody h role x hb
    · exact hb
  case sessionConfig h x => exact K.served (fun n u hu _ _ _ => K.sessionConfigBody h x n hu) hp hu
  case timeSet h x => exact K.served (fun _ u hu _ hs hc => K.timeSetBody h x (ht h x rfl u hs hc hu) hu) hp hu
  case release h a b x f => exact K.served (fun n u hu _ _ _ => K.releaseBody h a b x f n hu) hp hu
  case channelConfig  => exact K.served (fun n u hu _ _ _ => K.channelConfigBody _ _ _ _ _ n hu) hp hu
  case setOpen  => exact K.served (fun n u hu _ _ _ => K.setOpenBody _ _ _ _ _ _ _ _ _ n hu) hp hu
  case setAdd h f is =>
    simp only [Machine.exec, execSetAdd] at hu
    split at hu
    · cases hu
    · split at hu
      · cases hu; exact hp
      · exact K.served (fun n u hu hn _ _ => K.setAddBody h f is hn hu) hp hu
  case setDiscard h => exact K.served (fun n u hu _ _ _ => K.setDiscardBody h n hu) hp hu
  case setCancel h id => exact K.served (fun n u hu _ _ _ => K.setCancelBody h id n hu) hp hu
  case cycleBegin  => exact K.served (fun n u hu _ _ _ => K.cycleBeginBody _ _ _ _ n hu) hp hu
  case cycleEnd h => exact K.served (fun n u hu _ _ _ => K.cycleEndBody h n hu) hp hu
  case cycleStop h x => exact K.served (fun n u hu _ _ _ => K.cycleStopBody h x n hu) hp hu
  case sessionRecordClose m =>
    refine noticed (by simp [Lane.carries]) (fun n u v hu hv => ?_) hu
    split at hv <;> cases hv
    next hf => exact K.closeRecord (by simpa using hf) hu
  case sessionEndSetAssembler m =>
    refine noticed (by simp [Lane.carries]) (fun n u v hu hv => ?_) hu
    cases hv
    refine K.posted _ rfl ?_
    unfold endSessionAssembler
    split
    · exact K.discarded ‹_› hu
    · exact hu
  case sessionEndSchedule m =>
    refine noticed (by simp [Lane.carries]) (fun n u v hu hv => ?_) hu
    cases hv
    exact K.posted _ rfl (K.endSessionSchedule m hu)
  case sessionEndCycleUnit m =>
    refine noticed (by simp [Lane.carries]) (fun n u v hu hv => ?_) hu
    cases hv
    exact K.cycle _ _ (.none _ _) hu
  case sealTaken m =>
    refine noticed (by simp [Lane.carries]) (fun n u v hu hv => ?_) hu
    repeat' split at hv
    all_goals cases hv
    · exact K.takeSeal _ _ _ _ _ hu
    · exact hu
    · exact hu
  case dueTimeExpiry id =>
    cases hu
    split
    · next x hx =>
      split
      · next v hs hv =>
        split
        · exact K.due v (fun _ => ⟨(mem_of_findSet hx).1, fun e => by simp [hs] at e⟩) hp
        · exact hp
      · exact hp
    · exact hp
  case triggerEdge l =>
    refine noticed (by simp [Lane.carries]) (fun n u v hu hv => ?_) hu
    split at hv <;> cases hv
    unfold takeEdge
    split
    · exact hu
    · exact K.releaseOldest _ _ hu
  case take => cases hu; exact K.take hp
  case outcome =>
    refine noticed (by simp [Lane.carries]) (fun n u v hu hv => ?_) hu
    repeat' split at hv
    all_goals cases hv
    · next x hx =>
      have ha := List.find?_some hx
      simp only [Bool.and_eq_true, decide_eq_true_eq] at ha
      exact K.queueChecks (K.takeOutcome (List.mem_of_find?_eq_some hx) ha.2 _ hu)
    · exact hu
  case lostChannelsSchedule =>
    refine noticed (by simp [Lane.carries]) (fun n u v hu hv => ?_) hu
    split at hv <;> cases hv
    exact K.cancelLostAll _ _ hu
  case haltEntrySchedule =>
    refine noticed (by simp [Lane.carries]) (fun n u v hu hv => ?_) hu
    cases hv
    exact K.cancelForHalt hu
  case itemsReturn m =>
    cases hu
    obtain e | ⟨n, u, hn, hu, e⟩ := onNotice_cases (.itemsReturn m) _ s
    · rw [e]; exact hp
    · rw [e]
      have hl : noticeLane n = .itemsReturn m := by simpa using List.find?_some hn
      split at hu <;> cases hu
      cases hl
      exact K.returned hn hp
  case lostChannelsSetAssembler =>
    refine noticed (by simp [Lane.carries]) (fun n u v hu hv => ?_) hu
    split at hv <;> cases hv
    exact KeptByMoves.foldl _ _ (fun w hw m _ => K.spoil _ _ hw) hu
  case memberParkedNotice m =>
    refine noticed (by simp [Lane.carries]) (fun n u v hu hv => ?_) hu
    split at hv <;> cases hv
    exact K.memberParked _ _ hu
  case haltEntryCycleUnit =>
    refine noticed (by simp [Lane.carries]) (fun n u v hu hv => ?_) hu
    cases hv
    refine KeptByMoves.foldl _ _ (fun w hw m _ => ?_) hu
    unfold haltCycle
    split
    · next c _ =>
      refine K.closeCycle _ _ _ _ _ (K.relabelled _ (fun x => ?_) hw)
      split
      · exact ⟨_, _, rfl⟩
      · exact ⟨_, _, rfl⟩
    · exact hw
  all_goals exact K.frame id hp hu

/-- Every step keeps what every command keeps. -/
theorem step (ht : ∀ h time rest, s.pending = .timeSet h time :: rest → ∀ u, u.schedule = s.schedule →
    u.clock = s.clock → P u → P (setTime time.toNat u)) (hp : P s) (hu : step s = .next t) : P t := by
  unfold Machine.step at hu
  split at hu
  · cases hu
    exact K.silent (by simp [tick]) hp
  · next i rest hi =>
    exact K.exec (s := s.withPending rest) (fun h x e => ht h x rest (e ▸ hi)) (K.silent (by simp) hp) hu

end KeptByCommands
end Sys2Proof.Machine
end


section
/-! PROOFS. The id of a sealed set (R31): the counter runs through its values one after the other, and with fewer than 64
sets one of the next 65 qualifies. -/

namespace Sys2Proof.Machine

/-! ### The set id counter -/

theorem nextSetId_le (v : Nat) : nextSetId v ≤ 65534 := by
  unfold nextSetId
  split <;> omega

theorem nextSetId_eq_mod {v : Nat} (h : v ≤ 65534) : nextSetId v = (v + 1) % 65535 := by
  unfold nextSetId
  split <;> omega

/-- R31: the counter runs through 0 to 65534 over and over. -/
theorem iterate_nextSetId {v : Nat} (h : v ≤ 65534) (j : Nat) : nextSetId^[j] v = (v + j) % 65535 := by
  induction j with
  | zero => simpa using (Nat.mod_eq_of_lt (by omega : v < 65535)).symm
  | succ j ih =>
    rw [Function.iterate_succ_apply', ih, nextSetId_eq_mod (by omega)]
    omega

/-! ### The first value that qualifies -/

theorem idQualifies_iff {sets : List SealedSet} {v : Nat} :
    idQualifies sets v = true ↔ v ≠ 0 ∧ v ≠ 65535 ∧ ∀ x ∈ sets, x.id ≠ v := by
  simp [idQualifies, and_assoc]

/-- A search that meets a value that qualifies ends at the first one. -/
theorem chooseId_of_qualifies {fuel : Nat} {sets : List SealedSet} {v k : Nat} (hk : k < fuel)
    (hq : idQualifies sets (nextSetId^[k] v) = true) :
    ∃ j ≤ k, chooseId fuel sets v = nextSetId^[j] v ∧ idQualifies sets (nextSetId^[j] v) = true ∧
      ∀ i < j, idQualifies sets (nextSetId^[i] v) = false := by
  induction fuel generalizing v k with
  | zero => omega
  | succ f ih =>
    by_cases hv : idQualifies sets v = true
    · exact ⟨0, by omega, by simp [chooseId, hv], hv, fun i hi => by omega⟩
    · cases k with
      | zero => exact absurd hq hv
      | succ k =>
        obtain ⟨j, hj, he, hqj, hlt⟩ := ih (v := nextSetId v) (k := k) (by omega) hq
        refine ⟨j + 1, by omega, by simp [chooseId, hv, he], hqj, fun i hi => ?_⟩
        cases i with
        | zero => simpa using hv
        | succ i => exact hlt i (by omega)

/-- Of 65 values in a row at most one is 0 and at most 63 are ids of live sets. -/
theorem exists_qualifies {sets : List SealedSet} {v : Nat} (hs : sets.length < 64) (hv : v ≤ 65534) :
    ∃ k < 65, idQualifies sets (nextSetId^[k] v) = true := by
  by_contra hn
  have taken : ∀ k ∈ Finset.range 65, nextSetId^[k] v ∈ insert 0 (sets.map (·.id)).toFinset := by
    intro k hk
    by_contra hm
    simp only [Finset.mem_insert, List.mem_toFinset, List.mem_map, not_or, not_exists, not_and] at hm
    refine hn ⟨k, Finset.mem_range.1 hk, idQualifies_iff.2 ⟨hm.1, ?_, hm.2⟩⟩
    rw [iterate_nextSetId hv]
    omega
  have inj : Set.InjOn (fun k => nextSetId^[k] v) (Finset.range 65) := by
    intro a ha b hb h
    simp only [Finset.coe_range, Set.mem_Iio] at ha hb
    simp only [iterate_nextSetId hv] at h
    omega
  have few := Finset.card_le_card_of_injOn _ taken inj
  have ids := Finset.card_insert_le 0 (sets.map (·.id)).toFinset
  have len := List.toFinset_card_le (sets.map (·.id))
  simp only [Finset.card_range, List.length_map] at few len
  omega

/-- R31: with fewer than 64 sets the counter's first value that qualifies is found. -/
theorem chooseId_of_room {sets : List SealedSet} {v : Nat} (hs : sets.length < 64) (hv : v ≤ 65534) :
    ∃ j < 65, chooseId 66 sets v = nextSetId^[j] v ∧ idQualifies sets (nextSetId^[j] v) = true ∧
      ∀ i < j, idQualifies sets (nextSetId^[i] v) = false := by
  obtain ⟨k, hk, hq⟩ := exists_qualifies hs hv
  obtain ⟨j, hj, h⟩ := chooseId_of_qualifies (fuel := 66) (by omega) hq
  exact ⟨j, by omega, h⟩

/-- The id that a seal assigns qualifies, whatever the counter's value. -/
theorem idQualifies_chooseId {sets : List SealedSet} (hs : sets.length < 64) (v : Nat) :
    idQualifies sets (chooseId 66 sets v) = true := by
  have found {k : Nat} (hk : k < 66) (hq : idQualifies sets (nextSetId^[k] v) = true) :
      idQualifies sets (chooseId 66 sets v) = true := by
    obtain ⟨j, -, he, hqj, -⟩ := chooseId_of_qualifies hk hq
    rwa [he]
  obtain hv | hv := Nat.lt_or_ge 65534 v
  · obtain ⟨k, hk, hq⟩ := exists_qualifies hs (nextSetId_le v)
    exact found (k := k + 1) (by omega) hq
  · obtain ⟨k, hk, hq⟩ := exists_qualifies hs hv
    exact found (by omega) hq

theorem sealedNow_fresh {s : State} (hs : s.sets.length < 64) (n : SessionIx) (o : OpenSet) :
    ∀ x ∈ s.sets, x.id ≠ (sealedNow n o s).id :=
  (idQualifies_iff.1 (idQualifies_chooseId hs s.schedule.nextId)).2.2

/-- The ids stay distinct as a set is sealed. -/
theorem nodup_ids_sealedIn {s : State} {n : SessionIx} {o : OpenSet} (hf : ∀ x ∈ s.sets, x.id ≠ (sealedNow n o s).id)
    (h : (s.sets.map (·.id)).Nodup) : ((sealedIn n o s).sets.map (·.id)).Nodup := by
  have he : (sealedIn n o s).sets = s.sets ++ [sealedNow n o s] := rfl
  rw [he, List.map_append, List.nodup_append]
  refine ⟨h, by simp, ?_⟩
  simpa using fun x hx => hf x hx

end Sys2Proof.Machine
end


section
/-! PROOFS. At most one set is APPLYING (R48), and the set id counter stays in its range (R31). -/

namespace Sys2Proof.Machine

/-- A property of the Schedule alone is kept by every command if the moves of a set and a seal keep it. -/
theorem KeptByMoves.keptByCommands {strict : Prop} {P : State → Prop} (M : KeptByMoves strict P)
    (dep : ∀ {s t : State}, t.schedule = s.schedule → P s → P t)
    (hs : ∀ {s : State} (n : SessionIx) (o : OpenSet), s.sets.length < 64 → P s → P (sealedIn n o s))
    (hr : P State.reset) : KeptByCommands strict P where
  toKeptByMoves := M
  quiet h _ _ hp := dep (h .schedule (by simp)) hp
  opened {s n} l role x _ hp := by
    unfold openSession
    exact dep (s := withArmed n false s) (by cases l <;> rfl) (M.armed _ _ hp)
  closed {s _ _} _ _ hp := dep (s := s) rfl hp
  setOpened {s _ _} _ _ hp := dep (s := s) rfl hp
  spoiled {s _ _} _ _ hp := dep (s := s) rfl hp
  taken _ _ _ _ _ _ hp := dep (by unfold takeItems changeInUse; split <;> rfl) hp
  discarded _ hp := dep (by unfold discardOpenSet changeInUse; split <;> rfl) hp
  returned _ hp := dep (by unfold changeInUse; split <;> rfl) hp
  sealed _ hl hp := hs _ _ hl hp
  joined {s _ _} _ _ _ hp := dep (s := s) rfl hp
  reset := hr

/-! ### At most one set APPLYING -/

/-- A set as it falls due (R42). -/
def SealedSet.dueAt (v : Nat) (x : SealedSet) : SealedSet := { x with state := .due, dueTime := some v }


theorem OneApplying.of_sublist {s t : State} (h : OneApplying s) (ht : t.sets.Sublist s.sets) : OneApplying t :=
  ⟨h.1.sublist (ht.map _), (ht.filter _).length_le.trans h.2⟩

/-- A change that keeps ids and takes no waiting set up leaves at most one set APPLYING. -/
theorem OneApplying.map {s t : State} (h : OneApplying s) (f : SealedSet → SealedSet) (hi : ∀ x, (f x).id = x.id)
    (hw : ∀ x, x.waiting = true → (f x).waiting = true) (ht : t.sets = s.sets.map f) : OneApplying t := by
  refine ⟨?_, ?_⟩
  · rw [ht, List.map_map, show (fun x : SealedSet => x.id) ∘ f = (·.id) from funext hi]
    exact h.1
  · rw [ht, List.filter_map, List.length_map]
    refine le_trans ?_ h.2
    rw [← List.countP_eq_length_filter, ← List.countP_eq_length_filter]
    refine List.countP_mono_left fun x _ hx => ?_
    simp only [Function.comp, Bool.not_eq_true'] at hx ⊢
    by_contra hn
    simp [hw x (by simpa using hn)] at hx

/-- The set of an id is changed and waits afterwards. -/
theorem OneApplying.changeSet {s t : State} (h : OneApplying s) (id : Nat) (f : SealedSet → SealedSet)
    (hi : ∀ x, (f x).id = x.id) (hw : ∀ x, (f x).waiting = true)
    (ht : t.sets = s.sets.map fun x => if x.id = id then f x else x) : OneApplying t := by
  refine h.map _ (fun x => ?_) (fun x hx => ?_) ht
  · split
    · exact hi x
    · rfl
  · split
    · exact hw x
    · exact hx

/-- R48: the head is taken while every set waits. -/
theorem OneApplying.taken {s t : State} (h : OneApplying s) (hw : ∀ y ∈ s.sets, y.waiting = true) (id : Nat)
    (ht : t.sets = s.sets.map fun x => if x.id = id then x.taken else x) : OneApplying t := by
  refine ⟨?_, ?_⟩
  · have keeps : (fun x : SealedSet => x.id) ∘ (fun x => if x.id = id then x.taken else x) = (·.id) :=
      funext fun x => by dsimp only [Function.comp]; split <;> rfl
    rw [ht, List.map_map, keeps]
    exact h.1
  · rw [ht, List.filter_map, List.length_map]
    have one : (s.sets.filter fun x => x.id = id).length ≤ 1 := by
      have := List.nodup_iff_count_le_one.1 h.1 id
      rwa [List.count_eq_countP, List.countP_map, List.countP_eq_length_filter] at this
    refine le_trans ?_ one
    rw [← List.countP_eq_length_filter, ← List.countP_eq_length_filter]
    refine List.countP_mono_left fun x hx hp => ?_
    simp only [Function.comp] at hp
    split at hp
    · simpa
    · simp [hw x hx] at hp

theorem oneApplying_keptByMoves : KeptByMoves True OneApplying where
  ids _ _ h := h.1
  posted _ _ h := h
  cycle _ _ _ h := h
  armed _ _ h := h
  engine _ h := h
  relabelled f hf h := by
    refine h.map f (fun x => ?_) (fun x hx => ?_) rfl
    all_goals
      obtain ⟨m, p, e⟩ := hf x
      rw [e]
    exact hx
  left _ h := h.of_sublist List.filter_sublist
  due v _ h := h.changeSet _ (SealedSet.dueAt v) (fun _ => rfl) (fun _ => rfl) rfl
  pending v _ h := h.changeSet _ (SealedSet.pendingAt v) (fun _ => rfl) (fun _ => rfl) rfl
  dueAgain v _ h := h.changeSet _ (SealedSet.dueAt v) (fun _ => rfl) (fun _ => rfl) rfl
  pendingAgain v _ h := h.changeSet _ (SealedSet.pendingAt v) (fun _ => rfl) (fun _ => rfl) rfl
  parked _ _ h := h.changeSet _ SealedSet.parkedAgain (fun _ => rfl) (fun _ => rfl) rfl
  headGone _ _ h := h
  headLeft _ _ h := h.of_sublist List.filter_sublist
  headParked _ _ h := h.changeSet _ SealedSet.parkedAgain (fun _ => rfl) (fun _ => rfl) rfl
  headTaken _ _ hw h := h.taken hw _ rfl

theorem oneApplying_keptByCommands : KeptByCommands True OneApplying :=
  oneApplying_keptByMoves.keptByCommands
    (fun {s t} e h => by
      have hs : t.sets = s.sets := congrArg Schedule.sets e
      exact h.of_sublist (hs ▸ List.Sublist.refl _))
    (fun {s} n o hl h => by
      refine ⟨nodup_ids_sealedIn (sealedNow_fresh hl n o) h.1, ?_⟩
      have waits : (sealedNow n o s).waiting = true := by
        unfold sealedNow sealedFrom SealedSet.waiting
        cases o.due <;> rfl
      have he : (sealedIn n o s).sets = s.sets ++ [sealedNow n o s] := rfl
      rw [he, List.filter_append]
      simpa [waits] using h.2)
    (by unfold OneApplying; decide)

/-- A TIME_SET moves due times alone. -/
theorem oneApplying_setTime {s : State} (x : Nat) (h : OneApplying s) : OneApplying (setTime x s) := by
  refine h.map _ (fun y => ?_) (fun y hy => ?_) rfl
  · split <;> rfl
  · split
    · exact hy
    · exact hy

/-- Settles O9, by the moves of a set. -/
theorem stepKeepsOneApplyingSet : Obligations.StepKeepsOneApplyingSet := fun s t h hu =>
  oneApplying_keptByCommands.step (fun _ _ _ _ _ _ _ hu => oneApplying_setTime _ hu) h hu

/-! ### The set id counter -/

theorem nextIdBounded_keptByCommands : KeptByCommands False fun s => s.schedule.nextId ≤ 65534 :=
  KeptByMoves.keptByCommands
    { ids := fun h => h.elim
      posted := fun _ _ h => h
      cycle := fun _ _ _ h => h
      armed := fun _ _ h => h
      engine := fun _ h => h
      relabelled := fun _ _ h => h
      left := fun _ h => h
      due := fun _ _ h => h
      pending := fun _ _ h => h
      dueAgain := fun _ _ h => h
      pendingAgain := fun _ _ h => h
      parked := fun _ _ h => h
      headGone := fun _ _ h => h
      headLeft := fun _ _ h => h
      headParked := fun _ _ h => h
      headTaken := fun _ _ _ h => h }
    (fun e h => by rwa [e])
    (fun _ _ _ _ => nextSetId_le _)
    (by decide)

end Sys2Proof.Machine
end


section
/-! PROOFS. The Ready List (R41, R47, R61): every move of a set keeps it, and so does every command but for the order of
equal due times across a TIME_SET that is held at the ends of the range. -/

namespace Sys2Proof.Machine

/-! ### Places on the list -/

section
variable {s t : State}

/-- A set whose id stands on the list is DUE with a due time. -/
theorem ReadyListed.not_unlisted (h : ReadyListed s) {x : SealedSet} (hx : x ∈ s.sets) (hu : x.unlisted) :
    x.id ∉ s.schedule.ready := by
  obtain ⟨hids, -, hready, hdue, -⟩ := h
  intro hm
  obtain ⟨y, hy, he, hd⟩ := (hready x.id).1 hm
  obtain rfl := List.inj_on_of_nodup_map hids hy hx he
  exact hdue y hy hd (hu hd)

theorem SealedSet.unlisted_of_ne_due {x : SealedSet} (h : x.state ≠ .due) : x.unlisted := fun e => absurd e h

theorem ids_map {sets : List SealedSet} (f : SealedSet → SealedSet) (hi : ∀ x, (f x).id = x.id) :
    (sets.map f).map (·.id) = sets.map (·.id) := by
  rw [List.map_map, show (fun x : SealedSet => x.id) ∘ f = (·.id) from funext hi]

/-- A change that keeps ids, the DUE sets and their due times keeps the list. -/
theorem ReadyListed.map (h : ReadyListed s) (f : SealedSet → SealedSet) (hi : ∀ x, (f x).id = x.id)
    (hs : ∀ x, (f x).state = x.state) (hd : ∀ x, (f x).dueTime = x.dueTime) (ht : t.sets = s.sets.map f)
    (hr : t.schedule.ready = s.schedule.ready) : ReadyListed t := by
  obtain ⟨hids, hnodup, hready, hdue, hsorted⟩ := h
  have due (a : Nat) : dueTimeOf t.sets a = dueTimeOf s.sets a := ht ▸ dueTimeOf_map f hi fun x _ _ => hd x
  refine ⟨by rwa [ht, ids_map f hi], hr ▸ hnodup, fun id => ?_, ?_, ?_⟩
  · rw [hr, hready, ht]
    constructor
    · rintro ⟨x, hx, rfl, hxd⟩
      exact ⟨f x, List.mem_map_of_mem hx, hi x, (hs x).trans hxd⟩
    · rintro ⟨y, hy, rfl, hyd⟩
      obtain ⟨x, hx, rfl⟩ := List.mem_map.1 hy
      exact ⟨x, hx, (hi x).symm, (hs x).symm.trans hyd⟩
  · rw [ht]
    refine List.forall_mem_map.2 fun x hx hxd => ?_
    rw [hd]
    exact hdue x hx ((hs x).symm.trans hxd)
  · rw [hr]
    exact hsorted.imp fun hab => by rwa [due, due]

theorem ReadyOrdered.map (h : ReadyOrdered s) (f : SealedSet → SealedSet) (hi : ∀ x, (f x).id = x.id)
    (hd : ∀ x, (f x).dueTime = x.dueTime) (ht : t.sets = s.sets.map f) (hr : t.schedule.ready = s.schedule.ready) :
    ReadyOrdered t := by
  unfold ReadyOrdered at *
  rw [hr]
  refine h.imp fun hab => ?_
  rw [goesBefore_iff] at *
  rwa [ht, dueTimeOf_map f hi fun x _ _ => hd x, dueTimeOf_map f hi fun x _ _ => hd x, sealRank_map f hi, sealRank_map f hi]

/-! ### A set that is DUE no more -/

/-- The set of an id is changed. -/
def changedAt (id : Nat) (f : SealedSet → SealedSet) (x : SealedSet) : SealedSet := if x.id = id then f x else x

theorem changedAt_id {f : SealedSet → SealedSet} (hi : ∀ x, (f x).id = x.id) (id : Nat) (x : SealedSet) :
    (changedAt id f x).id = x.id := by
  unfold changedAt; split
  · exact hi x
  · rfl

theorem dueTimeOf_changedAt {f : SealedSet → SealedSet} (hi : ∀ x, (f x).id = x.id) {sets : List SealedSet} {id a : Nat}
    (ha : a ≠ id) : dueTimeOf (sets.map (changedAt id f)) a = dueTimeOf sets a :=
  dueTimeOf_map _ (changedAt_id hi id) fun x _ hx => by
    rw [changedAt, if_neg fun e => ha (hx.symm.trans e)]

/-- The set of an id is DUE no more and its place is gone. -/
theorem ReadyListed.unlist (h : ReadyListed s) (id : Nat) (f : SealedSet → SealedSet) (hi : ∀ x, (f x).id = x.id)
    (hs : ∀ x, (f x).state ≠ .due) (ht : t.sets = s.sets.map (changedAt id f))
    (hr : t.schedule.ready = s.schedule.ready.erase id) : ReadyListed t := by
  obtain ⟨hids, hnodup, hready, hdue, hsorted⟩ := h
  have hm (a : Nat) : a ∈ s.schedule.ready.erase id ↔ a ≠ id ∧ a ∈ s.schedule.ready := hnodup.mem_erase_iff
  refine ⟨by rwa [ht, ids_map _ (changedAt_id hi id)], hr ▸ hnodup.erase _, fun a => ?_, ?_, ?_⟩
  · rw [hr, hm, hready, ht]
    constructor
    · rintro ⟨hne, x, hx, rfl, hxd⟩
      exact ⟨x, List.mem_map.2 ⟨x, hx, if_neg hne⟩, rfl, hxd⟩
    · rintro ⟨y, hy, rfl, hyd⟩
      obtain ⟨x, hx, rfl⟩ := List.mem_map.1 hy
      unfold changedAt at hyd ⊢
      split at hyd
      · exact absurd hyd (hs x)
      · next hne => exact ⟨by rwa [if_neg hne], x, hx, by rw [if_neg hne], hyd⟩
  · rw [ht]
    refine List.forall_mem_map.2 fun x hx hxd => ?_
    unfold changedAt at hxd ⊢
    split at hxd
    · exact absurd hxd (hs x)
    · next hne => rw [if_neg hne]; exact hdue x hx hxd
  · rw [hr, ht]
    refine (hsorted.sublist List.erase_sublist).imp_of_mem fun ha hb hab => ?_
    rwa [dueTimeOf_changedAt hi ((hm _).1 ha).1, dueTimeOf_changedAt hi ((hm _).1 hb).1]

theorem ReadyOrdered.unlist (h : ReadyListed s) (h' : ReadyOrdered s) (id : Nat) (f : SealedSet → SealedSet)
    (hi : ∀ x, (f x).id = x.id) (ht : t.sets = s.sets.map (changedAt id f))
    (hr : t.schedule.ready = s.schedule.ready.erase id) : ReadyOrdered t := by
  have hm (a : Nat) : a ∈ s.schedule.ready.erase id ↔ a ≠ id ∧ a ∈ s.schedule.ready := h.2.1.mem_erase_iff
  unfold ReadyOrdered
  rw [hr, ht]
  refine (List.Pairwise.sublist List.erase_sublist h').imp_of_mem fun ha hb hab => ?_
  rw [goesBefore_iff] at *
  rwa [dueTimeOf_changedAt hi ((hm _).1 ha).1, dueTimeOf_changedAt hi ((hm _).1 hb).1,
    sealRank_map _ (changedAt_id hi id), sealRank_map _ (changedAt_id hi id)]

/-! ### The list with its order -/

/-- The Ready List as R41 and R47 describe it; the order of equal due times is left out unless `ordered` holds. -/
def ReadyKept (ordered : Prop) (s : State) : Prop := ReadyListed s ∧ (ordered → ReadyOrdered s)

variable {ordered : Prop}

theorem ReadyKept.of_eq (h : ReadyKept ordered s) (hs : t.sets = s.sets) (hr : t.schedule.ready = s.schedule.ready) :
    ReadyKept ordered t := ⟨h.1.of_eq hs hr, fun o => (h.2 o).of_eq hs hr⟩

theorem ReadyKept.unlist (h : ReadyKept ordered s) (id : Nat) (f : SealedSet → SealedSet) (hi : ∀ x, (f x).id = x.id)
    (hs : ∀ x, (f x).state ≠ .due) (ht : t.sets = s.sets.map (changedAt id f))
    (hr : t.schedule.ready = s.schedule.ready.erase id) : ReadyKept ordered t :=
  ⟨h.1.unlist id f hi hs ht hr, fun o => .unlist h.1 (h.2 o) id f hi ht hr⟩

/-- A set that has no place on the list is changed and gets none. -/
theorem ReadyKept.change (h : ReadyKept ordered s) {x : SealedSet} (hx : x ∈ s.sets) (hu : x.unlisted)
    (f : SealedSet → SealedSet) (hi : ∀ x, (f x).id = x.id) (hs : ∀ x, (f x).state ≠ .due)
    (ht : t.sets = s.sets.map (changedAt x.id f)) (hr : t.schedule.ready = s.schedule.ready) : ReadyKept ordered t :=
  h.unlist x.id f hi hs ht (by rw [hr, List.erase_of_not_mem (h.1.not_unlisted hx hu)])

theorem ReadyKept.makeDue (h : ReadyKept ordered s) {id : Nat} (v : Nat) (hid : id ∈ s.sets.map (·.id))
    (hr : id ∉ s.schedule.ready) : ReadyKept ordered (makeDue id v s) :=
  ⟨h.1.makeDue v hid hr, fun o => .makeDue h.1 (h.2 o) v hr⟩

/-- A set whose place has been given up falls due as one that was parked. -/
theorem makeDue_changeSet (id v : Nat) (s : State) (l : List Nat) :
    makeDue id v ((changeSet id SealedSet.parkedAgain s).withReady l) = makeDue id v (s.withReady l) := by
  have twice : (s.sets.map (changedAt id SealedSet.parkedAgain)).map
        (changedAt id fun x => { x with state := .due, dueTime := some v }) =
      s.sets.map (changedAt id fun x => { x with state := .due, dueTime := some v }) := by
    rw [List.map_map]
    refine List.map_congr_left fun x _ => ?_
    by_cases hx : x.id = id
    · simp [changedAt, SealedSet.parkedAgain, hx]
    · simp [changedAt, hx]
  have sets : changeSet id (fun x => { x with state := .due, dueTime := some v })
        ((changeSet id SealedSet.parkedAgain s).withReady l) =
      changeSet id (fun x => { x with state := .due, dueTime := some v }) (s.withReady l) :=
    congrArg (fun y => (s.withReady l).withSets y) twice
  unfold Machine.makeDue
  rw [sets]

theorem readyKept_keptByMoves (ordered : Prop) : KeptByMoves True (ReadyKept ordered) where
  ids _ _ h := h.1.1
  posted _ _ h := h.of_eq rfl rfl
  cycle _ _ _ h := h.of_eq rfl rfl
  armed _ _ h := h.of_eq rfl rfl
  engine _ h := h.of_eq rfl rfl
  relabelled f hf h := by
    have hi (x : SealedSet) : (f x).id = x.id := by obtain ⟨m, p, e⟩ := hf x; rw [e]
    have hs (x : SealedSet) : (f x).state = x.state := by obtain ⟨m, p, e⟩ := hf x; rw [e]
    have hd (x : SealedSet) : (f x).dueTime = x.dueTime := by obtain ⟨m, p, e⟩ := hf x; rw [e]
    exact ⟨h.1.map f hi hs hd rfl rfl, fun o => (h.2 o).map f hi hd rfl rfl⟩
  left {_ x} _ h := ⟨h.1.removeSet x, fun o => .removeSet h.1 (h.2 o) x⟩
  due v hx h := h.makeDue v (List.mem_map_of_mem (hx trivial).1) (h.1.not_unlisted (hx trivial).1 (hx trivial).2)
  pending v hx h := h.change (hx trivial).1 (hx trivial).2 (SealedSet.pendingAt v) (fun _ => rfl) (fun _ => nofun) rfl rfl
  dueAgain {s x} v hx h := by
    rw [← makeDue_changeSet]
    have hp : ReadyKept ordered ((changeSet x.id SealedSet.parkedAgain s).withReady (s.schedule.ready.erase x.id)) :=
      h.unlist x.id SealedSet.parkedAgain (fun _ => rfl) (fun _ => nofun) rfl rfl
    refine hp.makeDue v ?_ h.1.2.1.not_mem_erase
    have ids := ids_map (sets := s.sets) _ (changedAt_id (f := SealedSet.parkedAgain) (fun _ => rfl) x.id)
    exact ids ▸ List.mem_map_of_mem hx
  pendingAgain {_ x} v _ h := h.unlist x.id (SealedSet.pendingAt v) (fun _ => rfl) (fun _ => nofun) rfl rfl
  parked {_ x} hx ha h := h.change hx (SealedSet.unlisted_of_ne_due (by simp [ha])) SealedSet.parkedAgain (fun _ => rfl)
    (fun _ => nofun) rfl rfl
  headGone {s id _} hr hf h := by
    obtain ⟨x, hx, he, -⟩ := (h.1.2.2.1 id).1 (hr ▸ List.mem_cons_self)
    exact absurd (List.find?_eq_none.1 hf x hx) (by simp [he])
  headLeft {s x rest} hr _ h := by
    have hn := (List.nodup_cons.1 (hr ▸ h.1.2.1)).1
    have hk : ReadyKept ordered (removeSet x s) := ⟨h.1.removeSet x, fun o => .removeSet h.1 (h.2 o) x⟩
    refine hk.of_eq rfl ?_
    change rest.erase x.id = s.schedule.ready.erase x.id
    rw [hr, List.erase_cons_head, List.erase_of_not_mem hn]
  headParked {_ x _} hr _ h := h.unlist x.id SealedSet.parkedAgain (fun _ => rfl) (fun _ => nofun) rfl (by rw [hr, List.erase_cons_head]; rfl)
  headTaken {_ x _} hr _ _ h := h.unlist x.id SealedSet.taken (fun _ => rfl) (fun _ => nofun) rfl (by rw [hr, List.erase_cons_head]; rfl)

/-! ### A seal -/

theorem find?_append_of_mem {sets : List SealedSet} {a : Nat} (ha : a ∈ sets.map (·.id)) (x : SealedSet) :
    (sets ++ [x]).find? (fun y => y.id = a) = sets.find? fun y => y.id = a := by
  obtain ⟨y, hy, rfl⟩ := List.mem_map.1 ha
  rw [List.find?_append, Option.or_of_isSome]
  exact List.find?_isSome.2 ⟨y, hy, by simp⟩

theorem dueTimeOf_append {sets : List SealedSet} {a : Nat} (ha : a ∈ sets.map (·.id)) (x : SealedSet) :
    dueTimeOf (sets ++ [x]) a = dueTimeOf sets a := by
  unfold dueTimeOf
  rw [find?_append_of_mem ha]

theorem sealRank_append {sets : List SealedSet} {a : Nat} (ha : a ∈ sets.map (·.id)) (x : SealedSet) :
    sealRank (sets ++ [x]) a = sealRank sets a := by
  obtain ⟨y, hy, rfl⟩ := List.mem_map.1 ha
  unfold sealRank
  rw [List.findIdx_append, if_pos (List.findIdx_lt_length_of_exists ⟨y, hy, by simp⟩)]

theorem goesBefore_append {sets : List SealedSet} {a b : Nat} (ha : a ∈ sets.map (·.id)) (hb : b ∈ sets.map (·.id))
    (x : SealedSet) : goesBefore (sets ++ [x]) a b = goesBefore sets a b := by
  unfold goesBefore
  rw [dueTimeOf_append ha, dueTimeOf_append hb, sealRank_append ha, sealRank_append hb]

theorem ReadyKept.sealedIn (h : ReadyKept ordered s) {n : SessionIx} {o : OpenSet}
    (hl : ∀ x ∈ s.sets, x.id ≠ (sealedNow n o s).id) :
    ReadyKept ordered (sealedIn n o s) := by
  obtain ⟨⟨hids, hnodup, hready, hdue, hsorted⟩, hordered⟩ := h
  have hs : (Machine.sealedIn n o s).sets = s.sets ++ [sealedNow n o s] := rfl
  have hr : (Machine.sealedIn n o s).schedule.ready = s.schedule.ready := rfl
  have live {a : Nat} (ha : a ∈ s.schedule.ready) : a ∈ s.sets.map (·.id) := by
    obtain ⟨x, hx, rfl, -⟩ := (hready a).1 ha
    exact List.mem_map_of_mem hx
  have notDue : (sealedNow n o s).state ≠ .due := by
    unfold sealedNow sealedFrom
    cases o.due <;> nofun
  have before {a b : Nat} (ha : a ∈ s.schedule.ready) (hb : b ∈ s.schedule.ready) :=
    goesBefore_append (live ha) (live hb) (sealedNow n o s)
  refine ⟨⟨nodup_ids_sealedIn hl hids, hr ▸ hnodup, fun a => ?_, ?_, ?_⟩, fun ho => ?_⟩
  · rw [hr, hs, hready]
    constructor
    · rintro ⟨x, hx, hxd⟩
      exact ⟨x, List.mem_append_left _ hx, hxd⟩
    · rintro ⟨x, hx, he, hxd⟩
      obtain hx | hx := List.mem_append.1 hx
      · exact ⟨x, hx, he, hxd⟩
      · exact absurd (List.mem_singleton.1 hx ▸ hxd) notDue
  · intro x hx hxd
    obtain hx | hx := List.mem_append.1 (hs ▸ hx)
    · exact hdue x hx hxd
    · exact absurd (List.mem_singleton.1 hx ▸ hxd) notDue
  · rw [hr, hs]
    refine hsorted.imp_of_mem fun ha hb hab => ?_
    rwa [dueTimeOf_append (live ha), dueTimeOf_append (live hb)]
  · unfold ReadyOrdered
    rw [hr, hs]
    exact List.Pairwise.imp_of_mem (fun ha hb hab => (before ha hb).trans hab) (hordered ho)

theorem readyKept_keptByCommands (ordered : Prop) : KeptByCommands True (ReadyKept ordered) :=
  (readyKept_keptByMoves ordered).keptByCommands
    (fun e h => h.of_eq (congrArg Schedule.sets e) (congrArg Schedule.ready e))
    (fun n o hl h => h.sealedIn (sealedNow_fresh hl n o))
    ⟨resetMeetsTheInvariants.2.2.2.2.2.2.2.2.2.1, fun _ => resetMeetsTheInvariants.2.2.2.2.2.2.2.2.2.2.1⟩

/-! ### TIME_SET -/

/-- R61: what a TIME_SET makes of a set. -/
def SealedSet.shifted (d : Int) (x : SealedSet) : SealedSet :=
  if x.state = .due ∨ x.state = .applying then { x with dueTime := x.dueTime.map (shiftTime d) } else x

theorem setTime_sets (x : Nat) (s : State) : (setTime x s).sets = s.sets.map (SealedSet.shifted (x - s.clock.rig)) := rfl

theorem SealedSet.shifted_id (d : Int) (x : SealedSet) : (x.shifted d).id = x.id := by
  unfold shifted; split <;> rfl

theorem SealedSet.shifted_state (d : Int) (x : SealedSet) : (x.shifted d).state = x.state := by
  unfold shifted; split <;> rfl

theorem SealedSet.shifted_due {x : SealedSet} (h : x.state = .due) (d : Int) :
    (x.shifted d).dueTime = x.dueTime.map (shiftTime d) := by simp [shifted, h]

theorem shiftTime_le {d : Int} {a b : Nat} (h : a ≤ b) : shiftTime d a ≤ shiftTime d b := by
  unfold shiftTime capTime
  omega

theorem find?_of_nodup {sets : List SealedSet} (h : (sets.map (·.id)).Nodup) {x : SealedSet} (hx : x ∈ sets) :
    sets.find? (fun y => y.id = x.id) = some x := by
  have hsome : (sets.find? fun y => decide (y.id = x.id)).isSome := List.find?_isSome.2 ⟨x, hx, by simp⟩
  obtain ⟨y, hy⟩ := Option.isSome_iff_exists.1 hsome
  obtain rfl := List.inj_on_of_nodup_map h (List.mem_of_find?_eq_some hy) hx (by simpa using List.find?_some hy)
  exact hy

theorem dueTimeOf_of_nodup {sets : List SealedSet} (h : (sets.map (·.id)).Nodup) {x : SealedSet} (hx : x ∈ sets) :
    dueTimeOf sets x.id = x.dueTime.getD 0 := by
  unfold dueTimeOf
  rw [find?_of_nodup h hx]

/-- The due time of a DUE set is moved. -/
theorem dueTimeOf_shifted (h : ReadyListed s) (d : Int) {a : Nat} (ha : a ∈ s.schedule.ready) :
    dueTimeOf (s.sets.map (SealedSet.shifted d)) a = shiftTime d (dueTimeOf s.sets a) := by
  obtain ⟨hids, -, hready, hdue, -⟩ := h
  obtain ⟨x, hx, rfl, hxd⟩ := (hready a).1 ha
  obtain ⟨v, hv⟩ := Option.ne_none_iff_exists'.1 (hdue x hx hxd)
  have hids' : ((s.sets.map (SealedSet.shifted d)).map (·.id)).Nodup := by rwa [ids_map _ (SealedSet.shifted_id d)]
  have moved := dueTimeOf_of_nodup hids' (List.mem_map_of_mem hx)
  rw [SealedSet.shifted_id] at moved
  rw [moved, dueTimeOf_of_nodup hids hx, SealedSet.shifted_due hxd, hv]
  rfl

theorem ReadyListed.setTime (h : ReadyListed s) (x : Nat) : ReadyListed (setTime x s) := by
  have due := fun {a : Nat} => dueTimeOf_shifted (a := a) h (x - s.clock.rig)
  obtain ⟨hids, hnodup, hready, hdue, hsorted⟩ := h
  have hr : (Machine.setTime x s).schedule.ready = s.schedule.ready := rfl
  refine ⟨?_, hr ▸ hnodup, fun id => ?_, ?_, ?_⟩
  · rwa [setTime_sets, ids_map _ (SealedSet.shifted_id _)]
  · rw [hr, hready, setTime_sets]
    constructor
    · rintro ⟨y, hy, rfl, hyd⟩
      exact ⟨_, List.mem_map_of_mem hy, y.shifted_id _, (y.shifted_state _).trans hyd⟩
    · rintro ⟨z, hz, rfl, hzd⟩
      obtain ⟨y, hy, rfl⟩ := List.mem_map.1 hz
      exact ⟨y, hy, (y.shifted_id _).symm, (y.shifted_state _).symm.trans hzd⟩
  · rw [setTime_sets]
    refine List.forall_mem_map.2 fun y hy hyd => ?_
    have hyd := (y.shifted_state _).symm.trans hyd
    rw [SealedSet.shifted_due hyd]
    simpa using hdue y hy hyd
  · rw [hr, setTime_sets]
    refine hsorted.imp_of_mem fun ha hb hab => ?_
    rw [due ha, due hb]
    exact shiftTime_le hab

/-- R61: due times that are not held at the ends of the range keep the order of equal ones. -/
theorem ReadyOrdered.setTime (h : ReadyListed s) (h' : ReadyOrdered s) (x : Nat)
    (hv : ∀ y ∈ s.sets, ∀ v, y.state = .due → y.dueTime = some v →
      (s.clock.rig : Int) ≤ (v : Int) + x ∧ (v : Int) + x - s.clock.rig ≤ 2 ^ 48 - 1) : ReadyOrdered (setTime x s) := by
  have free {a : Nat} (ha : a ∈ s.schedule.ready) :
      (s.clock.rig : Int) ≤ (dueTimeOf s.sets a : Int) + x ∧ (dueTimeOf s.sets a : Int) + x - s.clock.rig ≤ 2 ^ 48 - 1 := by
    obtain ⟨hids, -, hready, hdue, -⟩ := h
    obtain ⟨y, hy, rfl, hyd⟩ := (hready a).1 ha
    obtain ⟨v, hv'⟩ := Option.ne_none_iff_exists'.1 (hdue y hy hyd)
    rw [dueTimeOf_of_nodup hids hy, hv']
    exact hv y hy v hyd hv'
  have moved {a : Nat} (ha : a ∈ s.schedule.ready) :
      dueTimeOf (Machine.setTime x s).sets a = dueTimeOf s.sets a + x - s.clock.rig := by
    rw [setTime_sets, dueTimeOf_shifted h _ ha]
    have := free ha
    unfold shiftTime capTime
    simp only [Config.maxTime]
    omega
  unfold ReadyOrdered
  refine List.Pairwise.imp_of_mem (fun {a b} ha hb hab => ?_) (show s.schedule.ready.Pairwise _ from h')
  have fa := free ha
  have fb := free hb
  rw [goesBefore_iff] at *
  rw [moved ha, moved hb, setTime_sets, sealRank_map _ (SealedSet.shifted_id _), sealRank_map _ (SealedSet.shifted_id _)]
  omega

/-- Settles O10: the list is kept by the moves of a set, and its order too; a TIME_SET keeps the order where it moves
every due time by the same amount. -/
theorem stepKeepsTheReadyList : Obligations.StepKeepsTheReadyList := by
  refine ⟨fun s t h hu => ?_, fun s t h h' hfree hu => ?_, fun s t h hu => ?_⟩
  · exact ((readyKept_keptByCommands False).step
      (fun _ _ _ _ u _ _ hu => ⟨hu.1.setTime _, False.elim⟩) ⟨h, False.elim⟩ hu).1
  · refine ((readyKept_keptByCommands True).step (fun g x rest hp u hs hc hu => ⟨hu.1.setTime _, fun _ => ?_⟩)
      ⟨h, fun _ => h'⟩ hu).2 trivial
    have hsets : u.sets = s.sets := congrArg Schedule.sets hs
    refine .setTime hu.1 (hu.2 trivial) _ fun y hy v hd hv => ?_
    rw [hc]
    exact hfree g x rest hp y (hsets ▸ hy) v hd hv
  · exact nextIdBounded_keptByCommands.step (fun _ _ _ _ _ _ _ hu => hu) h hu

end

end Sys2Proof.Machine
end


section
/-! PROOFS. Where the items of sessions are (R36 to R38): what each operation does to the items held in open sets, in sealed
sets and on their way back to the pool, and that every step conserves them. -/

namespace Sys2Proof.Machine

/-! ### The items held -/

/-- The items of a session's open set. -/
def openLen (s : State) (n : SessionIx) : Nat := ((s.openSet n).map fun o => o.items.length).getD 0

/-- The items of a sealed set, where its owner is one of `who`. -/
def sealedLen (who : SessionIx → Bool) (x : SealedSet) : Nat := if who x.owner then x.items.length else 0

/-- The items that a notice returns, where their session is one of `who`. -/
def returnedLen (who : SessionIx → Bool) (n : Notice) : Nat :=
  match n with
  | .itemsReturn m count => if who m then count else 0
  | _ => 0

/-- The items that the sessions of `who` hold in open sets, in sealed sets and on their way back (R36). -/
def heldBy (who : SessionIx → Bool) (s : State) : Nat :=
  (∑ n, if who n then openLen s n else 0) + (s.sets.map (sealedLen who)).sum + (s.notices.map (returnedLen who)).sum

section
variable {who : SessionIx → Bool} {s t : State}

theorem eq_itemsReturn_of_lane {x : Notice} {n : SessionIx} (h : noticeLane x = .itemsReturn n) :
    ∃ k, x = .itemsReturn n k := by
  cases x
  case itemsReturn m k => cases h; exact ⟨k, rfl⟩
  case busRequest r _ => cases r <;> cases h
  all_goals cases h

theorem returnedLen_of_lane {x : Notice} {n : SessionIx} (h : noticeLane x ≠ .itemsReturn n) :
    returnedLen (fun m => m = n) x = 0 := by
  cases x
  case itemsReturn m k => exact if_neg fun e => h (by simp [noticeLane, of_decide_eq_true e])
  all_goals rfl

/-- R36: what all sessions hold. -/
theorem heldBy_all (s : State) : heldBy (fun _ => true) s =
    openItems s + (s.sets.map fun x => x.items.length).sum + returning s.notices := by
  have opens : (∑ n, if (fun _ : SessionIx => true) n then openLen s n else 0) = openItems s := by
    have each (n : SessionIx) : openLen s n = (match s.openSet n with | some o => o.items.length | none => 0) := by
      unfold openLen; cases s.openSet n <;> rfl
    simp only [if_true, openItems, allSessions, each, Fin.sum_univ_def] <;> rfl
  have ret : returnedLen (fun _ => true) = fun n =>
      match n with | .itemsReturn _ count => count | _ => 0 := by
    funext n; cases n <;> rfl
  unfold heldBy returning
  rw [opens, ret]
  rfl

/-- R36: what one session holds. -/
theorem heldBy_one (n : SessionIx) (s : State) : heldBy (fun m => m = n) s = heldItems n s := by
  have opens : (∑ m, if (fun m : SessionIx => decide (m = n)) m then openLen s m else 0) = openLen s n := by
    simp
  have sealed (sets : List SealedSet) : (sets.map (sealedLen fun m => m = n)).sum =
      ((sets.filter fun x => x.owner = n).map fun x => x.items.length).sum := by
    induction sets with
    | nil => rfl
    | cons x xs ih => by_cases hx : x.owner = n <;> simp [sealedLen, hx, ih]
  have ret (ns : List Notice) : (ns.map (returnedLen fun m => m = n)).sum =
      returning (ns.filter fun x => noticeLane x = .itemsReturn n) := by
    induction ns with
    | nil => rfl
    | cons x xs ih =>
      by_cases hx : noticeLane x = .itemsReturn n
      · obtain ⟨k, rfl⟩ := eq_itemsReturn_of_lane hx
        simp [returning, returnedLen, noticeLane, ih]
      · simp [hx, returnedLen_of_lane hx, ih]
  unfold heldBy heldItems
  rw [opens, sealed, ret]
  congr 2
  unfold openLen; cases s.openSet n <;> rfl

/-- The notices of items returned are all that counts. -/
theorem returnedLen_of_class {n : Notice} (h : n.class ≠ .itemsReturn) : returnedLen who n = 0 := by
  cases n <;> first | rfl | exact absurd rfl h

theorem returnedLen_noticesOf (who : SessionIx → Bool) (s : State) :
    (s.notices.map (returnedLen who)).sum = ((s.noticesOf .itemsReturn).map (returnedLen who)).sum := by
  unfold State.noticesOf
  induction s.notices with
  | nil => rfl
  | cons n ns ih =>
    by_cases hn : n.class = .itemsReturn
    · simp [hn, ih]
    · simp [hn, ih, returnedLen_of_class hn]

/-- What leaves the open sets, the sealed sets and the items on their way alone. -/
theorem heldBy_congr (ho : ∀ n, openLen t n = openLen s n) (hs : t.sets.map (sealedLen who) = s.sets.map (sealedLen who))
    (hn : t.noticesOf .itemsReturn = s.noticesOf .itemsReturn) : heldBy who t = heldBy who s := by
  unfold heldBy
  rw [returnedLen_noticesOf, returnedLen_noticesOf, hn, hs]
  simp only [ho]

/-! ### Sealed sets -/

theorem sum_erase_set {sets : List SealedSet} (h : (sets.map (·.id)).Nodup) {x : SealedSet} (hx : x ∈ sets)
    (w : SealedSet → Nat) : ((sets.filter fun y => y.id ≠ x.id).map w).sum + w x = (sets.map w).sum := by
  induction sets with
  | nil => cases hx
  | cons y ys ih =>
    obtain ⟨hy, hys⟩ := List.nodup_cons.1 h
    have absent {z : SealedSet} (hz : z ∈ ys) : z.id ≠ y.id := fun e => hy (List.mem_map.2 ⟨z, hz, e⟩)
    obtain rfl | hx := List.mem_cons.1 hx
    · rw [List.filter_cons_of_neg (by simp), List.filter_eq_self.2 fun z hz => by simpa using absent hz]
      simp [add_comm]
    · rw [List.filter_cons_of_pos (by simpa using (absent hx).symm)]
      have := ih hys hx
      simp only [List.map_cons, List.sum_cons]
      omega

/-- R51: the items of a set that leaves are on their way back. -/
theorem heldBy_removeSet (h : (s.sets.map (·.id)).Nodup) {x : SealedSet} (hx : x ∈ s.sets) :
    heldBy who (removeSet x s) = heldBy who s := by
  have hsum := sum_erase_set h hx (sealedLen who)
  have sets : (removeSet x s).sets = s.sets.filter fun y => y.id ≠ x.id := rfl
  have notices : (removeSet x s).notices = s.notices ++ [.itemsReturn x.owner x.items.length] := rfl
  have opens (n : SessionIx) : openLen (removeSet x s) n = openLen s n := rfl
  have back : returnedLen who (.itemsReturn x.owner x.items.length) = sealedLen who x := rfl
  unfold heldBy
  simp only [sets, notices, opens, List.map_append, List.sum_append, List.map_cons, List.map_nil, List.sum_cons,
    List.sum_nil, back]
  omega

/-! ### Open sets -/

/-- One session's open set is replaced. -/
theorem sum_openLen_withOpenSet (n : SessionIx) (o : Option OpenSet) :
    (∑ m, if who m then openLen (s.withOpenSet n o) m else 0) + (if who n then openLen s n else 0) =
      (∑ m, if who m then openLen s m else 0) + if who n then ((o.map fun o => o.items.length).getD 0) else 0 := by
  have at_n : openLen (s.withOpenSet n o) n = (o.map fun o => o.items.length).getD 0 := by simp [openLen]
  have off (m : SessionIx) (hm : m ∈ Finset.univ.erase n) : (if who m then openLen (s.withOpenSet n o) m else 0) =
      if who m then openLen s m else 0 := by
    simp [openLen, (Finset.ne_of_mem_erase hm).symm]
  rw [← Finset.add_sum_erase _ _ (Finset.mem_univ n), ← Finset.add_sum_erase Finset.univ (fun m => if who m then openLen s m else 0) (Finset.mem_univ n),
    Finset.sum_congr rfl off, at_n]
  omega

/-- An open set is replaced, and nothing else that counts. -/
theorem heldBy_withOpenSet (n : SessionIx) (o : Option OpenSet) :
    heldBy who (s.withOpenSet n o) + (if who n then openLen s n else 0) =
      heldBy who s + if who n then ((o.map fun o => o.items.length).getD 0) else 0 := by
  have h := sum_openLen_withOpenSet (who := who) (s := s) n o
  have sets : (s.withOpenSet n o).sets = s.sets := rfl
  have notices : (s.withOpenSet n o).notices = s.notices := rfl
  unfold heldBy
  rw [sets, notices]
  omega

theorem openLen_eq {n : SessionIx} {o : OpenSet} (h : s.openSet n = some o) : openLen s n = o.items.length := by
  simp [openLen, h]

/-! ### What the Set Assembler does -/

theorem heldBy_changeInUse (n : SessionIx) (f : Nat → Nat) (s : State) : heldBy who (changeInUse n f s) = heldBy who s := by
  unfold changeInUse
  split <;> rfl

theorem heldBy_changePool (f : Nat → Nat) (s : State) : heldBy who (changePool f s) = heldBy who s := rfl

/-- R27: the items of a SET_ADD are in the open set. -/
theorem heldBy_takeItems {n : SessionIx} {o : OpenSet} (h : s.openSet n = some o) (is : List Item) :
    heldBy who (takeItems n o is s) = heldBy who s + if who n then is.length else 0 := by
  have := heldBy_withOpenSet (who := who) (s := s) n (some { o with items := o.items ++ is })
  simp only [openLen_eq h, Option.map_some, Option.getD_some, List.length_append] at this
  rw [takeItems, heldBy_changeInUse, heldBy_changePool]
  by_cases hw : who n
  · simp only [hw, if_true] at this ⊢
    omega
  · simpa [hw] using this

/-- R35: the items of a discarded open set are held no more. -/
theorem heldBy_discardOpenSet {n : SessionIx} {o : OpenSet} (h : s.openSet n = some o) :
    heldBy who (discardOpenSet n o s) + (if who n then o.items.length else 0) = heldBy who s := by
  have := heldBy_withOpenSet (who := who) (s := s) n none
  simp only [openLen_eq h, Option.map_none, Option.getD_none, ite_self, add_zero] at this
  rwa [discardOpenSet, heldBy_changeInUse, heldBy_changePool]

/-- R37: items that have come back are held no more. -/
theorem heldBy_dropReturn {n : SessionIx} {k : Nat} (h : headNotice (.itemsReturn n) s = some (.itemsReturn n k)) :
    heldBy who (dropNotice (.itemsReturn n) s) + (if who n then k else 0) = heldBy who s := by
  have hsum : (((dropNotice (.itemsReturn n) s).notices.map (returnedLen who)).sum + if who n then k else 0) =
      (s.notices.map (returnedLen who)).sum := by
    unfold headNotice at h
    simp only [dropNotice, State.withNotices_notices]
    revert h
    induction s.notices with
    | nil => nofun
    | cons m ms ih =>
      intro h
      by_cases hm : noticeLane m = .itemsReturn n
      · simp only [hm, decide_true, List.find?_cons_of_pos, Option.some.injEq] at h
        subst h
        simp [noticeLane, returnedLen, add_comm]
      · simp only [hm, decide_false, Bool.false_eq_true, not_false_eq_true, List.find?_cons_of_neg] at h
        have := ih h
        simp only [hm, decide_false, Bool.false_eq_true, not_false_eq_true, List.eraseP_cons_of_neg, List.map_cons,
          List.sum_cons]
        omega
  have sets : (dropNotice (.itemsReturn n) s).sets = s.sets := rfl
  have opens (m : SessionIx) : openLen (dropNotice (.itemsReturn n) s) m = openLen s m := rfl
  unfold heldBy
  simp only [sets, opens]
  omega

/-- R30: a seal moves the items of the open set into the sealed set. -/
theorem heldBy_sealedIn {n : SessionIx} {o : OpenSet} (h : s.openSet n = some o) :
    heldBy who (sealedIn n o s) = heldBy who s := by
  have hopen := sum_openLen_withOpenSet (who := who) (s := s) n none
  simp only [openLen_eq h, Option.map_none, Option.getD_none, ite_self, add_zero] at hopen
  have opens (m : SessionIx) : openLen (sealedIn n o s) m = openLen (s.withOpenSet n none) m := rfl
  have sets : (sealedIn n o s).sets = s.sets ++ [sealedNow n o s] := rfl
  have notices : (sealedIn n o s).notices = s.notices := rfl
  have len : sealedLen who (sealedNow n o s) = if who n then o.items.length else 0 := rfl
  unfold heldBy
  simp only [opens, sets, notices, List.map_append, List.sum_append, List.map_cons, List.map_nil, List.sum_cons,
    List.sum_nil, len]
  omega

end

end Sys2Proof.Machine
end


section
/-! PROOFS. Every step conserves the Item Pool (R36, R37) and keeps each session's items in use equal to the items it holds
and within its quota (R36 to R38). -/

namespace Sys2Proof.Machine

/-! ### Properties of the accounts -/

theorem SealedSet.shifted_owner (d : Int) (x : SealedSet) : (x.shifted d).owner = x.owner := by
  unfold shifted; split <;> rfl

theorem SealedSet.shifted_items (d : Int) (x : SealedSet) : (x.shifted d).items = x.items := by
  unfold shifted; split <;> rfl

/-- A property of the accounts: it holds of every state in which the ids of the sets are distinct, every session holds as
many items as before, as many are free and the sessions are kept. -/
structure OfAccounts (P : State → Prop) : Prop where
  ids : ∀ {s}, P s → (s.sets.map (·.id)).Nodup
  same : ∀ {s t}, P s → (t.sets.map (·.id)).Nodup → (∀ who, heldBy who t = heldBy who s) →
    t.assembler.poolFree = s.assembler.poolFree → SessionsKept True s t → P t

namespace OfAccounts

variable {P : State → Prop} (A : OfAccounts P) {s t : State}
include A

/-- The sets are changed, but not their ids, owners and items. -/
theorem map (h : P s) (f : SealedSet → SealedSet) (hf : ∀ x, (f x).id = x.id ∧ (f x).owner = x.owner ∧ (f x).items = x.items)
    (hs : t.sets = s.sets.map f) (ho : t.assembler = s.assembler) (hn : t.notices = s.notices)
    (hr : t.sessions = s.sessions) : P t := by
  refine A.same h ?_ (fun who => heldBy_congr (fun n => ?_) ?_ ?_) (by rw [ho]) (.of_eq hr)
  · rw [hs, ids_map f fun x => (hf x).1]
    exact A.ids h
  · unfold openLen State.openSet; rw [ho]
  · rw [hs, List.map_map]
    refine List.map_congr_left fun x _ => ?_
    simp [sealedLen, hf x]
  · unfold State.noticesOf; rw [hn]

theorem change (h : P s) {x : SealedSet} (f : SealedSet → SealedSet)
    (hf : ∀ x, (f x).id = x.id ∧ (f x).owner = x.owner ∧ (f x).items = x.items)
    (hs : t.sets = s.sets.map (changedAt x.id f)) (ho : t.assembler = s.assembler) (hn : t.notices = s.notices)
    (hr : t.sessions = s.sessions) : P t := by
  refine A.map h (changedAt x.id f) (fun y => ?_) hs ho hn hr
  unfold changedAt
  split
  · exact hf y
  · exact ⟨rfl, rfl, rfl⟩

/-- Nothing changes that counts. -/
theorem quiet (h : P s) (hs : t.sets = s.sets) (ho : t.assembler = s.assembler)
    (hn : t.noticesOf .itemsReturn = s.noticesOf .itemsReturn) (hr : SessionsKept True s t) : P t :=
  A.same h (hs ▸ A.ids h) (fun _ => heldBy_congr (fun n => by unfold openLen State.openSet; rw [ho]) (by rw [hs]) hn)
    (by rw [ho]) hr

theorem keptByMoves : KeptByMoves True P where
  ids _ _ h := A.ids h
  posted n hn h := A.quiet h rfl rfl (by simp [noticesOf_post, hn]) (.of_eq rfl)
  cycle _ _ _ h := A.quiet h rfl rfl rfl (.of_eq rfl)
  armed _ _ h := A.quiet h rfl rfl rfl (.of_eq rfl)
  engine _ h := A.quiet h rfl rfl rfl (.of_eq rfl)
  relabelled f hf h := A.map h f (fun x => by obtain ⟨m, p, e⟩ := hf x; rw [e]; exact ⟨rfl, rfl, rfl⟩) rfl rfl rfl rfl
  left hx h := A.same h ((A.ids h).sublist (List.filter_sublist.map _)) (fun _ => heldBy_removeSet (A.ids h) (hx trivial)) rfl
    (.of_eq rfl)
  due {_ x} v _ h := A.change h (x := x) (SealedSet.dueAt v) (fun _ => ⟨rfl, rfl, rfl⟩) rfl rfl rfl rfl
  pending {_ x} v _ h := A.change h (x := x) (SealedSet.pendingAt v) (fun _ => ⟨rfl, rfl, rfl⟩) rfl rfl rfl rfl
  dueAgain {_ x} v _ h := A.change h (x := x) (SealedSet.dueAt v) (fun _ => ⟨rfl, rfl, rfl⟩) rfl rfl rfl rfl
  pendingAgain {_ x} v _ h := A.change h (x := x) (SealedSet.pendingAt v) (fun _ => ⟨rfl, rfl, rfl⟩) rfl rfl rfl rfl
  parked {_ x} _ _ h := A.change h (x := x) SealedSet.parkedAgain (fun _ => ⟨rfl, rfl, rfl⟩) rfl rfl rfl rfl
  headGone _ _ h := A.quiet h rfl rfl rfl (.of_eq rfl)
  headLeft {s x rest} _ hx h := by
    have hu : P (s.withReady rest) := A.quiet h rfl rfl rfl (.of_eq rfl)
    exact A.same hu ((A.ids h).sublist (List.filter_sublist.map _)) (fun _ => heldBy_removeSet (A.ids hu) hx) rfl (.of_eq rfl)
  headParked {_ x _} _ _ h := A.change h (x := x) SealedSet.parkedAgain (fun _ => ⟨rfl, rfl, rfl⟩) rfl rfl rfl rfl
  headTaken {_ x _} _ _ _ h := A.change h (x := x) SealedSet.taken (fun _ => ⟨rfl, rfl, rfl⟩) rfl rfl rfl rfl

/-- R61: a TIME_SET moves no item. -/
theorem setTime (x : Nat) (h : P s) : P (setTime x s) := by
  refine A.same h ?_ (fun who => heldBy_congr (fun _ => rfl) ?_ (noticesOf_setTime (by simp) x s)) rfl
    (sessionsKept_setTime x s)
  · rw [setTime_sets, ids_map _ (SealedSet.shifted_id _)]
    exact A.ids h
  · rw [setTime_sets, List.map_map]
    refine List.map_congr_left fun y _ => ?_
    rw [Function.comp, sealedLen, SealedSet.shifted_owner, SealedSet.shifted_items, sealedLen]

/-- An open set is replaced by one with as many items. -/
theorem withOpenSet {n : SessionIx} {o : Option OpenSet} (hl : (o.map fun o => o.items.length).getD 0 = openLen s n)
    (h : P s) : P (s.withOpenSet n o) := by
  refine A.same h (show (s.sets.map (·.id)).Nodup from A.ids h) (fun who => ?_) rfl (.of_eq rfl)
  have := heldBy_withOpenSet (who := who) (s := s) n o
  rw [hl] at this
  omega

end OfAccounts

/-- What the Set Assembler and the Session Table do to a property of the accounts remains to be shown. -/
theorem OfAccounts.keptByCommands {P : State → Prop} (A : OfAccounts P)
    (opened : ∀ {s n} (l : LinkId) (role : Role) (x : Settings), s.session n = none → P s → P (openSession l n role x s))
    (closed : ∀ {s n r}, s.session n = some r → r.inUse = 0 → P s → P (s.withSession n none))
    (taken : ∀ {s n o r} (is : List Item), s.openSet n = some o → s.session n = some r →
      o.items.length + is.length ≤ 32 → r.inUse + is.length ≤ r.quota → is.length ≤ s.assembler.poolFree → P s →
      P (takeItems n o is s))
    (discarded : ∀ {s n o}, s.openSet n = some o → P s → P (discardOpenSet n o s))
    (returned : ∀ {s n k}, headNotice (.itemsReturn n) s = some (.itemsReturn n k) → P s →
      P (changeInUse n (· - k) (changePool (· + k) (dropNotice (.itemsReturn n) s))))
    (reset : P State.reset) : KeptByCommands True P where
  toKeptByMoves := A.keptByMoves
  quiet h hn hr hp := A.quiet hp (congrArg Schedule.sets (h .schedule (by simp))) (h .assembler (by simp)) hn hr
  opened := opened
  closed := closed
  setOpened ho he hp := A.withOpenSet (by simp [openLen, ho, he]) hp
  spoiled c ho hp := A.withOpenSet (by simp [openLen, ho]) hp
  taken := taken
  discarded := discarded
  returned := returned
  sealed {s n o} ho hl hp := A.same hp (nodup_ids_sealedIn (sealedNow_fresh hl n o) (A.ids hp)) (fun _ => heldBy_sealedIn ho) rfl (.of_eq rfl)
  joined _ _ _ hp := A.quiet hp rfl rfl rfl (.of_eq rfl)
  reset := reset

/-! ### The Item Pool -/

theorem poolConserved_iff {s : State} : PoolConserved s ↔
    (s.sets.map (·.id)).Nodup ∧ s.assembler.poolFree + heldBy (fun _ => true) s = 512 := by
  rw [heldBy_all, PoolConserved, Config.poolSize]
  refine and_congr_right fun _ => ?_
  omega

theorem poolConserved_ofAccounts : OfAccounts PoolConserved where
  ids h := h.1
  same h hi hh hp _ := poolConserved_iff.2 ⟨hi, by rw [hp, hh]; exact (poolConserved_iff.1 h).2⟩

/-! What the Set Assembler does leaves the sets alone. -/

theorem changeInUse_sets (n : SessionIx) (f : Nat → Nat) (s : State) : (changeInUse n f s).sets = s.sets := by
  unfold changeInUse
  split <;> rfl

theorem takeItems_sets (n : SessionIx) (o : OpenSet) (is : List Item) (s : State) : (takeItems n o is s).sets = s.sets :=
  changeInUse_sets _ _ _

theorem discardOpenSet_sets (n : SessionIx) (o : OpenSet) (s : State) : (discardOpenSet n o s).sets = s.sets :=
  changeInUse_sets _ _ _

/-- A session that is opened brings no items and takes none. -/
theorem OfAccounts.openSession_same (l : LinkId) (n : SessionIx) (role : Role) (x : Settings) (s : State) :
    (openSession l n role x s).sets = s.sets ∧ (openSession l n role x s).assembler = s.assembler ∧
      ∀ who, heldBy who (openSession l n role x s) = heldBy who s := by
  cases l <;> exact ⟨rfl, rfl, fun _ => rfl⟩

theorem poolConserved_keptByCommands : KeptByCommands True PoolConserved :=
  poolConserved_ofAccounts.keptByCommands
    (fun {s n} l role x _ h => by
      obtain ⟨hs, ha, hh⟩ := OfAccounts.openSession_same l n role x s
      rw [poolConserved_iff] at *
      rwa [hs, ha, hh])
    (fun _ _ h => h)
    (fun {s n o r} is ho _ _ _ hpool h => by
      obtain ⟨hi, hsum⟩ := poolConserved_iff.1 h
      have free : (takeItems n o is s).assembler.poolFree = s.assembler.poolFree - is.length := by simp [takeItems]
      rw [poolConserved_iff, takeItems_sets, heldBy_takeItems ho, free]
      exact ⟨hi, by simp only [if_true]; omega⟩)
    (fun {s n o} ho h => by
      obtain ⟨hi, hsum⟩ := poolConserved_iff.1 h
      have := heldBy_discardOpenSet (who := fun _ => true) ho
      rw [poolConserved_iff, discardOpenSet_sets, discardOpenSet_poolFree]
      exact ⟨hi, by simp only [if_true] at this; omega⟩)
    (fun {s n k} hh h => by
      obtain ⟨hi, hsum⟩ := poolConserved_iff.1 h
      have := heldBy_dropReturn (who := fun _ => true) hh
      have free : (dropNotice (.itemsReturn n) s).assembler.poolFree = s.assembler.poolFree := rfl
      rw [poolConserved_iff, changeInUse_sets, heldBy_changeInUse, heldBy_changePool, changeInUse_assembler,
        changePool_poolFree, free]
      exact ⟨hi, by simp only [if_true] at this; omega⟩)
    (by unfold PoolConserved; decide)

/-- Settles O7, by the accounts of the pool. -/
theorem stepConservesTheItemPool : Obligations.StepConservesTheItemPool := fun _ _ h hu =>
  poolConserved_keptByCommands.step (fun _ _ _ _ _ _ _ hu => poolConserved_ofAccounts.setTime _ hu) h hu

/-! ### The items in use -/

theorem itemsCounted_iff {s : State} : ItemsCounted s ↔ (s.sets.map (·.id)).Nodup ∧
    ∀ n, (∀ r, s.session n = some r → r.inUse = heldBy (fun m => m = n) s ∧ r.inUse ≤ r.quota) ∧
      (s.session n = none → heldBy (fun m => m = n) s = 0) := by
  simp only [heldBy_one]
  rfl

theorem itemsCounted_ofAccounts : OfAccounts ItemsCounted where
  ids h := h.1
  same {s t} h hi hh _ hs := by
    obtain ⟨-, h⟩ := itemsCounted_iff.1 h
    refine itemsCounted_iff.2 ⟨hi, fun n => ⟨fun k hk => ?_, fun hn => ?_⟩⟩
    · obtain ⟨r, hr, kept⟩ := hs.some' hk
      obtain ⟨huse, hquota⟩ := (h n).1 r hr
      exact ⟨by rw [kept.inUse trivial, huse, hh], kept.quota trivial hquota⟩
    · rw [hh]
      refine (h n).2 ?_
      by_contra hne
      obtain ⟨r, hr⟩ := Option.ne_none_iff_exists'.1 hne
      obtain ⟨k, hk, -⟩ := hs.some hr
      rw [hn] at hk
      cases hk

/-- The items of one session change, and its items in use with them. -/
theorem ItemsCounted.change {s t : State} (h : ItemsCounted s) (n : SessionIx) (hi : t.sets = s.sets)
    (hh : ∀ m, m ≠ n → heldBy (fun j => j = m) t = heldBy (fun j => j = m) s)
    (hs : ∀ m, m ≠ n → t.session m = s.session m)
    (hn : ∀ k, t.session n = some k → k.inUse = heldBy (fun j => j = n) t ∧ k.inUse ≤ k.quota)
    (hc : t.session n = none → heldBy (fun j => j = n) t = 0) : ItemsCounted t := by
  obtain ⟨hids, h⟩ := itemsCounted_iff.1 h
  refine itemsCounted_iff.2 ⟨hi ▸ hids, fun m => ?_⟩
  by_cases hm : m = n
  · subst hm
    exact ⟨hn, hc⟩
  · rw [hs m hm, hh m hm]
    exact h m

theorem changeInUse_session (n m : SessionIx) (f : Nat → Nat) (s : State) : (changeInUse n f s).session m =
    if n = m then (s.session m).map fun r => { r with inUse := f r.inUse } else s.session m := by
  unfold changeInUse
  cases hn : s.session n with
  | none =>
    by_cases e : n = m
    · subst e; simp [hn]
    · simp [e]
  | some r =>
    by_cases e : n = m
    · subst e; simp [hn]
    · simp [e]

/-- R149: the record that is opened. -/
theorem openSession_session (l : LinkId) (n m : SessionIx) (role : Role) (x : Settings) (s : State) :
    (openSession l n role x s).session m = if n = m then
      some (freshSession l role x s.clock.rig (s.after (x.lease.getD 5000 * 1000)) (s.sessions.opened + 1))
    else s.session m := by
  have put : (openSession l n role x s).session m = (s.sessions.records.put n
      (some (freshSession l role x s.clock.rig (s.after (x.lease.getD 5000 * 1000)) (s.sessions.opened + 1)))).get m := by
    cases l <;> rfl
  rw [put, Table.get_put]
  rfl

theorem itemsCounted_keptByCommands : KeptByCommands True ItemsCounted :=
  itemsCounted_ofAccounts.keptByCommands
    (fun {s n} l role x hn h => by
      obtain ⟨hs, -, hh⟩ := OfAccounts.openSession_same l n role x s
      have hheld := ((itemsCounted_iff.1 h).2 n).2 hn
      refine h.change n hs (fun m _ => hh _) (fun m hm => ?_) (fun k hk => ?_) (fun _ => by rw [hh, hheld])
      · rw [openSession_session, if_neg hm.symm]
      · rw [openSession_session, if_pos rfl] at hk
        cases hk
        rw [hh, hheld]
        exact ⟨rfl, Nat.zero_le _⟩)
    (fun {s n r} hr hz h => by
      have hheld := (((itemsCounted_iff.1 h).2 n).1 r hr).1
      refine h.change n rfl (fun m _ => rfl) (fun m hm => by simp [hm.symm]) (fun k hk => by simp at hk) (fun _ => ?_)
      change heldBy _ s = 0
      omega)
    (fun {s n o r} is ho hr _ hq _ h => by
      obtain ⟨huse, -⟩ := ((itemsCounted_iff.1 h).2 n).1 r hr
      refine h.change n (takeItems_sets _ _ _ _) (fun m hm => ?_) (fun m hm => ?_) (fun k hk => ?_) (fun hk => ?_)
      · rw [heldBy_takeItems ho]
        simp [hm.symm]
      · simp [takeItems, changeInUse_session, hm.symm]
      · rw [heldBy_takeItems ho]
        simp only [takeItems, changeInUse_session, changePool_session, withOpenSet_session, hr, if_true, Option.map_some,
          Option.some.injEq] at hk
        subst hk
        simp only [decide_true, if_true]
        omega
      · simp [takeItems, changeInUse_session, hr] at hk)
    (fun {s n o} ho h => by
      have hheld := heldBy_discardOpenSet (who := fun m => m = n) ho
      simp only [decide_true, if_true] at hheld
      obtain ⟨hopen, hclosed⟩ := (itemsCounted_iff.1 h).2 n
      refine h.change n (discardOpenSet_sets _ _ _) (fun m hm => ?_) (fun m hm => ?_) (fun k hk => ?_) (fun hk => ?_)
      · have := heldBy_discardOpenSet (who := fun j => j = m) ho
        simpa [hm.symm] using this
      · simp [discardOpenSet, changeInUse_session, hm.symm]
      · simp only [discardOpenSet, changeInUse_session, changePool_session, withOpenSet_session, if_true,
          Option.map_eq_some_iff] at hk
        obtain ⟨r, hr, rfl⟩ := hk
        obtain ⟨huse, hquota⟩ := hopen r hr
        dsimp only
        omega
      · simp only [discardOpenSet, changeInUse_session, changePool_session, withOpenSet_session, if_true,
          Option.map_eq_none_iff] at hk
        have := hclosed hk
        omega)
    (fun {s n k} hn h => by
      have hheld := heldBy_dropReturn (who := fun m => m = n) hn
      simp only [decide_true, if_true] at hheld
      obtain ⟨hopen, hclosed⟩ := (itemsCounted_iff.1 h).2 n
      have same (who : SessionIx → Bool) : heldBy who (changeInUse n (· - k) (changePool (· + k)
          (dropNotice (.itemsReturn n) s))) = heldBy who (dropNotice (.itemsReturn n) s) := by
        rw [heldBy_changeInUse, heldBy_changePool]
      have session (m : SessionIx) : (dropNotice (.itemsReturn n) s).session m = s.session m := rfl
      refine h.change n (changeInUse_sets _ _ _) (fun m hm => ?_) (fun m hm => ?_) (fun r hr => ?_) (fun hr => ?_)
      · have := heldBy_dropReturn (who := fun j => j = m) hn
        simpa [same, hm.symm] using this
      · simp [changeInUse_session, hm.symm, session]
      · rw [same]
        simp only [changeInUse_session, changePool_session, session, if_true, Option.map_eq_some_iff] at hr
        obtain ⟨r, hr, rfl⟩ := hr
        obtain ⟨huse, hquota⟩ := hopen r hr
        dsimp only
        omega
      · rw [same]
        simp only [changeInUse_session, changePool_session, session, if_true, Option.map_eq_none_iff] at hr
        have := hclosed hr
        omega)
    resetMeetsTheInvariants.2.2.2.2.2.2.2.2.2.2.2.2.2.2.2

/-- Settles O8, by the accounts of the sessions. -/
theorem stepKeepsItemsInUse : Obligations.StepKeepsItemsInUse := fun _ _ h hu =>
  itemsCounted_keptByCommands.step (fun _ _ _ _ _ _ _ hu => itemsCounted_ofAccounts.setTime _ hu) h hu

end Sys2Proof.Machine
end


section
/-! PROOFS. What every command leaves of a Link Port (R166 to R173): the queues and counts keep within their bounds, no
frame joins a report queue but by the Report Unit's hand-over, and no request comes into a block's hands but by the
steps of R169. -/

namespace Sys2Proof.Machine

/-! ### Link Ports -/

/-- R168, R172, R173: the bounds of a Link Port's queues, but for its report queue, and of its counts. -/
def Link.counted (k : Link) : Prop :=
  k.input.length ≤ Config.maxInput ∧ k.replies.length ≤ Config.maxReplies ∧ k.crcErrors ≤ Config.heldCount ∧
  k.gapErrors ≤ Config.heldCount ∧ k.busyReplies ≤ Config.heldCount ∧ k.breaks ≤ Config.heldCount

theorem Link.bounded_iff {k : Link} : k.bounded ↔ k.counted ∧ k.reports.length ≤ 32 :=
  ⟨fun ⟨h1, h2, h3, h4⟩ => ⟨⟨h1, h2, h4⟩, h3⟩, fun ⟨⟨h1, h2, h4⟩, h3⟩ => ⟨h1, h2, h3, h4⟩⟩

/-- What is kept of a Link Port: no request comes into a block's hands and, where `rep` holds, no frame joins the report
queue; the bounds hold as before. -/
structure LinkKept (hand rep : Prop) (k j : Link) : Prop where
  hand : hand → j.inHand = k.inHand ∨ j.inHand = none
  reports : rep → j.reports.Sublist k.reports
  counted : k.counted → j.counted

/-- `LinkKept` of both Link Ports. -/
def LinksKept (hand rep : Prop) (s t : State) : Prop := ∀ l, LinkKept hand rep (s.link l) (t.link l)

/-- The parts that hold no Link Port. -/
def linklessParts : List Part :=
  [.clock, .claims, .assembler, .schedule, .cycles, .engine, .trigger, .slots, .bus, .modules, .sessions,
   .reports, .notices, .free, .pending]

theorem bump_le (n : Nat) : bump n ≤ Config.heldCount := Nat.min_le_right _ _

section
variable {hand rep : Prop} {s t u : State} {k j i : Link}

theorem LinkKept.refl (k : Link) : LinkKept hand rep k k := ⟨fun _ => .inl rfl, fun _ => .refl _, id⟩

theorem LinkKept.trans (h : LinkKept hand rep k j) (h' : LinkKept hand rep j i) : LinkKept hand rep k i where
  hand hp := (h'.hand hp).elim (fun e => e ▸ h.hand hp) .inr
  reports hp := (h'.reports hp).trans (h.reports hp)
  counted hk := h'.counted (h.counted hk)

/-- A change that leaves the request in its block's hands and the report queue alone. -/
theorem LinkKept.of_eq (hi : j.inHand = k.inHand) (hr : j.reports = k.reports) (hb : k.counted → j.counted) :
    LinkKept hand rep k j := ⟨fun _ => .inl hi, fun _ => hr ▸ .refl _, hb⟩

namespace LinksKept

theorem refl (s : State) : LinksKept hand rep s s := fun _ => .refl _

theorem trans (h : LinksKept hand rep s t) (h' : LinksKept hand rep t u) : LinksKept hand rep s u :=
  fun l => (h l).trans (h' l)

/-- What touches no Link Port. -/
theorem of_only (h : OnlyChanges linklessParts s t) : LinksKept hand rep s t := by
  intro l
  have e : t.link l = s.link l := by
    cases l
    · exact h .linkA (by simp [linklessParts])
    · exact h .linkB (by simp [linklessParts])
  exact e ▸ .refl _

/-- One Link Port is changed. -/
theorem withLink {l : LinkId} (h : LinkKept hand rep (s.link l) j) : LinksKept hand rep s (s.withLink l j) := by
  intro m
  by_cases e : m = l
  · subst e; rwa [State.link_withLink_self]
  · rw [State.link_withLink_ne _ _ _ e]; exact .refl _

/-- One Link Port is changed, after what is kept. -/
theorem andLink {l : LinkId} (h : LinksKept hand rep s t) (hj : LinkKept hand rep (t.link l) j) :
    LinksKept hand rep s (t.withLink l j) := h.trans (withLink hj)

theorem ite {p : Prop} [Decidable p] {a b : State} (ha : p → LinksKept hand rep s a) (hb : ¬ p → LinksKept hand rep s b) :
    LinksKept hand rep s (if p then a else b) := by
  split
  · exact ha ‹_›
  · exact hb ‹_›

end LinksKept

/-! ### Transmitters and replies -/

theorem linksKept_startSending (l : LinkId) (s : State) : LinksKept hand rep s (startSending l s) := by
  simp only [startSending]
  repeat' split
  · exact .refl s
  · next hr =>
    refine .withLink (.of_eq rfl rfl fun hb => ?_)
    obtain ⟨hi, hl, rest⟩ := hb
    exact ⟨hi, by rw [hr] at hl; exact Nat.le_of_succ_le hl, rest⟩
  · next hf =>
    refine .withLink ⟨fun _ => .inl rfl, fun _ => by rw [hf]; exact List.sublist_cons_self _ _, id⟩
  · exact .refl s

/-- A reply joins the reply queue where there is room for it, whatever becomes of the dispatch. -/
theorem linksKept_joinReplies {l : LinkId} (x : Reply) (d : DispatchState)
    (h : (s.link l).replies.length < Config.maxReplies) :
    LinksKept hand rep s (startSending l (s.withLink l
      { s.link l with replies := (s.link l).replies ++ [x], dispatch := d })) := by
  refine (LinksKept.withLink (j := { s.link l with replies := (s.link l).replies ++ [x], dispatch := d })
    (.of_eq rfl rfl fun hb => ?_)).trans (linksKept_startSending l _)
  obtain ⟨hi, -, rest⟩ := hb
  exact ⟨hi, by simpa using h, rest⟩

theorem linksKept_placeReply (l : LinkId) (x : Reply) (s : State) : LinksKept hand rep s (placeReply l x s) :=
  .ite (linksKept_joinReplies x _) fun _ => .withLink (.of_eq rfl rfl id)

theorem linksKept_placeOrDiscard (l : LinkId) (x : Reply) (s : State) : LinksKept hand rep s (placeOrDiscard l x s) :=
  .ite (linksKept_joinReplies x _) fun _ => .refl s

theorem linksKept_moveHeldReply (l : LinkId) (s : State) : LinksKept hand rep s (moveHeldReply l s) := by
  refine .ite (fun h => ?_) fun _ => .refl s
  split
  · exact linksKept_joinReplies _ _ h
  · exact linksKept_joinReplies _ _ h
  · exact .refl s
  · exact .refl s

theorem linksKept_cacheReply (h : Header) (r : Request) (x : Reply) (o : Option SessionIx) (s : State) :
    LinksKept hand rep s (cacheReply h r x o s) := by
  simp only [cacheReply]
  repeat' split
  · exact .withLink (.of_eq rfl rfl id)
  · exact .refl s
  · exact .refl s
  · exact .withLink (.of_eq rfl rfl id)

theorem linksKept_answerOpened (h : Header) (r : Request) (a : Answer) (o : Option SessionIx) (s : State) :
    LinksKept hand rep s (answerOpened h r a o s) :=
  (LinksKept.withLink (j := { s.link h.link with inHand := none }) ⟨fun _ => .inr rfl, fun _ => .refl _, id⟩).trans
    ((linksKept_cacheReply h r _ o _).trans (linksKept_placeReply h.link _ _))

theorem linksKept_answer (h : Header) (r : Request) (a : Answer) (s : State) : LinksKept hand rep s (answer h r a s) :=
  linksKept_answerOpened h r a none s

theorem linksKept_refuse (h : Header) (r : Request) (x : Reason) (s : State) : LinksKept hand rep s (refuse h r x s) :=
  linksKept_answer h r _ s

/-- The answer after what touches no Link Port. -/
theorem linksKept_answered {h : Header} {r : Request} {a : Answer} (hv : OnlyChanges linklessParts s t) :
    LinksKept hand rep s (answer h r a t) := (LinksKept.of_only hv).trans (linksKept_answer h r a t)

/-! ### The steps of R169 -/

theorem linksKept_handOver (hn : ¬ hand) (h : Header) (r : Request) (s : State) : LinksKept hand rep s (handOver h r s) :=
  .withLink ⟨fun e => absurd e hn, fun _ => .refl _, id⟩

theorem linksKept_dispatchRequest (hn : ¬ hand) (h : Header) (r : Request) (s : State) :
    LinksKept hand rep s (dispatchRequest h r s) := by
  unfold dispatchRequest
  split
  · unfold dispatchOpen
    repeat' split
    · exact linksKept_placeReply _ _ s
    · exact linksKept_handOver hn h _ s
    · exact linksKept_handOver hn h _ s
  · simp only [dispatchBound]
    repeat' split
    · exact linksKept_placeReply _ _ s
    · exact linksKept_placeReply _ _ s
    · exact linksKept_placeReply _ _ s
    · exact linksKept_handOver hn h r s
    · exact linksKept_refuse h r _ s

theorem linksKept_dispatchFrame (hn : ¬ hand) (l : LinkId) (f : InFrame) (s : State) :
    LinksKept hand rep s (dispatchFrame l f s) := by
  unfold dispatchFrame
  split
  · exact linksKept_placeReply _ _ s
  · exact linksKept_placeReply _ _ s
  · exact linksKept_dispatchRequest hn _ _ s

theorem linksKept_dispatchOldest (hn : ¬ hand) (l : LinkId) (s : State) : LinksKept hand rep s (dispatchOldest l s) := by
  simp only [dispatchOldest]
  split
  · next f rest _ _ hi =>
    refine .trans (.withLink ?_) (linksKept_dispatchFrame hn l f _)
    refine .of_eq rfl rfl fun hb => ?_
    obtain ⟨hin, tail⟩ := hb
    exact ⟨by rw [hi] at hin; exact Nat.le_of_succ_le hin, tail⟩
  · exact .refl s

theorem linksKept_bringIn (hn : ¬ hand) (h : Header) (r : Request) (s : State) : LinksKept hand rep s (bringIn h r s) := by
  have lease : LinksKept hand rep s (refreshLease h.link h.session s) := .of_only (by simp [linklessParts])
  simp only [bringIn]
  repeat' split
  · exact lease.trans (linksKept_dispatchRequest hn h r _)
  · exact linksKept_dispatchOldest hn _ s
  · exact .refl s
  · exact .refl s

/-! ### Commands of the line -/

/-- R165 to R167: a change of a Link Port's receiver, its queue of requests and its counts. -/
theorem LinkKept.line (hi : j.inHand = k.inHand) (hr : j.reports = k.reports) (hl : j.replies = k.replies)
    (hb : k.input.length ≤ Config.maxInput → j.input.length ≤ Config.maxInput)
    (h1 : j.crcErrors = k.crcErrors ∨ j.crcErrors = bump k.crcErrors)
    (h2 : j.gapErrors = k.gapErrors ∨ j.gapErrors = bump k.gapErrors)
    (h3 : j.busyReplies = k.busyReplies ∨ j.busyReplies = bump k.busyReplies)
    (h4 : j.breaks = k.breaks ∨ j.breaks = bump k.breaks) : LinkKept hand rep k j := by
  have held {a b : Nat} (h : b = a ∨ b = bump a) (ha : a ≤ Config.heldCount) : b ≤ Config.heldCount :=
    h.elim (fun e => e ▸ ha) fun e => e ▸ bump_le a
  refine .of_eq hi hr fun ⟨c, d, e1, e2, e3, e4⟩ => ?_
  exact ⟨hb c, hl ▸ d, held h1 e1, held h2 e2, held h3 e3, held h4 e4⟩

theorem linkKept_crcError (k : Link) : LinkKept hand rep k k.crcError :=
  .line rfl rfl rfl id (.inr rfl) (.inl rfl) (.inl rfl) (.inl rfl)

theorem linkKept_character (b : Byte) (stop : Bool) (gap : Nat) (k : Link) :
    LinkKept hand rep k (k.character b stop gap) := by
  have moved (x : Receiver) (c : List (List Byte)) : LinkKept hand rep k { k with receiver := x, complete := c } :=
    .line rfl rfl rfl id (.inl rfl) (.inl rfl) (.inl rfl) (.inl rfl)
  simp only [Link.character, Link.append]
  repeat' split
  · exact moved _ _
  · exact .refl k
  · exact .refl k
  · exact linkKept_crcError k
  · exact moved _ _
  · exact moved _ _
  · exact linkKept_crcError k
  · exact linkKept_crcError k
  · exact .refl k

theorem linkKept_broken (k : Link) : LinkKept hand rep k k.broken :=
  .line rfl rfl rfl (fun _ => Nat.zero_le _) (.inl rfl) (.inl rfl) (.inl rfl) (.inr rfl)

theorem linksKept_takeFrame (l : LinkId) (f : InFrame) (s : State) : LinksKept hand rep s (takeFrame l f s) := by
  have lease : LinksKept hand rep s (refreshLease l f.session s) := .of_only (by simp [linklessParts])
  refine lease.trans ?_
  simp only [takeFrame]
  split
  · unfold offerRequest
    split
    · next h => exact .withLink (.line rfl rfl rfl (fun _ => by simpa using h) (.inl rfl) (.inl rfl) (.inl rfl) (.inl rfl))
    · refine .trans (.withLink ?_) (linksKept_placeOrDiscard _ _ _)
      exact .line rfl rfl rfl id (.inl rfl) (.inl rfl) (.inr rfl) (.inl rfl)
  · exact .of_only (by simp [linklessParts])
  · exact linksKept_placeOrDiscard _ _ _

theorem linksKept_receiveFrame (l : LinkId) (b : List Byte) (s : State) :
    LinksKept hand rep s (receiveFrame l b s) := by
  have arrive : LinksKept hand rep s (arriveFrame l b s) :=
    .ite (fun _ => linksKept_takeFrame l _ s) fun _ => .withLink (linkKept_crcError _)
  simp only [receiveFrame]
  repeat' split
  · refine .trans (.withLink ?_) (linksKept_takeFrame _ _ _)
    exact .of_eq rfl rfl id
  · exact .refl s
  · exact arrive
  · exact .refl s
  · exact .refl s

theorem linksKept_sendNext (l : LinkId) (s : State) : LinksKept hand rep s (sendNext l s) :=
  (LinksKept.withLink (l := l) (j := { s.link l with transmission := none }) (.of_eq rfl rfl id)).trans
    ((linksKept_startSending l _).trans (linksKept_moveHeldReply l _))

theorem linksKept_withdrawFrames (n : SessionIx) (g : ReportFrame → Bool) (s : State) :
    LinksKept hand rep s (withdrawFrames n g s) := by
  unfold withdrawFrames
  split
  · exact .refl s
  · refine .withLink ⟨fun _ => .inl rfl, fun _ => List.filter_sublist, id⟩

theorem linksKept_handFrame (hn : ¬ rep) (n : SessionIx) (o : Outstanding) (s : State) :
    LinksKept hand rep s (handFrame n o s) := by
  simp only [handFrame]
  split
  · exact .refl s
  · split
    · exact .refl s
    · refine .trans (.withLink ?_) (linksKept_startSending _ _)
      exact ⟨fun _ => .inl rfl, fun e => absurd e hn, id⟩

theorem linksKept_settleLists (hn : ¬ rep) (n : SessionIx) (s : State) : LinksKept hand rep s (settleLists n s) := by
  have promoted (r : Report) (rest : List Report) (u : State) : LinksKept hand rep u (promote n r rest u) :=
    (LinksKept.of_only (by simp [linklessParts])).trans (linksKept_handFrame hn n _ _)
  have overrun (u : State) : LinksKept hand rep u (makeOverrun n u) := .of_only (by simp [linklessParts, makeOverrun])
  have loop (fuel : Nat) : ∀ u, LinksKept hand rep u (settleLoop fuel n u) := by
    induction fuel with
    | zero => exact fun u => .refl u
    | succ f ih =>
      intro u
      simp only [settleLoop]
      repeat' split
      · exact (promoted _ _ u).trans (ih _)
      · exact (overrun u).trans (ih _)
      · exact .refl u
      · exact (overrun u).trans (ih _)
      · exact .refl u
  exact loop 10 s

theorem linksKept_takeReport (hn : ¬ rep) (n : SessionIx) (r : Report) (s : State) :
    LinksKept hand rep s (takeReport n r s) := by
  simp only [takeReport]
  repeat' split
  · exact .refl s
  · exact (LinksKept.of_only (by simp [linklessParts])).trans (linksKept_settleLists hn n _)
  · exact .of_only (by simp [linklessParts])

theorem linksKept_takeHandover (hn : ¬ rep) (x : Option (SessionIx × Nat)) (r : Report) (s : State) :
    LinksKept hand rep s (takeHandover x r s) := by
  have routed (u : State) (n : SessionIx) : LinksKept hand rep u (routeTo r u n) := by
    unfold routeTo
    repeat' split
    · exact linksKept_takeReport hn n r u
    · exact .refl u
    · exact .refl u
  have routedAll (ns : List SessionIx) : ∀ u, LinksKept hand rep u (ns.foldl (routeTo r) u) := by
    induction ns with
    | nil => exact fun u => .refl u
    | cons n ns ih => exact fun u => (routed u n).trans (ih _)
  simp only [takeHandover]
  repeat' split
  · exact routedAll _ s
  · exact linksKept_takeReport hn _ r s
  · exact .refl s
  · exact .refl s

theorem linksKept_takeAck (hn : ¬ rep) (n : SessionIx) (q : Nat) (s : State) : LinksKept hand rep s (takeAck n q s) := by
  simp only [takeAck]
  split
  · exact .refl s
  · exact ((LinksKept.of_only (by simp [linklessParts])).trans (linksKept_withdrawFrames n _ _)).trans
      (linksKept_settleLists hn n _)

theorem linksKept_onNotice {lane : Lane} {f : Notice → State → Option State}
    (hf : ∀ n u v, f n u = some v → LinksKept hand rep u v) : LinksKept hand rep s (onNotice lane f s) := by
  obtain h | ⟨n, u, -, hu, h⟩ := onNotice_cases lane f s
  · rw [h]; exact .refl s
  · rw [h]
    exact (LinksKept.of_only (by simp [linklessParts])).trans (hf n _ u hu)

end

/-! ### Every command -/

/-- The command starts the part anew. -/
def startsAnew (i : Instr) : Prop :=
  match i with
  | .resetPerformed _ | .powerOnReset _ | .lineReset _ | .heldReset _ => True
  | _ => False

/-- The command hands report frames to a Link Port (R176, R178). -/
def handsFrames (i : Instr) : Prop :=
  match i with
  | .reportHandover _ | .retryExpiry _ _ | .ack _ => True
  | _ => False

/-- What the steps of R169 make of a state. -/
inductive Brought (s : State) : State → Prop
  /-- no request is taken through the steps -/
  | same : Brought s s
  /-- a request command takes its request through the steps (assumption 8) -/
  | request (h : Header) (r : Request) : Brought s (bringIn h r s)
  /-- DISPATCH takes the oldest frame -/
  | oldest (l : LinkId) : Brought s (dispatchOldest l s)

/-- The steps of R169 change the Link Ports and leases alone. -/
theorem Brought.only {s u : State} (hb : Brought s u) : OnlyChanges [.linkA, .linkB, .sessions] s u := by
  have hl (l : LinkId) : linkPart l ∈ [Part.linkA, .linkB, .sessions] := linkPart_mem (by simp) (by simp) l
  cases hb with
  | same => exact .refl _ s
  | request h r => exact (only_bringIn h (hl _) r fun _ => by simp).2 (.refl _ s)
  | oldest l => simp [hl]

theorem Brought.sessionsKept {use : Prop} {s u : State} (hb : Brought s u) : SessionsKept use s u := by
  cases hb with
  | same => exact .refl s
  | request h r => exact sessionsKept_bringIn h r s
  | oldest l =>
    exact .of_only (ps := [.linkA, .linkB]) (by simp) ((only_dispatchOldest l (linkPart_mem (by simp) (by simp) l)).2 (.refl _ s))

theorem Brought.linksKept {rep : Prop} {s u : State} (hb : Brought s u) : LinksKept False rep s u := by
  cases hb with
  | same => exact .refl s
  | request h r => exact linksKept_bringIn id h r s
  | oldest l => exact linksKept_dispatchOldest id l s

/-- The command leaves the Link Ports as the steps of R169 leave them, but for requests answered and frames that leave. -/
def BroughtAndKept (rep : Prop) (s t : State) : Prop := ∃ u, Brought s u ∧ LinksKept True rep u t

theorem broughtAndKept_runRequest {rep : Prop} {s : State} {h : Header} {r : Request} {body : State → State}
    (hb : ∀ u, LinksKept True rep u (body u)) : BroughtAndKept rep s (runRequest h r body s) :=
  ⟨_, .request h r, .ite (fun _ => hb _) fun _ => .refl _⟩

theorem broughtAndKept_serve {rep : Prop} {s t : State} {v : Server} {h : Header} {r : Request}
    {body : SessionIx → State → State} (hb : ∀ n u, LinksKept True rep u (body n u))
    (hu : serve v h r body s = .next t) : BroughtAndKept rep s t := by
  cases hu
  refine broughtAndKept_runRequest fun u => ?_
  unfold takeRequest
  repeat' split
  · exact linksKept_refuse h r _ u
  · exact linksKept_refuse h r _ u
  · exact hb _ u
  · exact linksKept_refuse h r _ u

end Sys2Proof.Machine
end


section
/-! PROOFS. What the requests and the events leave of the Link Ports. -/

namespace Sys2Proof.Machine

/-! ### Requests -/

section
variable {hand rep : Prop} {s : State} {h : Header}

theorem linksKept_sessionCloseBody (n : SessionIx) : LinksKept hand rep s (sessionCloseBody h n s) := by
  simp only [sessionCloseBody]
  repeat' split
  all_goals exact linksKept_answered (by simp [linklessParts])

theorem linksKept_channelReadBody (a b : Byte) : LinksKept hand rep s (channelReadBody h a b s) := by
  simp only [channelReadBody]
  repeat' split
  all_goals exact linksKept_answered (by simp [linklessParts])

theorem linksKept_readbackBody (a b : Byte) (n : SessionIx) : LinksKept hand rep s (readbackBody h a b n s) := by
  simp only [readbackBody]
  repeat' split
  all_goals exact linksKept_answered (by simp [linklessParts])

theorem linksKept_channelConfigBody (c : Byte) (lo up safe : Half) (n : SessionIx) : LinksKept hand rep s (channelConfigBody h c lo up safe n s) := by
  simp only [channelConfigBody]
  repeat' split
  all_goals exact linksKept_answered (by simp [linklessParts])

theorem linksKept_setOpenBody (k l c y : Byte) (x : Time) (p : Half) (d o : Long) (n : SessionIx) : LinksKept hand rep s (setOpenBody h k l c y x p d o n s) := by
  simp only [setOpenBody]
  repeat' split
  all_goals exact linksKept_answered (by simp [linklessParts])

theorem linksKept_setDiscardBody (n : SessionIx) : LinksKept hand rep s (setDiscardBody h n s) := by
  simp only [setDiscardBody]
  repeat' split
  all_goals exact linksKept_answered (by simp [linklessParts])

theorem linksKept_setCancelBody (id : Half) (n : SessionIx) : LinksKept hand rep s (setCancelBody h id n s) := by
  simp only [setCancelBody]
  repeat' split
  all_goals exact linksKept_answered (by simp [linklessParts])

theorem linksKept_setListBody (m x : Byte) (g : Long) (id : Half) : LinksKept hand rep s (setListBody h m x g id s) := by
  simp only [setListBody]
  repeat' split
  all_goals exact linksKept_answered (by simp [linklessParts])

theorem linksKept_cycleBeginBody (x : Time) (p k : Long) (n : SessionIx) : LinksKept hand rep s (cycleBeginBody h x p k n s) := by
  simp only [cycleBeginBody]
  repeat' split
  all_goals exact linksKept_answered (by simp [linklessParts])

theorem linksKept_cycleEndBody (n : SessionIx) : LinksKept hand rep s (cycleEndBody h n s) := by
  simp only [cycleEndBody]
  repeat' split
  all_goals exact linksKept_answered (by simp [linklessParts])

theorem linksKept_cycleStatusBody (x p : Byte) : LinksKept hand rep s (cycleStatusBody h x p s) := by
  simp only [cycleStatusBody]
  repeat' split
  all_goals exact linksKept_answered (by simp [linklessParts])

theorem linksKept_triggerConfigBody (l e g d c : Byte) (n : SessionIx) : LinksKept hand rep s (triggerConfigBody h l e g d c n s) := by
  simp only [triggerConfigBody]
  repeat' split
  all_goals exact linksKept_answered (by simp [linklessParts])

theorem linksKept_syncConfigBody (p : Byte) (w : Half) : LinksKept hand rep s (syncConfigBody h p w s) := by
  simp only [syncConfigBody]
  repeat' split
  all_goals exact linksKept_answered (by simp [linklessParts])

theorem linksKept_haltNowBody (n : SessionIx) : LinksKept hand rep s (haltNowBody h n s) := by
  simp only [haltNowBody]
  repeat' split
  all_goals exact linksKept_answered (by simp [linklessParts])

theorem linksKept_resumeBody (n : SessionIx) : LinksKept hand rep s (resumeBody h n s) := by
  simp only [resumeBody]
  repeat' split
  all_goals exact linksKept_answered (by simp [linklessParts])

theorem linksKept_slotStatusBody (k : Byte) : LinksKept hand rep s (slotStatusBody h k s) := by
  simp only [slotStatusBody]
  repeat' split
  all_goals exact linksKept_answered (by simp [linklessParts])

theorem linksKept_slotDisableBody (k : Byte) (n : SessionIx) : LinksKept hand rep s (slotDisableBody h k n s) := by
  simp only [slotDisableBody]
  repeat' split
  all_goals exact linksKept_answered (by simp [linklessParts])

theorem linksKept_slotEnableBody (k : Byte) : LinksKept hand rep s (slotEnableBody h k s) := by
  simp only [slotEnableBody]
  repeat' split
  all_goals exact linksKept_answered (by simp [linklessParts])

theorem linksKept_slotResetBody (k : Byte) : LinksKept hand rep s (slotResetBody h k s) := by
  simp only [slotResetBody]
  repeat' split
  all_goals exact linksKept_answered (by simp [linklessParts])

theorem linksKept_deviceConfigBody (x : Half) : LinksKept hand rep s (deviceConfigBody h x s) := by
  simp only [deviceConfigBody]
  repeat' split
  all_goals exact linksKept_answered (by simp [linklessParts])

theorem linksKept_timeSetBody (x : Time) : LinksKept hand rep s (timeSetBody h x s) := by
  simp only [timeSetBody]
  repeat' split
  all_goals exact linksKept_answered (by simp [linklessParts])

theorem linksKept_sessionOpenBody (role : Byte) (x : RawSettings) :
    LinksKept hand rep s (sessionOpenBody h role x s) := by
  have opened (l : LinkId) (n : SessionIx) (k : Role) (x : Settings) : LinksKept hand rep s (openSession l n k x s) :=
    (LinksKept.of_only (by simp [linklessParts])).andLink (.of_eq rfl rfl id)
  simp only [sessionOpenBody]
  split
  · exact linksKept_refuse _ _ _ s
  · repeat' split
    · exact linksKept_refuse _ _ _ s
    · exact linksKept_refuse _ _ _ s
    · exact linksKept_refuse _ _ _ s
    · exact linksKept_refuse _ _ _ s
    · exact (opened _ _ _ _).trans (linksKept_answerOpened _ _ _ _ _)

theorem linksKept_sessionConfigBody (x : RawSettings) (n : SessionIx) :
    LinksKept hand rep s (sessionConfigBody h x n s) := by
  simp only [sessionConfigBody]
  repeat' split
  · exact .refl s
  · exact linksKept_refuse _ _ _ s
  · exact linksKept_refuse _ _ _ s
  · exact linksKept_answered (by simp [linklessParts])

theorem linksKept_deviceResetBody (x : Byte) : LinksKept hand rep s (deviceResetBody h x s) := by
  have stopped (u : State) : LinksKept hand rep u (stopLinks u) := by
    intro l
    cases l <;> exact .of_eq rfl rfl id
  simp only [deviceResetBody]
  repeat' split
  · exact linksKept_refuse _ _ _ s
  · exact linksKept_answer _ _ _ s
  · exact ((LinksKept.of_only (by simp [linklessParts])).trans (stopped _)).trans (linksKept_answer _ _ _ _)

theorem linksKept_linkStatusBody (link clear : Byte) : LinksKept hand rep s (linkStatusBody h link clear s) := by
  simp only [linkStatusBody]
  repeat' split
  · exact linksKept_refuse _ _ _ s
  · refine (linksKept_answer _ _ _ s).andLink (.of_eq rfl rfl fun hb => ?_)
    obtain ⟨hi, hr, -⟩ := hb
    exact ⟨hi, hr, Nat.zero_le _, Nat.zero_le _, Nat.zero_le _, Nat.zero_le _⟩
  · exact linksKept_answer _ _ _ s

theorem linksKept_grantPass (s : State) : LinksKept hand rep s (grantPass s) := .of_only (by simp [linklessParts])

theorem linksKept_post (n : Notice) (s : State) : LinksKept hand rep s (post n s) := .of_only (by simp [linklessParts])

theorem linksKept_claimBody (a b p : Byte) (w : Half) (n : SessionIx) : LinksKept hand rep s (claimBody h a b p w n s) := by
  simp only [claimBody]
  repeat' split
  case h_1.isFalse.isFalse.isTrue.isTrue =>
    exact (linksKept_answered (by simp [linklessParts])).trans (linksKept_grantPass _)
  all_goals exact linksKept_answered (by simp [linklessParts])

theorem linksKept_releaseBody (a b x f : Byte) (n : SessionIx) : LinksKept hand rep s (releaseBody h a b x f n s) := by
  simp only [releaseBody]
  repeat' split
  case h_2.isFalse.isFalse =>
    refine .trans ?_ (linksKept_grantPass _)
    exact (linksKept_answered (by simp [linklessParts])).trans (linksKept_post _ _)
  all_goals exact linksKept_answered (by simp [linklessParts])

theorem linksKept_setAddBody (f : Byte) (is : List RawItem) (n : SessionIx) :
    LinksKept hand rep s (setAddBody h f is n s) := by
  obtain ⟨a, e⟩ | ⟨o, -, -, -, -, e | ⟨a, e⟩⟩ := setAddBody_cases h f is n s
  · exact e ▸ linksKept_answer _ _ _ s
  · rw [e]
    unfold askSeal
    repeat' split
    · exact linksKept_answered (by simp [linklessParts])
    · exact .of_only (by simp [linklessParts])
    · exact .of_only (by simp [linklessParts])
  · exact e ▸ linksKept_answered (by simp [linklessParts])

theorem linksKept_cycleStopBody (x : Byte) (n : SessionIx) : LinksKept hand rep s (cycleStopBody h x n s) := by
  have stopped (r : Request) (c : Cycle) : LinksKept hand rep s (stopNow h r n c s) := by
    simp only [stopNow]
    repeat' split
    · exact linksKept_answered (by simp [linklessParts])
    · exact .of_only (by simp [linklessParts])
    · exact linksKept_answered (by simp [linklessParts])
  simp only [cycleStopBody]
  repeat' split
  all_goals first | exact stopped _ _ | exact linksKept_answered (by simp [linklessParts])

end

/-! ### Every command -/

/-- R166 to R173: what every command makes of the Link Ports. -/
theorem exec_linksKept {rep : Prop} {i : Instr} {s t : State} (hi : ¬ startsAnew i) (hr : rep → ¬ handsFrames i)
    (hu : exec i s = .next t) : BroughtAndKept rep s t := by
  have served {v : Server} {h : Header} {r : Request} {body : SessionIx → State → State}
      (hb : ∀ n u, LinksKept True rep u (body n u)) (hu : serve v h r body s = .next t) : BroughtAndKept rep s t :=
    broughtAndKept_serve hb hu
  have alone (hk : LinksKept True rep s t) : BroughtAndKept rep s t := ⟨s, .same, hk⟩
  have noticed {lane : Lane} {f : Notice → State → Option State} (hf : ∀ n u v, f n u = some v → LinksKept True rep u v)
      (hu : (Host.Outcome.next (onNotice lane f s) : Host.Outcome State Fault Refusal) = .next t) :
      BroughtAndKept rep s t := by
    cases hu
    exact alone (linksKept_onNotice hf)
  cases i
  case resetPerformed | powerOnReset | lineReset | heldReset => exact absurd trivial hi
  case sessionOpen h role x =>
    cases hu
    exact broughtAndKept_runRequest fun u => linksKept_sessionOpenBody role x
  case sessionClose => exact served (fun n u => linksKept_sessionCloseBody n) hu
  case sessionConfig => exact served (fun n u => linksKept_sessionConfigBody _ n) hu
  case deviceStatus => exact served (fun n u => linksKept_answer _ _ _ u) hu
  case timeGet => exact served (fun n u => linksKept_answer _ _ _ u) hu
  case triggerStatus => exact served (fun n u => linksKept_answer _ _ _ u) hu
  case deviceConfig => exact served (fun n u => linksKept_deviceConfigBody _) hu
  case deviceReset => exact served (fun n u => linksKept_deviceResetBody _) hu
  case linkStatus => exact served (fun n u => linksKept_linkStatusBody _ _) hu
  case timeSet => exact served (fun n u => linksKept_timeSetBody _) hu
  case claim => exact served (fun n u => linksKept_claimBody _ _ _ _ n) hu
  case release => exact served (fun n u => linksKept_releaseBody _ _ _ _ n) hu
  case channelRead => exact served (fun n u => linksKept_channelReadBody _ _) hu
  case channelConfig => exact served (fun n u => linksKept_channelConfigBody _ _ _ _ n) hu
  case readback => exact served (fun n u => linksKept_readbackBody _ _ n) hu
  case setOpen => exact served (fun n u => linksKept_setOpenBody _ _ _ _ _ _ _ _ n) hu
  case setAdd h f is =>
    simp only [exec, execSetAdd] at hu
    split at hu
    · cases hu
    · split at hu
      · cases hu; exact alone (.refl s)
      · exact served (fun n u => linksKept_setAddBody f is n) hu
  case setDiscard => exact served (fun n u => linksKept_setDiscardBody n) hu
  case setCancel => exact served (fun n u => linksKept_setCancelBody _ n) hu
  case setList => exact served (fun n u => linksKept_setListBody _ _ _ _) hu
  case cycleBegin => exact served (fun n u => linksKept_cycleBeginBody _ _ _ n) hu
  case cycleEnd => exact served (fun n u => linksKept_cycleEndBody n) hu
  case cycleStop => exact served (fun n u => linksKept_cycleStopBody _ n) hu
  case cycleStatus => exact served (fun n u => linksKept_cycleStatusBody _ _) hu
  case triggerConfig => exact served (fun n u => linksKept_triggerConfigBody _ _ _ _ _ n) hu
  case syncConfig => exact served (fun n u => linksKept_syncConfigBody _ _) hu
  case haltNow => exact served (fun n u => linksKept_haltNowBody n) hu
  case resume => exact served (fun n u => linksKept_resumeBody n) hu
  case slotStatus => exact served (fun n u => linksKept_slotStatusBody _) hu
  case slotDisable => exact served (fun n u => linksKept_slotDisableBody _ n) hu
  case slotEnable => exact served (fun n u => linksKept_slotEnableBody _) hu
  case slotReset => exact served (fun n u => linksKept_slotResetBody _) hu
  case frameReceived =>
    simp only [exec, execFrameReceived] at hu
    split at hu <;> cases hu
    exact alone (linksKept_receiveFrame _ _ s)
  case gapDeadlineExpiry =>
    cases hu
    refine alone ?_
    repeat' split
    · exact (.withLink (.line rfl rfl rfl id (.inl rfl) (.inr rfl) (.inl rfl) (.inl rfl)))
    all_goals exact .refl s
  case linkBreak =>
    cases hu
    refine alone ?_
    repeat' split
    · refine .trans ?_ (linksKept_post _ _)
      exact .withLink (linkKept_broken _)
    all_goals exact .refl s
  case lineReturnsToMarking =>
    cases hu
    exact alone (.withLink (.of_eq rfl rfl id))
  case dispatch l =>
    cases hu
    exact ⟨_, .oldest l, .refl _⟩
  case frameSent =>
    cases hu
    refine alone ?_
    split
    · exact ((LinksKept.of_only (by simp [linklessParts])).trans (linksKept_sendNext _ _))
    · exact .refl s
  case sessionEndLinkPort =>
    refine noticed (fun n u v hv => ?_) hu
    split at hv <;> cases hv
    · exact .withLink (.of_eq rfl rfl id)
    · exact .refl u
  case teardownNotice =>
    refine noticed (fun n u v hv => ?_) hu
    cases hv
    exact (LinksKept.of_only (by simp [linklessParts])).trans (linksKept_withdrawFrames _ _ _)
  case reportHandover =>
    refine noticed (fun n u v hv => ?_) hu
    split at hv <;> cases hv
    exact linksKept_takeHandover (fun e => hr e trivial) _ _ u
  case retryExpiry =>
    cases hu
    have hn : ¬ rep := fun e => hr e trivial
    have expired (n : SessionIx) (r : Session) (o : Outstanding) : LinksKept True rep s (retryExpired n r o s) :=
      .ite (fun _ => (LinksKept.of_only (by simp [linklessParts])).trans (linksKept_handFrame hn _ _ _))
        fun _ => .of_only (by simp [linklessParts])
    refine alone ?_
    repeat' split
    · exact (expired _ _ _)
    all_goals exact .refl s
  case ack =>
    refine noticed (fun n u v hv => ?_) hu
    repeat' split at hv
    all_goals cases hv
    · exact linksKept_takeAck (fun e => hr e trivial) _ _ u
    · exact .refl u
    · exact .refl u
  case sealTaken =>
    refine noticed (fun n u v hv => ?_) hu
    repeat' split at hv
    all_goals cases hv
    · unfold takeSeal
      repeat' split
      all_goals exact linksKept_answered (by simp [linklessParts])
    · exact .refl u
    · exact .refl u
  case characterReceived =>
    cases hu
    exact alone (.withLink (linkKept_character _ _ _ _))
  case lineGoesToSpacing =>
    cases hu
    refine alone ?_
    split
    · exact (.withLink (.of_eq rfl rfl id))
    · exact .refl s
  all_goals
    refine alone (.of_only (exec_changes (fun p hp => ?_) (fun _ => by simp [linklessParts]) hu))
    simp only [touches, List.mem_cons, List.not_mem_nil, or_false] at hp
    rcases hp with rfl | rfl | rfl | rfl | rfl <;> simp [linklessParts]

end Sys2Proof.Machine
end


section
/-! PROOFS. What the commands do to the Channel Table and the Claim Wait List (R1 to R20, R76, R82): a property of every
channel record and one of every wait entry that each operation keeps is kept by every command. -/

namespace Sys2Proof.Machine

/-! ### Rules for channel records and wait entries -/

/-- Every present channel has the property `Q`, and every wait entry has `W`. -/
def ClaimsHold (Q : ChanIx → Channel → Prop) (W : WaitEntry → Prop) (s : State) : Prop :=
  (∀ c x, s.channel c = some x → Q c x) ∧ ∀ e ∈ s.claims.waits, W e

/-- Every entry of a descriptor on its way to the Claim Unit has the property `F`. -/
def ReadyHold (F : DescEntry → Prop) (s : State) : Prop :=
  ∀ k d held, Notice.slotReady k d held ∈ s.notices → ∀ e ∈ d.entries, F e

/-- The operations on a channel record keep `Q`, and those on wait entries `W`; entries of descriptors have `F`. -/
structure ClaimRule (Q : ChanIx → Channel → Prop) (W : WaitEntry → Prop) (F : DescEntry → Prop) : Prop where
  safe : ∀ {c x}, Q c x → Q c x.drivenSafe
  freed : ∀ {c x}, Q c x → Q c x.freed
  ramped : ∀ {c x} r, Q c x → Q c { x with ramp := r }
  readBack : ∀ {c x} v, Q c x → Q c { x with lastReadback := v }
  deviating : ∀ {c x} b, Q c x → Q c { x with deviation := b }
  configured : ∀ {c x} lo up safe, x.descLower ≤ lo → lo ≤ safe → safe ≤ up → up ≤ x.descUpper → lo ≤ x.commanded →
    x.commanded ≤ up → Q c x → Q c { x with lower := lo, upper := up, safe := safe }
  granted : ∀ {e c x}, W e → Q c x → Q c (x.grantedTo e.session e.policy)
  shifted : ∀ {e} v, W e → W { e with deadline := v }
  fresh : ∀ {e} c kind v, F e → Q c (freshChannel kind e v)

/-! ### The Channel Table -/

section
variable {s t : State} {Q : ChanIx → Channel → Prop} {W : WaitEntry → Prop} {F : DescEntry → Prop}

theorem ClaimsHold.of_eq (h : ClaimsHold Q W s) (e : t.claims = s.claims) : ClaimsHold Q W t := by
  unfold ClaimsHold State.channel at *
  rwa [e]

/-- What leaves the Claim Unit alone. -/
theorem ClaimsHold.of_only (h : ClaimsHold Q W s) (e : OnlyChanges (everyPartBut .claims) s t) : ClaimsHold Q W t :=
  h.of_eq (e .claims (by simp))

theorem ReadyHold.of_notices (h : ReadyHold F s) (e : ∀ n ∈ t.noticesOf .slotReady, n ∈ s.noticesOf .slotReady) :
    ReadyHold F t := by
  intro k d held hn
  refine h k d held (List.mem_filter.1 (e _ (List.mem_filter.2 ⟨hn, ?_⟩))).1
  simp [Notice.class]

theorem channel_changeChannels (f : ChanIx → Channel → Option Channel) (s : State) (c : ChanIx) :
    (changeChannels f s).channel c = (s.channel c).bind (f c) := by
  simp [changeChannels, State.channel, State.withChannels]

theorem channel_changeChannel (d : ChanIx) (f : Channel → Channel) (s : State) (c : ChanIx) :
    (changeChannel d f s).channel c = if d = c then (s.channel c).map f else s.channel c := by
  unfold changeChannel
  split
  · next x hx =>
    have put : (s.withChannels (s.claims.channels.put d (some (f x)))).channel c =
        if d = c then some (f x) else s.channel c := by simp [State.channel, State.withChannels]
    rw [put]
    split
    · next e => subst e; rw [hx]; rfl
    · rfl
  · next hx =>
    split
    · next e => subst e; rw [hx]; rfl
    · rfl

@[simp] theorem waits_changeChannels (f : ChanIx → Channel → Option Channel) (s : State) :
    (changeChannels f s).claims.waits = s.claims.waits := rfl

@[simp] theorem waits_changeChannel (d : ChanIx) (f : Channel → Channel) (s : State) :
    (changeChannel d f s).claims.waits = s.claims.waits := by
  unfold changeChannel
  split <;> rfl

theorem ClaimsHold.changeChannels (h : ClaimsHold Q W s) {f : ChanIx → Channel → Option Channel}
    (hf : ∀ c x y, Q c x → f c x = some y → Q c y) : ClaimsHold Q W (changeChannels f s) := by
  obtain ⟨hc, hw⟩ := h
  refine ⟨fun c y hy => ?_, hw⟩
  rw [channel_changeChannels] at hy
  obtain ⟨x, hx, hfx⟩ := Option.bind_eq_some_iff.1 hy
  exact hf c x y (hc c x hx) hfx

theorem ClaimsHold.changeChannel (h : ClaimsHold Q W s) {d : ChanIx} {f : Channel → Channel}
    (hf : ∀ x, s.channel d = some x → Q d x → Q d (f x)) : ClaimsHold Q W (changeChannel d f s) := by
  obtain ⟨hc, hw⟩ := h
  refine ⟨fun c y hy => ?_, by rwa [waits_changeChannel]⟩
  rw [channel_changeChannel] at hy
  split at hy
  · next e =>
    subst e
    obtain ⟨x, hx, rfl⟩ := Option.map_eq_some_iff.1 hy
    exact hf x hx (hc d x hx)
  · exact hc c y hy

theorem ClaimsHold.answered (h : ClaimsHold Q W s) (g : Header) (r : Request) (a : Answer) :
    ClaimsHold Q W (answer g r a s) := h.of_only (by simp)

theorem ClaimsHold.posted (h : ClaimsHold Q W s) (n : Notice) : ClaimsHold Q W (post n s) := h.of_eq rfl

theorem ClaimsHold.reported (h : ClaimsHold Q W s) (l : ReportLine) (r : Report) : ClaimsHold Q W (systemReport l r s) :=
  h.of_eq rfl

theorem ClaimsHold.claimResult (h : ClaimsHold Q W s) (e : WaitEntry) (o : ClaimOutcome) (l : Option ChanIx) :
    ClaimsHold Q W (claimResult e o l s) := h.of_only (by simp)

theorem ClaimsHold.spoiled (h : ClaimsHold Q W s) (n : SessionIx) (cs : List ChanIx) : ClaimsHold Q W (spoil n cs s) :=
  h.of_only (by simp)

/-- The wait entries are some of those before. -/
theorem ClaimsHold.withWaits (h : ClaimsHold Q W s) {w : List WaitEntry} (hw : ∀ e ∈ w, W e) :
    ClaimsHold Q W (s.withWaits w) := ⟨h.1, hw⟩

end

/-! ### Operations of the Claim Unit -/

namespace ClaimRule

variable {s t : State} {Q : ChanIx → Channel → Prop} {W : WaitEntry → Prop} {F : DescEntry → Prop} (K : ClaimRule Q W F)
include K

theorem grantRange {n : SessionIx} {p : LossPolicy} (a b : ChanIx) (hq : ∀ c x, Q c x → Q c (x.grantedTo n p))
    (h : ClaimsHold Q W s) : ClaimsHold Q W (grantRange n a b p s) := by
  refine h.changeChannels fun c x y hx hy => ?_
  cases hy
  split
  · exact hq c x hx
  · exact hx

theorem grantEntry {e : WaitEntry} (he : W e) (h : ClaimsHold Q W s) : ClaimsHold Q W (grantEntry s e) := by
  unfold Machine.grantEntry
  split
  · refine ClaimsHold.claimResult (K.grantRange _ _ (fun c x => K.granted he) ?_) _ _ _
    exact h.withWaits fun e' he' => h.2 e' (List.mem_of_mem_erase he')
  · exact h

theorem grantPass (h : ClaimsHold Q W s) : ClaimsHold Q W (grantPass s) := by
  have pass (es : List WaitEntry) : (∀ e ∈ es, W e) → ∀ u, ClaimsHold Q W u →
      ClaimsHold Q W (es.foldl Machine.grantEntry u) := by
    induction es with
    | nil => exact fun _ _ hu => hu
    | cons e es ih =>
      intro he u hu
      obtain ⟨h1, h2⟩ := List.forall_mem_cons.1 he
      exact ih h2 _ (K.grantEntry h1 hu)
  exact pass _ h.2 s h

theorem freeChannels (f d : ChanIx → Bool) (h : ClaimsHold Q W s) : ClaimsHold Q W (freeChannels f d s) := by
  refine ClaimsHold.changeChannels (h.of_only (by simp)) fun c x y hx hy => ?_
  repeat' split at hy
  all_goals cases hy
  · exact K.freed (K.safe hx)
  · exact K.freed hx
  · exact hx

theorem driveRecordsSafe (h : ClaimsHold Q W s) : ClaimsHold Q W (driveRecordsSafe s) := by
  refine h.changeChannels fun c x y hx hy => ?_
  cases hy
  exact K.safe hx

theorem makePresent {d : Descriptor} (k : SlotIx) (held : Option HeldValues) (hd : ∀ e ∈ d.entries, F e)
    (h : ClaimsHold Q W s) : ClaimsHold Q W (makePresent k d held s) := by
  refine ⟨fun c x hx => ?_, h.2⟩
  simp only [Machine.makePresent, State.channel, State.withChannels, State.withClaims_claims, Table.get_tab] at hx
  repeat' split at hx
  · cases hx
    exact K.fresh c _ _ (hd _ (List.mem_of_getElem? ‹_›))
  · cases hx
  · cases hx
  · exact h.1 c x hx

theorem dropAbsentWaits (lost : List ChanIx) (h : ClaimsHold Q W s) : ClaimsHold Q W (dropAbsentWaits lost s) := by
  have drop (es : List WaitEntry) : ∀ u, ClaimsHold Q W u → ClaimsHold Q W (es.foldl (fun t e =>
      match allChannels.find? fun c => lost.contains c && inRange e.first e.last c with
      | some c => claimResult e .absent (some c) (t.withWaits (t.claims.waits.erase e))
      | none => t) u) := by
    induction es with
    | nil => exact fun _ hu => hu
    | cons e es ih =>
      intro u hu
      refine ih _ ?_
      dsimp only
      split
      · exact ClaimsHold.of_only (s := u.withWaits (u.claims.waits.erase e))
          (hu.withWaits fun e' he' => hu.2 e' (List.mem_of_mem_erase he')) (by simp)
      · exact hu
  exact drop _ s h

theorem makeAbsent (k : SlotIx) (h : ClaimsHold Q W s) : ClaimsHold Q W (makeAbsent k s) := by
  have hw := K.dropAbsentWaits ((slotChannels k).filter fun c => (s.channel c).isSome)
    (h.changeChannels (f := fun c x => if slotOfChan c = k then none else some x) fun c x y hx hy => by
      split at hy <;> cases hy
      exact hx)
  simp only [Machine.makeAbsent]
  split
  · exact hw
  · exact hw.of_only (by simp)

theorem drainClaims (fuel : Nat) (k : SlotIx) (h : ClaimsHold Q W s) (hr : ReadyHold F s) :
    ClaimsHold Q W (drainClaims fuel k s) ∧ ReadyHold F (Machine.drainClaims fuel k s) := by
  have dropped (u : State) : ∀ n ∈ (dropNotice (.slotToClaim k) u).noticesOf .slotReady, n ∈ u.noticesOf .slotReady :=
    fun n hn => by
      obtain ⟨hm, hc⟩ := List.mem_filter.1 hn
      exact List.mem_filter.2 ⟨List.mem_of_mem_eraseP hm, hc⟩
  induction fuel generalizing s with
  | zero => exact ⟨h, hr⟩
  | succ f ih =>
    have hd : ClaimsHold Q W (dropNotice (.slotToClaim k) s) := h
    simp only [Machine.drainClaims]
    split
    · next j d held hn =>
      refine ih (K.grantPass (K.makePresent j held (hr j d held (List.mem_of_find?_eq_some hn)) hd)) (hr.of_notices ?_)
      simpa using dropped s
    · next j hn =>
      refine ih (K.makeAbsent j hd) (hr.of_notices ?_)
      simpa using dropped s
    · exact ⟨h, hr⟩

theorem disableSlot (k : SlotIx) (h : ClaimsHold Q W s) (hr : ReadyHold F s) :
    ClaimsHold Q W (disableSlot k s) ∧ ReadyHold F (Machine.disableSlot k s) := by
  have hm : ClaimsHold Q W (moveTo k (s.slot k).toDisabled s) := h.of_only (by simp)
  have hrm : ReadyHold F (moveTo k (s.slot k).toDisabled s) := hr.of_notices (by simp)
  simp only [Machine.disableSlot]
  split
  · exact K.drainClaims _ k hm hrm
  · exact ⟨hm, hrm⟩

theorem dropWaits (n : SessionIx) (h : ClaimsHold Q W s) : ClaimsHold Q W (dropWaits n s) :=
  h.withWaits fun e he => h.2 e (List.mem_filter.1 he).1

theorem endSessionClaims (n : SessionIx) (h : ClaimsHold Q W s) : ClaimsHold Q W (endSessionClaims n s) :=
  K.grantPass (K.freeChannels _ _ (K.dropWaits n h))

theorem recordReading (e : CaptureEntry) (i : CaptureItem) (v : Int) (h : ClaimsHold Q W s) :
    ClaimsHold Q W (recordReading e i v s) := by
  have hread : ClaimsHold Q W (changeChannel i.channel
      (fun y => { y with lastReadback := some (v, readTimeOf e i.channel) }) s) :=
    h.changeChannel fun x _ hx => K.readBack _ hx
  simp only [Machine.recordReading]
  repeat' split
  · exact h
  · exact (hread.changeChannel fun x _ hx => K.deviating _ hx).reported _ _
  · exact hread

theorem takeItem (e : CaptureEntry) (acc : State × List CapturedItem) (i : CaptureItem) (h : ClaimsHold Q W acc.1) :
    ClaimsHold Q W (takeItem e acc i).1 := by
  have recorded (p : Prop) [Decidable p] (v : Int) :
      ClaimsHold Q W (if p then Machine.recordReading e i v acc.1 else acc.1) := by
    split
    · exact K.recordReading e i v h
    · exact h
  exact recorded _ _

theorem takeCapture (e : CaptureEntry) (h : ClaimsHold Q W s) : ClaimsHold Q W (takeCapture e s) := by
  have items (is : List CaptureItem) : ∀ acc : State × List CapturedItem, ClaimsHold Q W acc.1 →
      ClaimsHold Q W (is.foldl (Machine.takeItem e) acc).1 := by
    induction is with
    | nil => exact fun _ ha => ha
    | cons i is ih => exact fun acc ha => ih _ (K.takeItem e acc i ha)
  simp only [Machine.takeCapture]
  exact (items e.items (s, []) h).of_only (by simp)

theorem shiftRamp {c : ChanIx} {x : Channel} (d : Int) (h : Q c x) : Q c (shiftRamp d x) := by
  unfold Machine.shiftRamp
  repeat' split
  · exact h
  · exact K.ramped _ h
  · exact K.ramped _ h
  · exact K.ramped _ h

/-- R9: a TIME_SET moves ramps and deadlines. -/
theorem setTime (x : Nat) (h : ClaimsHold Q W s) : ClaimsHold Q W (setTime x s) := by
  have claims : (Machine.setTime x s).claims = (shiftClaims (x - s.clock.rig) s).claims := by
    simp [Machine.setTime, shiftSessions, shiftTrigger, shiftEngine, shiftSets, State.withSets]
  refine ClaimsHold.of_eq (s := shiftClaims (x - s.clock.rig) s) ⟨fun c y hy => ?_, fun e he => ?_⟩ claims
  · simp only [shiftClaims, State.channel, State.withClaims_claims, Table.get_tab] at hy
    obtain ⟨z, hz, rfl⟩ := Option.map_eq_some_iff.1 hy
    exact K.shiftRamp _ (h.1 c z hz)
  · simp only [shiftClaims, State.withClaims_claims] at he
    obtain ⟨e', he', rfl⟩ := List.mem_map.1 he
    exact K.shifted _ (h.2 e' he')

/-! ### Requests -/

theorem claimBody (h : Header) (a b p : Byte) (w : Half) {n : SessionIx}
    (hq : ∀ q c x, Q c x → Q c (x.grantedTo n q)) (hw : ∀ e : WaitEntry, e.session = n → W e) (hs : ClaimsHold Q W s) :
    ClaimsHold Q W (claimBody h a b p w n s) := by
  simp only [Machine.claimBody]
  repeat' split
  case h_1.isFalse.isFalse.isTrue.isTrue =>
    exact K.grantPass ((K.grantRange _ _ (hq _) hs).answered _ _ _)
  case h_1.isFalse.isFalse.isTrue.isFalse => exact (K.grantRange _ _ (hq _) hs).answered _ _ _
  case h_1.isFalse.isFalse.isFalse.isFalse.isFalse =>
    refine (hs.withWaits fun e he => ?_).answered _ _ _
    rcases List.mem_append.1 he with he | he
    · exact hs.2 e he
    · exact hw e (by rw [List.mem_singleton.1 he])
  all_goals exact hs.of_only (by simp)

theorem releaseBody (h : Header) (a b x f : Byte) (n : SessionIx) (hs : ClaimsHold Q W s) :
    ClaimsHold Q W (releaseBody h a b x f n s) := by
  simp only [Machine.releaseBody]
  repeat' split
  case h_2.isFalse.isTrue => exact (K.freeChannels _ _ (hs.of_only (by simp))).answered _ _ _
  case h_2.isFalse.isFalse =>
    exact K.grantPass (((K.freeChannels _ _ (hs.of_only (by simp))).answered _ _ _).posted _)
  all_goals exact hs.of_only (by simp)

theorem channelConfigBody (h : Header) (c : Byte) (lo up safe : Half) (n : SessionIx) (hs : ClaimsHold Q W s) :
    ClaimsHold Q W (channelConfigBody h c lo up safe n s) := by
  simp only [Machine.channelConfigBody]
  repeat' split
  case h_2.isFalse.isFalse.isFalse.isFalse =>
    next x hx _ hlim hcmd _ =>
    obtain ⟨h1, h2, h3, h4⟩ := not_not.1 hlim
    obtain ⟨h5, h6⟩ := not_not.1 hcmd
    refine ((hs.changeChannel fun y hy hQ => ?_).spoiled _ _).answered _ _ _
    cases hx.symm.trans hy
    exact K.configured _ _ _ h1 h2 h3 h4 h5 h6 hQ
  all_goals exact hs.of_only (by simp)

/-! ### Every command -/

theorem served {v : Server} {h : Header} {r : Request} {body : SessionIx → State → State}
    (hb : ∀ n u, Brought s u → (u.link h.link).inHand = some (h, r) → boundSession h u = some n → ClaimsHold Q W u →
      ClaimsHold Q W (body n u)) (hs : ClaimsHold Q W s)
    (hu : serve v h r body s = .next t) : ClaimsHold Q W t := by
  cases hu
  have hbr : ClaimsHold Q W (bringIn h r s) :=
    hs.of_eq ((Brought.request h r).only .claims (by simp))
  unfold runRequest
  dsimp only
  split
  · next hi =>
    unfold takeRequest
    repeat' split
    · exact hbr.of_only (by simp)
    · exact hbr.of_only (by simp)
    · next n hn _ => exact hb n _ (.request h r) hi hn hbr
    · exact hbr.of_only (by simp)
  · exact hbr

theorem noticed {lane : Lane} {f : Notice → State → Option State}
    (hf : ∀ n u v, headNotice lane s = some n → ClaimsHold Q W u → f n u = some v → ClaimsHold Q W v)
    (hs : ClaimsHold Q W s)
    (hu : (Host.Outcome.next (onNotice lane f s) : Host.Outcome State Fault Refusal) = .next t) : ClaimsHold Q W t := by
  cases hu
  obtain e | ⟨n, u, hn, hu, e⟩ := onNotice_cases lane f s
  · rwa [e]
  · rw [e]
    exact hf n (dropNotice lane s) u hn (hs.of_eq rfl) hu

/-- What every command but COMMIT_RECORDS keeps; a CLAIM where the session it is taken for may be granted channels. -/
theorem exec {i : Instr} (hc : i ≠ .commitRecords)
    (hclaim : ∀ h a b p w, i = .claim h a b p w → ∀ u n, Brought s u →
      (u.link h.link).inHand = some (h, .claim a b p w) → boundSession h u = some n →
      (∀ q c x, Q c x → Q c (x.grantedTo n q)) ∧ ∀ e : WaitEntry, e.session = n → W e)
    (hs : ClaimsHold Q W s) (hr : ReadyHold F s) (hu : exec i s = .next t) : ClaimsHold Q W t := by
  have reset (p : Pins) : ClaimsHold Q W (afterReset p s) :=
    ⟨fun c x hx => by simp [State.channel, afterReset, State.reset] at hx, fun e he => by
      simp [afterReset, State.reset] at he⟩
  have held (p : Pins) : ClaimsHold Q W (resetHeld p s) := by
    refine (reset p).of_only ?_
    simp only [resetHeld]
    rw [only_foldl _ _ fun u k => only_queueDescribe (by simp) k]
    simp [keepPowered]
  have unpowered (p : Pins) : ClaimsHold Q W (resetUnpowered p s) := (reset p).of_only (by simp [resetUnpowered])
  cases i
  case commitRecords => exact absurd rfl hc
  case powerOnReset p | lineReset p => cases hu; exact unpowered p
  case heldReset p => cases hu; exact held p
  case resetPerformed p =>
    cases hu
    repeat' split
    · exact held p
    · exact unpowered p
    all_goals exact hs
  case timeSet h x =>
    refine K.served (fun n u _ _ _ hu => ?_) hs hu
    simp only [timeSetBody]
    split
    · exact hu.of_only (by simp)
    · exact (K.setTime _ hu).answered _ _ _
  case claim h a b p w =>
    refine K.served (fun n u hb hi hn hu => ?_) hs hu
    obtain ⟨hq, hw⟩ := hclaim h a b p w rfl u n hb hi hn
    exact K.claimBody h a b p w hq hw hu
  case release => exact K.served (fun n u _ _ _ hu => K.releaseBody _ _ _ _ _ n hu) hs hu
  case channelConfig => exact K.served (fun n u _ _ _ hu => K.channelConfigBody _ _ _ _ _ n hu) hs hu
  case slotDisable h k =>
    refine K.served (fun n u hb _ _ hu => ?_) hs hu
    have hru : ReadyHold F u := hr.of_notices fun x hx => by
      rwa [State.noticesOf, hb.only .notices (by simp)] at hx
    simp only [slotDisableBody]
    repeat' split
    case h_2.isFalse.isFalse => exact (K.disableSlot _ hu hru).1.answered _ _ _
    all_goals exact hu.of_only (by simp)
  case sessionEndWaitEntries m =>
    refine K.noticed (fun n u v _ hu hv => ?_) hs hu
    cases hv
    exact K.dropWaits m hu
  case sessionEndClaimUnit m =>
    refine K.noticed (fun n u v _ hu hv => ?_) hs hu
    cases hv
    exact (K.endSessionClaims m hu).of_only (by simp)
  case captureItems m =>
    refine K.noticed (fun n u v _ hu hv => ?_) hs hu
    split at hv <;> cases hv
    · exact K.takeCapture _ hu
    · exact hu
  case slotReady =>
    refine K.noticed (fun n u v hn hu hv => ?_) hs hu
    split at hv <;> cases hv
    next k d held => exact K.grantPass (K.makePresent k held (hr k d held (List.mem_of_find?_eq_some hn)) hu)
  case slotLeftReady =>
    refine K.noticed (fun n u v _ hu hv => ?_) hs hu
    split at hv <;> cases hv
    exact K.makeAbsent _ hu
  case haltEntryClaimUnit =>
    refine K.noticed (fun n u v _ hu hv => ?_) hs hu
    split at hv <;> cases hv
    exact K.driveRecordsSafe hu
  case safeAllValues =>
    refine K.noticed (fun n u v _ hu hv => ?_) hs hu
    cases hv
    exact K.driveRecordsSafe (hu.of_only (by simp))
  case rampExpiry =>
    cases hu
    repeat' split
    · exact hs.changeChannel fun x _ hx => K.ramped _ hx
    all_goals exact hs
  case claimWaitDeadline p =>
    cases hu
    repeat' split
    · exact ClaimsHold.of_only (s := s.withWaits (s.claims.waits.eraseIdx p))
        (hs.withWaits fun e he => hs.2 e (List.mem_of_mem_eraseIdx he)) (by simp)
    all_goals exact hs
  all_goals
    refine hs.of_only (exec_changes (fun p hp => ?_) (fun _ => by simp) hu)
    simp only [touches, List.mem_cons, List.not_mem_nil, or_false] at hp
    rw [mem_everyPartBut]
    rintro rfl
    simp at hp

end ClaimRule

end Sys2Proof.Machine
end


section
/-! PROOFS. Every step keeps owners, wait entries and requests in a block's hands those of sessions that may have them
(R1, R11, R155, R157, R169). -/

namespace Sys2Proof.Machine

/-! ### Sessions that are kept -/

section
variable {use rep : Prop} {s t u : State}

theorem SessionsKept.isControl (h : SessionsKept use s t) (n : SessionIx) : t.isControl n = s.isControl n := by
  unfold State.isControl
  have hn := h n
  generalize s.session n = a at *
  generalize t.session n = b at *
  cases hn with
  | none => rfl
  | some e => simp only [e.role]

theorem SessionsKept.boundSession (h : SessionsKept use s t) (g : Header) :
    Machine.boundSession g t = Machine.boundSession g s := by
  unfold Machine.boundSession
  split
  · rfl
  · next n _ =>
    have hn := h n
    generalize s.session n = a at *
    generalize t.session n = b at *
    cases hn with
    | none => rfl
    | some e => simp only [e.link]

/-! ### Requests in a block's hands -/

/-- R169 step 6: a request in a block's hands is one that its session's role may send. -/
def HandMaySend (s : State) : Prop :=
  ∀ h r n, (s.link h.link).inHand = some (h, r) → boundSession h s = some n →
    s.isControl n = true ∨ observeMaySend r = true

theorem HandMaySend.kept (hs : HandMaySend s) (hr : SessionsKept use s t) (hl : LinksKept True rep s t) :
    HandMaySend t := by
  intro h r n hi hb
  rw [hr.isControl]
  rw [hr.boundSession] at hb
  rcases (hl h.link).hand trivial with e | e
  · exact hs h r n (e ▸ hi) hb
  · rw [hi] at e; cases e

theorem sessionsKept_withLink (l : LinkId) (k : Link) (s : State) : SessionsKept use s (s.withLink l k) :=
  .of_eq (by simp)

theorem sessionsKept_placeReply (l : LinkId) (x : Reply) (s : State) : SessionsKept use s (placeReply l x s) :=
  .of_only (ps := everyPartBut .sessions) (by simp) (by simp)

theorem sessionsKept_refuse (h : Header) (r : Request) (x : Reason) (s : State) : SessionsKept use s (refuse h r x s) :=
  .of_only (ps := everyPartBut .sessions) (by simp) (by simp)

theorem HandMaySend.handOver {h : Header} {r : Request} (hs : HandMaySend s)
    (hr : ∀ n, boundSession h s = some n → s.isControl n = true ∨ observeMaySend r = true) :
    HandMaySend (handOver h r s) := by
  have kept : SessionsKept True s (Machine.handOver h r s) := sessionsKept_withLink _ _ s
  intro g q n hi hb
  rw [kept.isControl]
  rw [kept.boundSession] at hb
  by_cases e : g.link = h.link
  · simp only [Machine.handOver, e, State.link_withLink_self, Option.some.injEq, Prod.mk.injEq] at hi
    obtain ⟨rfl, rfl⟩ := hi
    exact hr n hb
  · simp only [Machine.handOver, State.link_withLink_ne _ _ _ e] at hi
    exact hs g q n hi hb

theorem HandMaySend.placeReply (hs : HandMaySend s) (l : LinkId) (x : Reply) : HandMaySend (placeReply l x s) :=
  hs.kept (use := True) (rep := True) (sessionsKept_placeReply l x s) (linksKept_placeReply l x s)

theorem HandMaySend.dispatchRequest (hs : HandMaySend s) (h : Header) (r : Request) :
    HandMaySend (dispatchRequest h r s) := by
  unfold Machine.dispatchRequest
  split
  · unfold dispatchOpen
    repeat' split
    · exact hs.placeReply _ _
    · exact hs.handOver fun _ _ => .inr rfl
    · exact hs.handOver fun _ _ => .inr rfl
  · simp only [dispatchBound]
    repeat' split
    · exact hs.placeReply _ _
    · exact hs.placeReply _ _
    · exact hs.placeReply _ _
    · next n hn _ _ _ hrole =>
      refine hs.handOver fun m hm => ?_
      cases hn.symm.trans hm
      simpa using hrole
    · exact hs.kept (use := True) (rep := True) (sessionsKept_refuse h r _ s) (linksKept_refuse h r _ s)

theorem HandMaySend.dispatchOldest (hs : HandMaySend s) (l : LinkId) : HandMaySend (dispatchOldest l s) := by
  simp only [Machine.dispatchOldest]
  split
  · next f rest _ _ _ =>
    have taken : HandMaySend (s.withLink l { s.link l with input := rest }) := by
      refine hs.kept (use := True) (rep := True) (sessionsKept_withLink _ _ s) (.withLink ?_)
      refine .of_eq rfl rfl fun hb => ?_
      obtain ⟨hin, tail⟩ := hb
      exact ⟨by simp_all; omega, tail⟩
    unfold dispatchFrame
    split
    · exact taken.placeReply _ _
    · exact taken.placeReply _ _
    · exact taken.dispatchRequest _ _
  · exact hs

theorem Brought.handMaySend (hb : Brought s u) (hs : HandMaySend s) : HandMaySend u := by
  cases hb with
  | same => exact hs
  | request h r =>
    have lease : HandMaySend (refreshLease h.link h.session s) :=
      hs.kept (use := True) (rep := True) (sessionsKept_refreshLease _ _ s) (.of_only (by simp [linklessParts]))
    simp only [bringIn]
    repeat' split
    · exact lease.dispatchRequest h r
    · exact hs.dispatchOldest _
    · exact hs
    · exact hs
  | oldest l => exact hs.dispatchOldest l

end

/-! ### Sessions that open and close -/

/-- R169: the answered request is in no block's hands. -/
theorem inHand_answerOpened (h : Header) (r : Request) (a : Answer) (o : Option SessionIx) (s : State) :
    ((answerOpened h r a o s).link h.link).inHand = none := by
  have kept : LinksKept True True (s.withLink h.link { s.link h.link with inHand := none }) (answerOpened h r a o s) :=
    (linksKept_cacheReply h r _ o _).trans (linksKept_placeReply h.link _ _)
  rcases (kept h.link).hand trivial with e | e
  · rw [e]; simp
  · exact e

/-- R149: SESSION_OPEN leaves what the steps of R169 leave, is refused, or opens a CLOSED record. -/
theorem exec_sessionOpen_cases {h : Header} {role : Byte} {x : RawSettings} {s t : State}
    (hu : exec (.sessionOpen h role x) s = .next t) : ∃ u, Brought s u ∧
      (t = u ∨ (∃ why, t = refuse h (.sessionOpen role x) why u) ∨
        ∃ n k a, u.session n = none ∧
          t = answerOpened h (.sessionOpen role x) a (some n) (openSession h.link n k (settingsOf x) u)) := by
  cases hu
  refine ⟨_, .request h (.sessionOpen role x), ?_⟩
  unfold runRequest
  dsimp only
  split
  · refine .inr ?_
    simp only [sessionOpenBody]
    split
    · exact .inl ⟨_, rfl⟩
    · repeat' split
      · exact .inl ⟨_, rfl⟩
      · exact .inl ⟨_, rfl⟩
      · exact .inl ⟨_, rfl⟩
      · exact .inl ⟨_, rfl⟩
      · next n hn =>
        have hc : (bringIn h (.sessionOpen role x) s).session n = none := by simpa using List.find?_some hn
        exact .inr ⟨n, _, _, hc, rfl⟩
  · exact .inl rfl

/-- R157: a record is closed once nothing of its session is left, and everything else stays. -/
theorem exec_sessionRecordClose_cases {n : SessionIx} {s t : State} (hu : exec (.sessionRecordClose n) s = .next t) :
    (t.sessions = s.sessions ∧ t.claims = s.claims) ∨
      (∀ m, t.session m = if n = m then none else s.session m) ∧ t.claims = s.claims ∧
        (∀ c x, s.channel c = some x → x.owner ≠ some n) ∧ (∀ e ∈ s.claims.waits, e.session ≠ n) ∧
        (∀ b, .sessionEnd b n ∉ s.notices) ∧ ∃ r, s.session n = some r ∧ r.ending ≠ none := by
  cases hu
  obtain e | ⟨x, u, -, hu, e⟩ := onNotice_cases (.recordClose n)
    (fun _ t => if endUnfinished n t then none else some (closeRecord n t)) s
  · rw [e]; exact .inl ⟨rfl, rfl⟩
  · rw [e]
    split at hu <;> cases hu
    next hf =>
    unfold closeRecord
    split
    · exact .inl ⟨rfl, rfl⟩
    · next r hr =>
      split
      · next ending hending =>
        refine .inr ⟨fun m => ?_, ?_, fun c y hy he => ?_, fun e he hn => ?_, fun b hb => ?_, r, hr, by simp [hending]⟩
        · dsimp only
          split <;> exact State.session_withSession _ n m none
        · dsimp only
          split <;> rfl
        · refine hf ?_
          simp only [endUnfinished, Bool.or_eq_true]
          refine .inl (.inr (List.any_eq_true.2 ⟨c, List.mem_finRange c, ?_⟩))
          have hy' : (dropNotice (.recordClose n) s).channel c = some y := hy
          simp [State.owns, hy', he]
        · refine hf ?_
          simp only [endUnfinished, Bool.or_eq_true]
          exact .inr (List.any_eq_true.2 ⟨e, he, decide_eq_true hn⟩)
        · refine hf ?_
          have kept : .sessionEnd b n ∈ (dropNotice (.recordClose n) s).notices :=
            (List.mem_eraseP_of_neg (by simp [noticeLane])).2 hb
          simp only [endUnfinished, Bool.or_eq_true]
          exact .inl (.inl (.inl (List.any_eq_true.2 ⟨_, kept, by simp⟩)))
      · exact .inl ⟨rfl, rfl⟩

/-! ### Owners -/

/-- The owner of every OWNED channel and the session of every wait entry is one of `P`. -/
def OwnersIn (P : SessionIx → Prop) (s : State) : Prop :=
  ClaimsHold (fun _ x => ∀ o, x.owned = some o → P o.owner) (fun e => P e.session) s

theorem ownersIn_rule (P : SessionIx → Prop) :
    ClaimRule (fun _ x => ∀ o, x.owned = some o → P o.owner) (fun e => P e.session) (fun _ => True) where
  safe h := h
  freed _ _ h := by cases h
  ramped _ h := h
  readBack _ h := h
  deviating _ h := h
  configured _ _ _ _ _ _ _ _ _ h := h
  granted he _ o h := by cases h; exact he
  shifted _ h := h
  fresh _ _ _ _ _ h := by cases h

theorem ownersOpen_iff {s : State} : OwnersOpen s ↔ OwnersIn (fun n => s.isControl n = true) s ∧ HandMaySend s :=
  ⟨fun ⟨h1, h2, h3⟩ => ⟨⟨fun c x hx o ho => h1 c x o hx ho, h2⟩, h3⟩,
    fun ⟨⟨h1, h2⟩, h3⟩ => ⟨fun c x o hx ho => h1 c x hx o ho, h2, h3⟩⟩

theorem OwnersIn.mono {P P' : SessionIx → Prop} {s : State} (h : OwnersIn P s) (hp : ∀ n, P n → P' n) : OwnersIn P' s :=
  ⟨fun c x hx o ho => hp _ (h.1 c x hx o ho), fun e he => hp _ (h.2 e he)⟩

/-- R76: commit records change no owner. -/
theorem OwnersIn.commitRecords {P : SessionIx → Prop} {s t : State} (h : OwnersIn P s)
    (hu : exec .commitRecords s = .next t) : OwnersIn P t := by
  refine (ownersIn_rule P).noticed (fun n u v _ hu hv => ?_) h hu
  split at hv <;> cases hv
  refine ClaimsHold.posted ?_ _
  have records (q : Bool) (rs : List CommitRecord) : ∀ w, OwnersIn P w → OwnersIn P (rs.foldl (takeRecord q) w) := by
    induction rs with
    | nil => exact fun _ hw => hw
    | cons r rs ih =>
      refine fun w hw => ih _ (hw.changeChannel fun x _ hx => ?_)
      split <;> exact hx
  exact records _ _ u hu

/-- R1, R11: no command gives a channel or a wait entry to a session that was not CONTROL. -/
theorem exec_ownersIn {i : Instr} {s t : State} (h : OwnersOpen s) (hu : exec i s = .next t) :
    OwnersIn (fun n => s.isControl n = true) t := by
  obtain ⟨ho, hh⟩ := ownersOpen_iff.1 h
  by_cases hi : i = .commitRecords
  · subst hi; exact ho.commitRecords hu
  · refine (ownersIn_rule fun n => s.isControl n = true).exec hi (fun g a b p w _ u n hb hin hn => ?_) ho (fun _ _ _ _ _ _ => trivial) hu
    have hc : s.isControl n = true := by
      rw [← (hb.sessionsKept (use := True)).isControl]
      exact (hb.handMaySend hh g _ n hin hn).resolve_right (by simp [observeMaySend])
    exact ⟨fun q c x _ o ho => by cases ho; exact hc, fun e he => he ▸ hc⟩

/-- A command that opens no session and closes none. -/
theorem OwnersOpen.exec_kept {i : Instr} {s t : State} (h : OwnersOpen s) (hi : ¬ opensOrCloses i)
    (hu : exec i s = .next t) : OwnersOpen t := by
  have kept : SessionsKept False s t := exec_sessionsKept hi (fun e => e.elim) hu
  obtain ⟨-, hh⟩ := ownersOpen_iff.1 h
  have hstart : ¬ startsAnew i := by
    intro e
    cases i <;> first | exact e | exact hi trivial
  obtain ⟨u, hb, hl⟩ := exec_linksKept (rep := False) hstart (fun e => e.elim) hu
  refine ownersOpen_iff.2 ⟨(exec_ownersIn h hu).mono fun n hn => by rwa [kept.isControl], ?_⟩
  have hhu := hb.handMaySend hh
  have hbu := hb.sessionsKept (use := False)
  intro g r n hi hbn
  rcases (hl g.link).hand trivial with e | e
  · rw [kept.isControl, ← hbu.isControl]
    rw [kept.boundSession, ← hbu.boundSession] at hbn
    exact hhu g r n (e ▸ hi) hbn
  · rw [hi] at e; cases e

/-- The Session Table after SESSION_OPEN has been answered. -/
theorem session_answerOpened (h : Header) (r : Request) (a : Answer) (o : Option SessionIx) (s : State) (n : SessionIx) :
    (answerOpened h r a o s).session n = s.session n :=
  congrArg (fun x : SessionTable => x.records.get n)
    ((only_answerOpened (ps := everyPartBut .sessions) h (by simp) r a o).2 (.refl _ s) .sessions (by simp))

/-- R149: no other session is bound to a link by the opening of a CLOSED record. -/
theorem boundSession_opened {l : LinkId} {n m : SessionIx} {k : Role} {x : Settings} {s : State} {g : Header}
    (hn : s.session n = none) (hg : g.link ≠ l) :
    (boundSession g (openSession l n k x s) = some m → m ≠ n) ∧
      boundSession g (openSession l n k x s) = boundSession g s := by
  unfold boundSession
  split
  · exact ⟨nofun, rfl⟩
  · next j _ =>
    rw [openSession_session]
    by_cases e : n = j
    · subst e
      rw [if_pos rfl, hn]
      have hl : ¬ l = g.link := fun e => hg e.symm
      simp [freshSession, hl]
    · rw [if_neg e]
      refine ⟨fun h => ?_, rfl⟩
      split at h
      · split at h <;> cases h
        exact fun e' => e e'.symm
      · cases h

theorem OwnersOpen.opened {h : Header} {role : Byte} {x : RawSettings} {s t : State} (hs : OwnersOpen s)
    (hu : exec (.sessionOpen h role x) s = .next t) : OwnersOpen t := by
  have howners := exec_ownersIn hs hu
  obtain ⟨u, hb, htail⟩ := exec_sessionOpen_cases hu
  have hbu := hb.sessionsKept (use := True)
  have hhu : HandMaySend u := hb.handMaySend (ownersOpen_iff.1 hs).2
  have control (n : SessionIx) : s.isControl n = u.isControl n := (hbu.isControl n).symm
  obtain rfl | ⟨why, rfl⟩ | ⟨n, k, a, hn, rfl⟩ := htail
  · exact ownersOpen_iff.2 ⟨howners.mono fun n hn => control n ▸ hn, hhu⟩
  · have kept := sessionsKept_refuse (use := True) h (.sessionOpen role x) why u
    refine ownersOpen_iff.2 ⟨howners.mono fun n hn => ?_, hhu.kept kept (linksKept_refuse (rep := True) h _ _ u)⟩
    rw [kept.isControl]
    exact control n ▸ hn
  · have session (m : SessionIx) (hm : m ≠ n) :
        (answerOpened h (.sessionOpen role x) a (some n) (openSession h.link n k (settingsOf x) u)).isControl m =
          u.isControl m := by
      unfold State.isControl
      rw [session_answerOpened, openSession_session, if_neg hm.symm]
    refine ownersOpen_iff.2 ⟨howners.mono fun m hm => ?_, fun g r m hi hbm => ?_⟩
    · rw [control] at hm
      rw [session m (fun e => by subst e; simp [State.isControl, hn] at hm)]
      exact hm
    · by_cases hg : g.link = h.link
      · rw [hg, inHand_answerOpened] at hi
        cases hi
      · have bound : boundSession g (answerOpened h (.sessionOpen role x) a (some n)
            (openSession h.link n k (settingsOf x) u)) = boundSession g (openSession h.link n k (settingsOf x) u) := by
          unfold boundSession
          simp only [session_answerOpened]
        rw [bound] at hbm
        obtain ⟨hne, heq⟩ := boundSession_opened (k := k) (x := settingsOf x) hn hg
        rw [session m (hne hbm)]
        refine hhu g r m ?_ (heq ▸ hbm)
        have link : LinksKept True True u (openSession h.link n k (settingsOf x) u) :=
          (LinksKept.of_only (by simp [linklessParts])).andLink (.of_eq rfl rfl id)
        rcases ((link.trans (linksKept_answerOpened h _ a (some n) _)) g.link).hand trivial with e | e
        · exact e ▸ hi
        · rw [hi] at e; cases e

theorem OwnersOpen.closed {n : SessionIx} {s t : State} (hs : OwnersOpen s)
    (hu : exec (.sessionRecordClose n) s = .next t) : OwnersOpen t := by
  obtain ⟨ho, hh⟩ := ownersOpen_iff.1 hs
  have hl : LinksKept True True s t := .of_only (exec_changes (by simp [touches, linklessParts]) (by simp [linklessParts]) hu)
  obtain ⟨hsess, hclaims⟩ | ⟨hsess, hclaims, hown, hwait, -⟩ := exec_sessionRecordClose_cases hu
  · have kept : SessionsKept True s t := .of_eq hsess
    have ht : OwnersIn (fun m => t.isControl m = true) s := ho.mono fun m hm => by rwa [kept.isControl]
    exact ownersOpen_iff.2 ⟨ClaimsHold.of_eq ht hclaims, hh.kept kept hl⟩
  · have control (m : SessionIx) (hm : m ≠ n) : t.isControl m = s.isControl m := by
      unfold State.isControl
      rw [hsess, if_neg hm.symm]
    have ht : OwnersIn (fun m => t.isControl m = true) s := by
      refine ⟨fun c x hx o he => ?_, fun e he => (control _ (hwait e he)).trans (ho.2 e he)⟩
      exact (control _ fun e => hown c x hx (by simp [Channel.owner, he, e])).trans (ho.1 c x hx o he)
    refine ownersOpen_iff.2 ⟨ClaimsHold.of_eq ht hclaims, ?_⟩
    · intro g r m hi hbm
      have hbs : boundSession g s = some m ∧ m ≠ n := by
        unfold boundSession at hbm ⊢
        split at hbm
        · cases hbm
        · next j _ =>
          rw [hsess] at hbm
          by_cases e : n = j
          · rw [if_pos e] at hbm; cases hbm
          · rw [if_neg e] at hbm
            refine ⟨hbm, ?_⟩
            split at hbm
            · split at hbm <;> cases hbm
              exact fun e' => e e'.symm
            · cases hbm
      rw [control m hbs.2]
      rcases (hl g.link).hand trivial with e | e
      · exact hh g r m (e ▸ hi) hbs.1
      · rw [hi] at e; cases e

/-- After a reset no channel is owned, no session waits and no request is in a block's hands. -/
theorem ownersOpen_afterReset {p : Pins} {s t : State}
    (h : OnlyChanges [.slots, .modules, .bus, .engine, .notices] (afterReset p s) t) : OwnersOpen t := by
  have claims : t.claims = (afterReset p s).claims := h .claims (by simp)
  have linkA : t.linkA = (afterReset p s).linkA := h .linkA (by simp)
  have linkB : t.linkB = (afterReset p s).linkB := h .linkB (by simp)
  refine ⟨fun c x o hx => ?_, fun e he => ?_, fun g r n hi => ?_⟩
  · simp [State.channel, claims, afterReset, State.reset] at hx
  · simp [claims, afterReset, State.reset] at he
  · cases hg : g.link <;> simp [State.link, hg, linkA, linkB, afterReset, linkAfterReset, Link.reset] at hi

theorem OwnersOpen.exec {i : Instr} {s t : State} (hs : OwnersOpen s) (hu : exec i s = .next t) : OwnersOpen t := by
  have held (p : Pins) : OwnersOpen (resetHeld p s) := by
    refine ownersOpen_afterReset (p := p) (s := s) ?_
    simp only [resetHeld]
    rw [only_foldl _ _ fun u k => only_queueDescribe (by simp) k]
    simp [keepPowered]
  have unpowered (p : Pins) : OwnersOpen (resetUnpowered p s) :=
    ownersOpen_afterReset (p := p) (s := s) (by simp [resetUnpowered])
  cases i
  case powerOnReset p | lineReset p => cases hu; exact unpowered p
  case heldReset p => cases hu; exact held p
  case resetPerformed p =>
    cases hu
    repeat' split
    · exact held p
    · exact unpowered p
    all_goals exact hs
  case sessionOpen => exact hs.opened hu
  case sessionRecordClose => exact hs.closed hu
  all_goals exact hs.exec_kept id hu

/-- Settles O6: the commands give channels and wait entries to CONTROL sessions alone, and a record is closed once
nothing of its session is left. -/
theorem stepKeepsOwnersOpen : Obligations.StepKeepsOwnersOpen := by
  intro s t hs hu
  unfold step at hu
  split at hu
  · cases hu; exact hs
  · next i rest _ => exact OwnersOpen.exec (s := s.withPending rest) hs hu

end Sys2Proof.Machine
end


section
/-! PROOFS. Every step keeps the working limits of a channel inside its descriptor's, and the commanded value inside the
working limits (R4, R5, R124). -/

namespace Sys2Proof.Machine

/-! ### Rules for limits -/

theorem entryOk_iff_limits {e : DescEntry} (h : entryOk e = true) : e.lower ≤ e.safe ∧ e.safe ≤ e.upper := by
  simp only [entryOk, Bool.and_eq_true, decide_eq_true_eq] at h
  obtain ⟨⟨⟨⟨-, h1⟩, h2⟩, -⟩, -⟩ := h
  exact ⟨h1, h2⟩

/-- The channel's working values lie in its descriptor's limits, and its commanded value in the working limits. -/
def Channel.inside (x : Channel) : Prop := x.limitsHold ∧ x.lower ≤ x.commanded ∧ x.commanded ≤ x.upper

theorem Channel.limitsHold_freed {x : Channel} (h : x.limitsHold) : x.freed.limitsHold := by
  obtain ⟨-, -, -, -, h5, h6⟩ := h
  exact ⟨le_refl _, h5, h6, le_refl _, h5, h6⟩

theorem Channel.limitsHold_fresh {e : DescEntry} (h : entryOk e = true) (kind : ChannelKind) (v : Option (Int × Nat)) :
    (freshChannel kind e v).limitsHold := by
  obtain ⟨h1, h2⟩ := entryOk_iff_limits h
  exact ⟨le_refl _, h1, h2, le_refl _, h1, h2⟩

theorem limits_rule : ClaimRule (fun _ x => x.limitsHold) (fun _ => True) (fun e => entryOk e = true) where
  safe h := h
  freed h := Channel.limitsHold_freed h
  ramped _ h := h
  readBack _ h := h
  deviating _ h := h
  configured _ _ _ h1 h2 h3 h4 _ _ h := by
    obtain ⟨-, -, -, -, h5, h6⟩ := h
    exact ⟨h1, h2, h3, h4, h5, h6⟩
  granted _ h := h
  shifted _ h := h
  fresh _ kind v h := Channel.limitsHold_fresh h kind v

theorem inside_rule : ClaimRule (fun _ x => x.inside) (fun _ => True) (fun e => entryOk e = true) where
  safe h := by
    obtain ⟨⟨h1, h2, h3, h4⟩, -⟩ := h
    exact ⟨⟨h1, h2, h3, h4⟩, h2, h3⟩
  freed h := by
    obtain ⟨hl, h1, h2⟩ := h
    refine ⟨Channel.limitsHold_freed hl, ?_, ?_⟩
    all_goals
      obtain ⟨h3, -, -, h4, -, -⟩ := hl
      simp only [Channel.freed]
      omega
  ramped _ h := h
  readBack _ h := h
  deviating _ h := h
  configured lo up safe h1 h2 h3 h4 h5 h6 h := by
    obtain ⟨⟨-, -, -, -, hd⟩, -⟩ := h
    exact ⟨⟨h1, h2, h3, h4, hd⟩, h5, h6⟩
  granted _ h := h
  shifted _ h := h
  fresh _ kind v h := by
    obtain ⟨h1, h2⟩ := entryOk_iff_limits h
    refine ⟨Channel.limitsHold_fresh h kind v, ?_⟩
    cases v with
    | none => exact ⟨h1, h2⟩
    | some v => exact ⟨le_max_left _ _, max_le (by dsimp only [freshChannel]; omega) (min_le_left _ _)⟩

/-! ### Descriptors of slots -/

/-- R117: no descriptor that fails the checks is read back against. -/
def Slot.judged (x : Slot) : Prop :=
  x.state = .powering ∨ x.state = .identifying → ∀ d, x.descriptor = some d → d.entriesOk

/-- `Slot.judged` of every slot but those of a list. -/
def SlotsJudged (but : List SlotIx) (s : State) : Prop := ∀ k, k ∉ but → (s.slot k).judged

theorem limitsHold_iff {s : State} : LimitsHold s ↔
    ClaimsHold (fun _ x => x.limitsHold) (fun _ => True) s ∧ ReadyHold (fun e => entryOk e = true) s ∧ SlotsJudged [] s :=
  ⟨fun ⟨h1, h2, h3⟩ => ⟨⟨h1, fun _ _ => trivial⟩, h2, fun k _ hs d => h3 k d hs⟩,
    fun ⟨⟨h1, _⟩, h2, h3⟩ => ⟨h1, h2, fun k d hs => h3 k (by simp) hs d⟩⟩

section
variable {s t : State} {but : List SlotIx} {k : SlotIx} {x : Slot}

theorem SlotsJudged.of_eq (h : SlotsJudged but s) (e : t.slots = s.slots) : SlotsJudged but t := by
  unfold SlotsJudged State.slot at *
  rwa [e]

theorem SlotsJudged.of_only (h : SlotsJudged but s) (e : OnlyChanges (everyPartBut .slots) s t) : SlotsJudged but t :=
  h.of_eq (e .slots (by simp))

theorem SlotsJudged.answered (h : SlotsJudged but s) (g : Header) (r : Request) (a : Answer) :
    SlotsJudged but (answer g r a s) := h.of_only (by simp)

theorem SlotsJudged.mono (h : SlotsJudged [] s) : SlotsJudged but s := fun j _ => h j (by simp)

/-- One slot gets a record that is judged; whatever it was before. -/
theorem SlotsJudged.withSlot (h : SlotsJudged [k] s) (hx : x.judged) : SlotsJudged [] (s.withSlot k x) := by
  intro j _
  rw [State.slot_withSlot]
  split
  · exact hx
  · next e => exact h j (by simpa using fun e' => e e'.symm)

theorem SlotsJudged.withSlot_but (h : SlotsJudged [k] s) : SlotsJudged [k] (s.withSlot k x) := by
  intro j hj
  rw [State.slot_withSlot, if_neg fun e => hj (by simp [e])]
  exact h j hj

theorem Slot.judged_of_state (h1 : x.state ≠ .powering) (h2 : x.state ≠ .identifying) : x.judged :=
  fun h => (h.elim h1 h2).elim

theorem Slot.judged_of_none (h : x.descriptor = none) : x.judged := fun _ d hd => by rw [h] at hd; cases hd

/-- A record that differs in neither state nor descriptor. -/
theorem Slot.judged_of_eq {y : Slot} (h : y.judged) (hs : x.state = y.state) (hd : x.descriptor = y.descriptor) :
    x.judged := by
  unfold Slot.judged at *
  rwa [hs, hd]

theorem SlotsJudged.enterState (held : Bool) (h : SlotsJudged [k] s) (hx : x.judged) :
    SlotsJudged [] (enterState k held x s) :=
  SlotsJudged.of_eq (h.withSlot (x := { x with stateTime := s.clock.rig }) (Slot.judged_of_eq hx rfl rfl)) rfl

theorem SlotsJudged.moveTo (h : SlotsJudged [k] s) (hx : x.judged) : SlotsJudged [] (moveTo k x s) := by
  unfold Machine.moveTo
  refine SlotsJudged.enterState false ?_ hx
  split
  · exact h.of_only (by simp)
  · exact h

theorem SlotsJudged.faultSlot (f : FaultReason) (h : SlotsJudged [k] s) : SlotsJudged [] (faultSlot k f s) :=
  h.moveTo (Slot.judged_of_state nofun nofun)

theorem SlotsJudged.takePowerGood (h : SlotsJudged [] s) : SlotsJudged [] (takePowerGood k s) := by
  unfold Machine.takePowerGood
  split
  · next hp =>
    exact SlotsJudged.of_eq (h.mono.enterState (k := k) false (x := { s.slot k with
      state := .identifying, powerTimer := none, ident := (s.slot k).ident + 1 })
      fun _ d hd => h k (by simp) (.inl hp) d hd) rfl
  · exact h

theorem SlotsJudged.takeOvercurrent (h : SlotsJudged [] s) : SlotsJudged [] (takeOvercurrent k s) := by
  unfold Machine.takeOvercurrent
  split
  · exact h.mono.faultSlot _
  · exact h

theorem SlotsJudged.powerUp (r : Rail) (h : SlotsJudged [] s) : SlotsJudged [] (powerUp k r s) := by
  have hp : SlotsJudged [] (post (.slotPowered k)
      ((Machine.enterState k false ((s.slot k).toPowering r (s.instant powerTime)) s).withModule k Module.fresh)) :=
    SlotsJudged.of_eq (h.mono.enterState (k := k) (x := (s.slot k).toPowering r (s.instant powerTime)) false
      (Slot.judged_of_none rfl)) rfl
  unfold Machine.powerUp takeAsserted
  dsimp only
  split
  · exact hp
  · exact hp.takePowerGood
  · exact hp.takeOvercurrent
  · split
    · exact SlotsJudged.takePowerGood (SlotsJudged.takeOvercurrent (hp.of_eq rfl))
    · exact SlotsJudged.takeOvercurrent (SlotsJudged.takePowerGood (hp.of_eq rfl))

theorem SlotsJudged.settle (h : SlotsJudged [] s) : SlotsJudged [] (settle k s) :=
  h.mono.moveTo (Slot.judged_of_state nofun nofun)

theorem SlotsJudged.judge (h : SlotsJudged [] s) : SlotsJudged [] (judge k s) := by
  unfold Machine.judge
  split
  · exact h.mono.moveTo (Slot.judged_of_state nofun nofun)
  · exact h.mono.faultSlot _
  · exact h.powerUp _
  · exact h.powerUp _

theorem SlotsJudged.resetSlot (h : SlotsJudged [] s) : SlotsJudged [] (resetSlot k s) := by
  unfold Machine.resetSlot
  split
  · exact h.mono.moveTo (Slot.judged_of_state nofun nofun)
  · exact h.settle
  · exact h.powerUp _
  · exact h.powerUp _

theorem SlotsJudged.takeReading (h : SlotsJudged [] s) : SlotsJudged [] (takeReading k s) := by
  have empty : SlotsJudged [] (Machine.moveTo k (s.slot k).toEmpty s) := h.mono.moveTo (Slot.judged_of_state nofun nofun)
  simp only [Machine.takeReading]
  repeat' split
  · exact h
  · exact h.settle
  · next hs => exact h.mono.withSlot (Slot.judged_of_state (by simp [hs]) (by simp [hs]))
  · exact empty
  · exact h.settle
  · exact empty
  · exact h.settle
  · exact empty
  · exact h.settle
  · exact empty
  · exact h
  · exact h

/-- A slot's record is changed in neither state nor descriptor. -/
theorem SlotsJudged.relined (h : SlotsJudged [] s) (hs : x.state = (s.slot k).state)
    (hd : x.descriptor = (s.slot k).descriptor) : SlotsJudged [] (s.withSlot k x) :=
  h.mono.withSlot (Slot.judged_of_eq (h k (by simp)) hs hd)

/-! ### Descriptors on their way -/

theorem entriesOk_of_valid {b : List Byte} {r : Option Rail} (h : (readDescriptor b r).valid = true) :
    (readDescriptor b r).entriesOk := by
  simp only [readDescriptor, Bool.and_eq_true] at h
  exact List.all_eq_true.1 h.2

/-- R126: the slot becomes READY with a descriptor that passes the checks. -/
theorem judged_becomeReady {d : Descriptor} (held : Option HeldValues) (hd : d.entriesOk) (h : SlotsJudged [k] s)
    (hr : ReadyHold (fun e => entryOk e = true) s) :
    SlotsJudged [] (becomeReady k d held s) ∧ ReadyHold (fun e => entryOk e = true) (becomeReady k d held s) := by
  have entered (n : Notice) : SlotsJudged [] (enterState k held.isSome
      { s.slot k with state := .ready, held := false, descriptor := some d } s) :=
    h.enterState _ (Slot.judged_of_state nofun nofun)
  refine ⟨SlotsJudged.of_eq (entered (.slotReady k d held)) rfl, fun j d' held' hn => ?_⟩
  simp only [becomeReady, enterState, systemReport, post, State.withNotices_notices, List.mem_append,
    List.mem_singleton, State.withSlot] at hn
  rcases hn with (hn | hn) | hn
  · exact hr j d' held' hn
  · cases hn
  · cases hn; exact hd

theorem judged_takeDescriptor (b : List Byte) (h : SlotsJudged [] s) (hr : ReadyHold (fun e => entryOk e = true) s) :
    SlotsJudged [] (takeDescriptor k b s) ∧ ReadyHold (fun e => entryOk e = true) (takeDescriptor k b s) := by
  have stored : SlotsJudged [k] (s.withSlot k { s.slot k with descriptor := some (readDescriptor b (s.slot k).rail) }) :=
    h.mono.withSlot_but
  have hrs : ReadyHold (fun e => entryOk e = true)
      (s.withSlot k { s.slot k with descriptor := some (readDescriptor b (s.slot k).rail) }) := hr
  simp only [takeDescriptor]
  split
  · exact ⟨stored.faultSlot _, hrs.of_notices (by simp)⟩
  · next hv =>
    have hok : (readDescriptor b (s.slot k).rail).entriesOk := entriesOk_of_valid (by simpa using hv)
    split
    · refine ⟨?_, hrs.of_notices (by simp [noticesOf_post, Notice.class])⟩
      refine SlotsJudged.of_eq (h.mono.withSlot (k := k)
        (x := { s.slot k with descriptor := some (readDescriptor b (s.slot k).rail) }) ?_) rfl
      intro _ d hd
      cases hd
      exact hok
    · exact judged_becomeReady none hok stored hrs

end

/-! ### Every command -/

theorem ReadyHold.dropped {F : DescEntry → Prop} {s : State} (h : ReadyHold F s) (l : Lane) :
    ReadyHold F (dropNotice l s) := fun k d held hn => h k d held (List.mem_of_mem_eraseP hn)

/-- What taking a notice does to a property that the taking block keeps. -/
theorem onNotice_induction {P : State → Prop} {lane : Lane} {f : Notice → State → Option State} {s : State} (h : P s)
    (hf : ∀ n v, headNotice lane s = some n → f n (dropNotice lane s) = some v → P v) : P (onNotice lane f s) := by
  obtain e | ⟨n, u, hn, hu, e⟩ := onNotice_cases lane f s
  · rwa [e]
  · rw [e]; exact hf n u hn hu

/-- What a request does to a property that the steps of R169, the refusals and its own rule keep. -/
theorem serve_induction {P : State → Prop} {v : Server} {h : Header} {r : Request} {body : SessionIx → State → State}
    {s t : State} (hb : ∀ u, Brought s u → P u) (hrefuse : ∀ u x, P u → P (refuse h r x u))
    (hbody : ∀ n u, P u → P (body n u)) (hu : serve v h r body s = .next t) : P t := by
  cases hu
  have hbr := hb _ (.request h r)
  unfold runRequest
  dsimp only
  split
  · unfold takeRequest
    repeat' split
    · exact hrefuse _ _ hbr
    · exact hrefuse _ _ hbr
    · exact hbody _ _ hbr
    · exact hrefuse _ _ hbr
  · exact hbr

theorem SlotsJudged.exec {i : Instr} {s t : State} (h : SlotsJudged [] s)
    (hr : ReadyHold (fun e => entryOk e = true) s) (hu : exec i s = .next t) : SlotsJudged [] t := by
  have served {v : Server} {g : Header} {r : Request} {body : SessionIx → State → State}
      (hbody : ∀ n u, SlotsJudged [] u → SlotsJudged [] (body n u)) (hu : serve v g r body s = .next t) :
      SlotsJudged [] t :=
    serve_induction (P := SlotsJudged []) (fun u hb => h.of_eq (hb.only .slots (by simp)))
      (fun u x hu => hu.of_only (by simp)) hbody hu
  have noticed {lane : Lane} {f : Notice → State → Option State}
      (hf : ∀ n u v, SlotsJudged [] u → ReadyHold (fun e => entryOk e = true) u → f n u = some v → SlotsJudged [] v)
      (hu : (Host.Outcome.next (onNotice lane f s) : Host.Outcome State Fault Refusal) = .next t) : SlotsJudged [] t := by
    cases hu
    exact onNotice_induction h fun n v _ hv => hf n (dropNotice lane s) v h (hr.dropped lane) hv
  have reset (p : Pins) (k : SlotIx) (n m : Nat) : (Slot.afterReset p k n m).descriptor = none := by
    unfold Slot.afterReset
    dsimp only
    split <;> rfl
  have unpowered (p : Pins) : SlotsJudged [] (resetUnpowered p s) := by
    refine SlotsJudged.of_only (s := afterReset p s) (fun k _ => Slot.judged_of_none ?_) (by simp [resetUnpowered])
    simp [State.slot, afterReset, reset]
  have held (p : Pins) : SlotsJudged [] (resetHeld p s) := by
    refine SlotsJudged.of_only (s := keepPowered p s (afterReset p s)) (fun k _ => Slot.judged_of_none ?_) ?_
    · simp only [State.slot, keepPowered, State.withBus_slots, State.withModules_slots, State.withSlots_slots,
        Table.get_tab]
      split
      · rfl
      · exact reset _ _ _ _
    · simp only [resetHeld]
      rw [only_foldl _ _ fun u k => only_queueDescribe (by simp) k]
      simp
  cases i
  case powerOnReset p | lineReset p => cases hu; exact unpowered p
  case heldReset p => cases hu; exact held p
  case resetPerformed p =>
    cases hu
    repeat' split
    · exact held p
    · exact unpowered p
    all_goals exact h
  case slotDisable g k =>
    refine served (fun n u hu => ?_) hu
    simp only [slotDisableBody]
    repeat' split
    case h_2.isFalse.isFalse j _ _ _ =>
      have moved : SlotsJudged [] (Machine.moveTo j (u.slot j).toDisabled u) := hu.mono.moveTo (Slot.judged_of_none rfl)
      refine moved.of_only ?_
      unfold disableSlot
      dsimp only
      split <;> simp
    all_goals exact hu.of_only (by simp)
  case slotEnable g k =>
    refine served (fun n u hu => ?_) hu
    simp only [slotEnableBody]
    repeat' split
    case h_2.isFalse => exact hu.judge.answered _ _ _
    all_goals exact hu.of_only (by simp)
  case slotReset g k =>
    refine served (fun n u hu => ?_) hu
    simp only [slotResetBody]
    repeat' split
    case h_2.isFalse => exact hu.resetSlot.answered _ _ _
    all_goals exact hu.of_only (by simp)
  case readingChange k x =>
    cases hu
    have lines : SlotsJudged [] (s.withSlot k { s.slot k with sense := x, reading := readingOf x }) := h.relined rfl rfl
    split
    · exact lines
    · exact lines.takeReading
  case settleTimerExpiry =>
    cases hu
    repeat' split
    · exact h.judge
    all_goals exact h
  case powerGoodAssert k =>
    cases hu
    exact SlotsJudged.takePowerGood (h.relined rfl rfl)
  case powerGoodTimerExpiry =>
    cases hu
    repeat' split
    · exact h.mono.faultSlot _
    all_goals exact h
  case powerGoodDeassert k =>
    cases hu
    have lines : SlotsJudged [] (s.withSlot k { s.slot k with powerGood := false }) := h.relined rfl rfl
    dsimp only
    split
    · exact lines.mono.faultSlot _
    · exact lines
  case overcurrent k x =>
    cases hu
    have lines : SlotsJudged [] (s.withSlot k { s.slot k with overcurrent := x }) := h.relined rfl rfl
    dsimp only
    split
    · exact lines.takeOvercurrent
    · exact lines
  case busFailureNotice =>
    refine noticed (fun n u v hu _ hv => ?_) hu
    split at hv <;> cases hv
    split
    · exact hu.mono.faultSlot _
    · exact hu
  case describeReply =>
    refine noticed (fun n u v hu hru hv => ?_) hu
    split at hv <;> cases hv
    split
    · exact (judged_takeDescriptor _ hu hru).1
    · exact hu
  case heldReadbackReply =>
    refine noticed (fun n u v hu hru hv => ?_) hu
    split at hv <;> cases hv
    next k _ _ =>
    split
    · next hy =>
      split
      · next d hd => exact (judged_becomeReady _ (hu k (by simp) (.inr hy.1) d hd) hu.mono hru).1
      · exact hu
    · exact hu
  all_goals
    refine h.of_only (exec_changes (fun p hp => ?_) (fun _ => by simp) hu)
    simp only [touches, List.mem_cons, List.not_mem_nil, or_false] at hp
    rw [mem_everyPartBut]
    rintro rfl
    simp at hp

theorem ReadyHold.exec {i : Instr} {s t : State} (h : SlotsJudged [] s) (hc : ClaimsHold (fun _ x => x.limitsHold) (fun _ => True) s)
    (hr : ReadyHold (fun e => entryOk e = true) s) (hu : exec i s = .next t) : ReadyHold (fun e => entryOk e = true) t := by
  have noticed {lane : Lane} {f : Notice → State → Option State}
      (hf : ∀ n u v, SlotsJudged [] u → ReadyHold (fun e => entryOk e = true) u → f n u = some v →
        ReadyHold (fun e => entryOk e = true) v)
      (hu : (Host.Outcome.next (onNotice lane f s) : Host.Outcome State Fault Refusal) = .next t) :
      ReadyHold (fun e => entryOk e = true) t := by
    cases hu
    exact onNotice_induction hr fun n v _ hv => hf n (dropNotice lane s) v h (hr.dropped lane) hv
  have reset {v : State} (p : Pins) (hv : v.notices = (afterReset p s).notices ∨
      v.noticesOf .slotReady = (afterReset p s).noticesOf .slotReady) : ReadyHold (fun e => entryOk e = true) v := by
    have none : ReadyHold (fun e => entryOk e = true) (afterReset p s) := fun k d held hn => by
      simp [afterReset, State.reset] at hn
    refine none.of_notices fun n hn => ?_
    rcases hv with e | e
    · rwa [State.noticesOf, e] at hn
    · rwa [e] at hn
  have unpowered (p : Pins) : ReadyHold (fun e => entryOk e = true) (resetUnpowered p s) := by
    refine reset p (.inr ?_)
    rw [resetUnpowered, noticesOf_grantBus (by simp), noticesOf_quiet (t := afterReset p s) (by simp)]
  have held (p : Pins) : ReadyHold (fun e => entryOk e = true) (resetHeld p s) := by
    refine reset p (.inr (noticesOf_quiet ?_))
    simp only [resetHeld]
    rw [only_foldl _ _ fun u k => only_queueDescribe (by simp) k]
    simp [keepPowered]
  by_cases hd : dealsWith i .slotReady
  · cases i
    case powerOnReset p | lineReset p => cases hu; exact unpowered p
    case heldReset p => cases hu; exact held p
    case resetPerformed p =>
      cases hu
      repeat' split
      · exact held p
      · exact unpowered p
      all_goals exact hr
    case slotDisable g k =>
      have both : ClaimsHold (fun _ x => x.limitsHold) (fun _ => True) t ∧ ReadyHold (fun e => entryOk e = true) t := by
        refine serve_induction (P := fun u => ClaimsHold (fun _ x => x.limitsHold) (fun _ => True) u ∧
          ReadyHold (fun e => entryOk e = true) u) (fun u hb => ?_) (fun u x hu => ?_) (fun n u hu => ?_) hu
        · exact ⟨hc.of_eq (hb.only .claims (by simp)), hr.of_notices fun n hn => by
            rwa [State.noticesOf, hb.only .notices (by simp)] at hn⟩
        · exact ⟨hu.1.of_only (by simp), hu.2.of_notices (by simp)⟩
        · simp only [slotDisableBody]
          repeat' split
          case h_2.isFalse.isFalse j _ _ _ =>
            obtain ⟨h1, h2⟩ := limits_rule.disableSlot j hu.1 hu.2
            exact ⟨h1.answered _ _ _, h2.of_notices (by simp)⟩
          all_goals exact ⟨hu.1.of_only (by simp), hu.2.of_notices (by simp)⟩
      exact both.2
    case describeReply =>
      refine noticed (fun n u v hu hru hv => ?_) hu
      split at hv <;> cases hv
      split
      · exact (judged_takeDescriptor _ hu hru).2
      · exact hru
    case heldReadbackReply =>
      refine noticed (fun n u v hu hru hv => ?_) hu
      split at hv <;> cases hv
      next k _ _ =>
      split
      · next hy =>
        split
        · next d hd => exact (judged_becomeReady _ (hu k (by simp) (.inr hy.1) d hd) hu.mono hru).2
        · exact hru
      · exact hru
    case slotReady | slotLeftReady =>
      refine noticed (fun n u v _ hru hv => ?_) hu
      split at hv <;> cases hv
      exact hru.of_notices (by simp)
    all_goals first | exact hd.elim | cases hd
  · exact hr.of_notices (by rw [exec_noticesOf (by simp) hd hu]; exact fun _ => id)

/-! ### Commit records -/

/-- A record whose target lies in the channel's working limits leaves its commanded value in them (R5, R76). -/
theorem inside_takeRecords {s u : State} {q : Bool} {rs : List CommitRecord} (hs : ClaimsHold (fun _ x => x.inside) (fun _ => True) s)
    (hu : ∀ c x, u.channel c = some x → x.inside ∧ ∃ y, s.channel c = some y ∧ x.lower = y.lower ∧ x.upper = y.upper)
    (hrs : ∀ r ∈ rs, ∀ y, s.channel r.channel = some y → y.lower ≤ r.target ∧ r.target ≤ y.upper) :
    ∀ c x, (rs.foldl (takeRecord q) u).channel c = some x → x.inside := by
  induction rs generalizing u with
  | nil => exact fun c x hx => (hu c x hx).1
  | cons r rs ih =>
    obtain ⟨hr, hrs⟩ := List.forall_mem_cons.1 hrs
    refine ih (fun c x hx => ?_) hrs
    simp only [takeRecord, channel_changeChannel] at hx
    by_cases e : r.channel = c
    · subst e
      simp only [if_true, Option.map_eq_some_iff] at hx
      obtain ⟨z, hz, rfl⟩ := hx
      obtain ⟨hin, y, hy, hlo, hup⟩ := hu _ z hz
      split
      · exact ⟨inside_rule.safe (c := r.channel) hin, y, hy, hlo, hup⟩
      · obtain ⟨h1, h2⟩ := hr y hy
        exact ⟨⟨hin.1, by rw [← hlo] at h1; exact h1, by rw [← hup] at h2; exact h2⟩, y, hy, hlo, hup⟩
    · rw [if_neg e] at hx
      exact hu c x hx

theorem limits_commitRecords {s t : State} (h : ClaimsHold (fun _ x => x.limitsHold) (fun _ => True) s)
    (hu : exec .commitRecords s = .next t) : ClaimsHold (fun _ x => x.limitsHold) (fun _ => True) t := by
  refine limits_rule.noticed (fun n u v _ hu hv => ?_) h hu
  split at hv <;> cases hv
  refine ClaimsHold.posted ?_ _
  have records (q : Bool) (rs : List CommitRecord) : ∀ w, ClaimsHold (fun _ x => x.limitsHold) (fun _ => True) w →
      ClaimsHold (fun _ x => x.limitsHold) (fun _ => True) (rs.foldl (takeRecord q) w) := by
    induction rs with
    | nil => exact fun _ hw => hw
    | cons r rs ih =>
      refine fun w hw => ih _ (hw.changeChannel fun x _ hx => ?_)
      split <;> exact hx
  exact records _ _ u hu

theorem inside_commitRecords {s t : State} (h : ClaimsHold (fun _ x => x.inside) (fun _ => True) s)
    (hr : RecordsInside s) (hu : exec .commitRecords s = .next t) : ClaimsHold (fun _ x => x.inside) (fun _ => True) t := by
  cases hu
  refine onNotice_induction (P := ClaimsHold (fun _ x => x.inside) (fun _ => True)) h fun n v hn hv => ?_
  split at hv <;> cases hv
  next rs q =>
  refine ClaimsHold.posted ⟨?_, fun _ _ => trivial⟩ _
  exact inside_takeRecords h (fun c x hx => ⟨h.1 c x hx, x, hx, rfl, rfl⟩) (hr rs q (List.mem_of_find?_eq_some hn))

/-! ### Every step -/

theorem LimitsHold.exec {i : Instr} {s t : State} (h : LimitsHold s) (hu : exec i s = .next t) : LimitsHold t := by
  obtain ⟨hc, hr, hs⟩ := limitsHold_iff.1 h
  refine limitsHold_iff.2 ⟨?_, ReadyHold.exec hs hc hr hu, SlotsJudged.exec hs hr hu⟩
  by_cases hi : i = .commitRecords
  · subst hi; exact limits_commitRecords hc hu
  · exact limits_rule.exec hi (fun _ _ _ _ _ _ _ _ _ _ _ => ⟨fun _ _ _ h => h, fun _ _ => trivial⟩) hc hr hu

theorem CommandedInside.exec {i : Instr} {s t : State} (h : LimitsHold s) (hs : CommandedInside s) (hr : RecordsInside s)
    (hu : exec i s = .next t) : CommandedInside t := by
  obtain ⟨hc, hready, -⟩ := limitsHold_iff.1 h
  have inside : ClaimsHold (fun _ x => x.inside) (fun _ => True) s :=
    ⟨fun c x hx => ⟨hc.1 c x hx, hs c x hx⟩, fun _ _ => trivial⟩
  have after : ClaimsHold (fun _ x => x.inside) (fun _ => True) t := by
    by_cases hi : i = .commitRecords
    · subst hi; exact inside_commitRecords inside hr hu
    · exact inside_rule.exec hi (fun _ _ _ _ _ _ _ _ _ _ _ => ⟨fun _ _ _ h => h, fun _ _ => trivial⟩) inside hready hu
  exact fun c x hx => (after.1 c x hx).2

/-- Settles O5: the operations on channel records keep the limits, and a commit record the commanded value where its
target lies in them. -/
theorem stepKeepsChannelLimits : Obligations.StepKeepsChannelLimits := by
  refine ⟨fun s t h hu => ?_, fun s t h hs hr hu => ?_⟩
  all_goals
    unfold step at hu
    split at hu
  · cases hu; exact h
  · next i rest _ => exact LimitsHold.exec (s := s.withPending rest) h hu
  · cases hu; exact hs
  · next i rest _ => exact CommandedInside.exec (s := s.withPending rest) h hs hr hu

end Sys2Proof.Machine
end


section
/-! PROOFS. Every command keeps the clock, the tables, the module bus's counts and the Capture List within their bounds (R11,
R24, R40, R59, R78, R87, R134, R160). -/

namespace Sys2Proof.Machine

/-! ### The clock -/

theorem capTime_le (t : Nat) : capTime t ≤ Config.maxTime := Nat.min_le_right _ _

theorem ClockBounded.of_eq {s t : State} (h : ClockBounded s) (e : t.clock = s.clock) : ClockBounded t := by
  unfold ClockBounded at *
  rwa [e]

theorem ClockBounded.tick {s : State} (h : ClockBounded s) : ClockBounded (tick s) := ⟨capTime_le _, h.2⟩

theorem clockBounded_afterReset {p : Pins} {s t : State} (e : t.clock = (afterReset p s).clock) : ClockBounded t := by
  refine ClockBounded.of_eq (s := afterReset p s) ⟨?_, ?_⟩ e
  · exact Nat.zero_le _
  · simp [afterReset, State.reset]

theorem ClockBounded.exec {i : Instr} {s t : State} (h : ClockBounded s) (hu : exec i s = .next t) : ClockBounded t := by
  have served {v : Server} {g : Header} {r : Request} {body : SessionIx → State → State}
      (hbody : ∀ n u, ClockBounded u → ClockBounded (body n u)) (hu : serve v g r body s = .next t) : ClockBounded t :=
    serve_induction (fun u hb => h.of_eq (hb.only .clock (by simp)))
      (fun u x hu => hu.of_eq ((only_refuse (ps := everyPartBut .clock) g (by simp) r x).2 (.refl _ u) .clock (by simp)))
      hbody hu
  have answered {u v : State} (g : Header) (r : Request) (a : Answer) (hv : ClockBounded v) (e : u = answer g r a v) :
      ClockBounded u := by
    subst e
    exact hv.of_eq ((only_answer (ps := everyPartBut .clock) g (by simp) r a).2 (.refl _ v) .clock (by simp))
  have unpowered (p : Pins) : ClockBounded (resetUnpowered p s) :=
    clockBounded_afterReset ((show OnlyChanges (everyPartBut .clock) (afterReset p s) (resetUnpowered p s) by
      simp [resetUnpowered]) .clock (by simp))
  have held (p : Pins) : ClockBounded (resetHeld p s) :=
    clockBounded_afterReset ((show OnlyChanges (everyPartBut .clock) (afterReset p s) (resetHeld p s) by
      simp only [resetHeld]
      rw [only_foldl _ _ fun u k => only_queueDescribe (by simp) k]
      simp [keepPowered]) .clock (by simp))
  cases i
  case powerOnReset p | lineReset p => cases hu; exact unpowered p
  case heldReset p => cases hu; exact held p
  case resetPerformed p =>
    cases hu
    repeat' split
    · exact held p
    · exact unpowered p
    all_goals exact h
  case deviceConfig g m =>
    refine served (fun n u hu => answered g _ _ (v := u.withClock { u.clock with lateMargin := m.toNat }) ?_ rfl) hu
    refine ⟨hu.1, ?_⟩
    have := m.isLt
    simp only [State.withClock_clock]
    omega
  case timeSet g x =>
    refine served (fun n u hu => ?_) hu
    simp only [timeSetBody]
    split
    · exact answered g _ _ hu rfl
    · refine answered g _ _ (v := setTime x.toNat u) ⟨?_, hu.2⟩ rfl
      have := x.isLt
      simp only [setTime, State.withClock_clock, Config.maxTime]
      omega
  all_goals
    refine h.of_eq (exec_changes (ps := everyPartBut .clock) (fun p hp => ?_) (fun _ => by simp) hu .clock (by simp))
    simp only [touches, List.mem_cons, List.not_mem_nil, or_false] at hp
    rw [mem_everyPartBut]
    rintro rfl
    simp at hp

/-! ### The module bus's counts -/

/-- Nothing but a failed attempt changes the counts of the module bus (R134, R137). -/
def SameCounts (s t : State) : Prop := t.bus.retries = s.bus.retries ∧ t.bus.failures = s.bus.failures

section
variable {s t u : State}

theorem SameCounts.refl (s : State) : SameCounts s s := ⟨rfl, rfl⟩

theorem SameCounts.trans (h : SameCounts s t) (h' : SameCounts t u) : SameCounts s u :=
  ⟨h'.1.trans h.1, h'.2.trans h.2⟩

theorem SameCounts.of_only (h : OnlyChanges (everyPartBut .bus) s t) : SameCounts s t := by
  have e : t.bus = s.bus := h .bus (by simp)
  exact ⟨by rw [e], by rw [e]⟩

theorem BusBounded.of_same (h : BusBounded s) (e : SameCounts s t) : BusBounded t := by
  unfold BusBounded at *
  rwa [e.1, e.2]

theorem sameCounts_enqueue (x : Txn) : SameCounts s (s.withBus (s.bus.enqueue x)) := by
  cases x
  case readback k p is => cases p <;> exact ⟨rfl, rfl⟩
  all_goals exact ⟨rfl, rfl⟩

theorem sameCounts_serveCommit (s : State) : SameCounts s (serveCommit s) := by
  unfold serveCommit
  split
  · next c _ =>
    have strobed : SameCounts s (post (.commitAnswer (.strobe s.clock.rig (s.bus.safeQ.contains .safeAll)))
        ((strobeModules s).withBus { s.bus with commit := none })) := ⟨rfl, rfl⟩
    simp only [issueStrobe]
    split
    · exact strobed
    · exact strobed
  · exact .refl s

theorem sameCounts_popRequest {b c : Bus} {x : Txn} (h : popRequest b = some (x, c)) :
    c.retries = b.retries ∧ c.failures = b.failures := by
  unfold popRequest at h
  split at h <;> cases h <;> exact ⟨rfl, rfl⟩

theorem sameCounts_transactionReaches (x : Txn) (n : Nat) (s : State) : SameCounts s (transactionReaches x n s) :=
  .of_only (by simp)

theorem sameCounts_modulesCarryOut (n : Nat) (f : SlotIx → Module → Module) (s : State) :
    SameCounts s (modulesCarryOut n f s) := .of_only (by simp)

theorem sameCounts_beginAttempt (x : Txn) (n : Nat) (s : State) : SameCounts s (beginAttempt x n s) := by
  refine .trans ?_ (sameCounts_transactionReaches x _ _)
  exact ⟨rfl, rfl⟩

theorem sameCounts_startTransaction (x : Txn) (s : State) : SameCounts s (startTransaction x s) := by
  have marked : SameCounts s (markInProgress x (beginAttempt x 1 s)) :=
    (sameCounts_beginAttempt x 1 s).trans (.of_only (by simp))
  simp only [startTransaction]
  split
  · refine marked.trans ?_
    simp only [grantSafeAll]
    split <;> exact ⟨rfl, rfl⟩
  · exact marked

theorem sameCounts_grantBus (s : State) : SameCounts s (grantBus s) := by
  simp only [grantBus]
  split
  · exact .refl s
  · split
    · next x b h =>
      refine (sameCounts_serveCommit s).trans (SameCounts.trans (t := (serveCommit s).withBus b) ?_
        (sameCounts_startTransaction x _))
      exact sameCounts_popRequest h
    · exact sameCounts_serveCommit s

theorem sameCounts_takeBusRequest (x : Txn) (s : State) : SameCounts s (takeBusRequest x s) := by
  have either (lost : Bool) : SameCounts s
      (if lost then postAll (slotLostNotices x) s else grantBus (s.withBus (s.bus.enqueue x))) := by
    cases lost
    · exact (sameCounts_enqueue x).trans (sameCounts_grantBus _)
    · exact ⟨rfl, rfl⟩
  exact either _

theorem sameCounts_takeCommitRequest (c : CommitReq) (s : State) : SameCounts s (takeCommitRequest c s) := by
  unfold takeCommitRequest
  split
  · exact SameCounts.trans (t := s.withBus { s.bus with commit := some c }) ⟨rfl, rfl⟩ (sameCounts_grantBus _)
  · exact ⟨rfl, rfl⟩

theorem sameCounts_takeWithdrawal (w : Withdrawn) (s : State) : SameCounts s (takeWithdrawal w s) := by
  unfold takeWithdrawal
  repeat' split
  all_goals exact ⟨rfl, rfl⟩

theorem sameCounts_takeLeftPowered (k : SlotIx) (s : State) : SameCounts s (takeLeftPowered k s) := by
  unfold takeLeftPowered withdrawNaming
  repeat' split
  all_goals exact ⟨rfl, rfl⟩

theorem sameCounts_endTransaction (s : State) : SameCounts s (endTransaction s) :=
  SameCounts.trans (t := s.withBus { s.bus with current := none }) ⟨rfl, rfl⟩ (sameCounts_grantBus _)

theorem sameCounts_giveSafeValues (s : State) : SameCounts s (giveSafeValues s) := by
  unfold giveSafeValues
  split
  · split
    · refine .trans ?_ (sameCounts_modulesCarryOut _ _ _)
      exact ⟨rfl, rfl⟩
    · exact .refl s
  · exact .refl s

/-- R134, R137: a failed attempt adds one to a count that is held at 65535. -/
theorem BusBounded.noReply (h : BusBounded s) (p : InProgress) (k : SlotIx) : BusBounded (noReply p k s) := by
  have one {x : Table Nat 4} (hx : ∀ j, x.get j ≤ Config.heldCount) (j : SlotIx) :
      (x.update k bump).get j ≤ Config.heldCount := by
    rw [Table.get_update]
    split
    · exact bump_le _
    · exact hx j
  unfold Machine.noReply
  split
  · exact BusBounded.of_same (s := s.withBus { s.bus with retries := s.bus.retries.update k bump })
      (fun j => ⟨one (fun j => (h j).1) j, (h j).2⟩) (sameCounts_beginAttempt _ _ _)
  · refine BusBounded.of_same (s := s.withBus { s.bus with failures := s.bus.failures.update k bump })
      (fun j => ⟨(h j).1, one (fun j => (h j).2) j⟩) ?_
    exact SameCounts.trans (.of_only (by simp)) (sameCounts_endTransaction _)

theorem busBounded_afterReset {p : Pins} (e : SameCounts (afterReset p s) t) : BusBounded t := by
  refine BusBounded.of_same (s := afterReset p s) (fun k => ?_) e
  simp [afterReset, Bus.reset]

theorem BusBounded.exec {i : Instr} (h : BusBounded s) (hu : exec i s = .next t) : BusBounded t := by
  have noticed {lane : Lane} {f : Notice → State → Option State} (hf : ∀ n u v, f n u = some v → SameCounts u v)
      (hu : (Host.Outcome.next (onNotice lane f s) : Host.Outcome State Fault Refusal) = .next t) : BusBounded t := by
    cases hu
    exact onNotice_induction h fun n v _ hv => BusBounded.of_same (s := dropNotice lane s) h (hf _ _ _ hv)
  have safeAll (p : Pins) (u : State) : SameCounts u (queueResetSafeAll p u) := by
    unfold queueResetSafeAll
    split
    · exact sameCounts_enqueue _
    · exact .refl u
  have unpowered (p : Pins) : BusBounded (resetUnpowered p s) :=
    busBounded_afterReset ((safeAll p _).trans (sameCounts_grantBus _))
  have held (p : Pins) : BusBounded (resetHeld p s) := by
    have describes (ks : List SlotIx) : ∀ u, SameCounts u (ks.foldl queueDescribe u) := by
      induction ks with
      | nil => exact fun u => .refl u
      | cons k ks ih => exact fun u => (sameCounts_enqueue _).trans (ih _)
    have kept : SameCounts (afterReset p s) (keepPowered p s (afterReset p s)) := ⟨rfl, rfl⟩
    exact busBounded_afterReset (((kept.trans (sameCounts_beginAttempt .abandon 1 _)).trans (safeAll p _)).trans
      (describes _ _))
  cases i
  case powerOnReset p | lineReset p => cases hu; exact unpowered p
  case heldReset p => cases hu; exact held p
  case resetPerformed p =>
    cases hu
    repeat' split
    · exact held p
    · exact unpowered p
    all_goals exact h
  case busRequest =>
    refine noticed (fun n u v hv => ?_) hu
    repeat' split at hv
    all_goals cases hv
    exact sameCounts_takeBusRequest _ u
  case commitRequest =>
    refine noticed (fun n u v hv => ?_) hu
    split at hv <;> cases hv
    exact sameCounts_takeCommitRequest _ u
  case withdrawal =>
    refine noticed (fun n u v hv => ?_) hu
    split at hv <;> cases hv
    exact sameCounts_takeWithdrawal _ u
  case slotPoweredNotice =>
    refine noticed (fun n u v hv => ?_) hu
    split at hv <;> cases hv
    exact ⟨rfl, rfl⟩
  case leftPoweredNotice =>
    refine noticed (fun n u v hv => ?_) hu
    split at hv <;> cases hv
    exact sameCounts_takeLeftPowered _ u
  case haltEntryBusController =>
    refine noticed (fun n u v hv => ?_) hu
    cases hv
    exact (sameCounts_enqueue .safeAll).trans (sameCounts_grantBus _)
  case safeAllValues =>
    refine noticed (fun n u v hv => ?_) hu
    cases hv
    exact (sameCounts_giveSafeValues u).trans (.of_only (by simp))
  case moduleReply =>
    cases hu
    repeat' split
    · unfold takeReply
      split
      · exact h.of_same (SameCounts.trans (.of_only (by simp)) (sameCounts_endTransaction _))
      · exact h.noReply _ _
    all_goals exact h
  case replyTimeout =>
    cases hu
    repeat' split
    · exact h.noReply _ _
    all_goals exact h
  case broadcastEnd =>
    cases hu
    repeat' split
    · exact h.of_same (sameCounts_endTransaction s)
    · exact h.of_same (sameCounts_endTransaction s)
    all_goals exact h
  all_goals
    refine h.of_same (.of_only (exec_changes (fun p hp => ?_) (fun _ => by simp) hu))
    simp only [touches, List.mem_cons, List.not_mem_nil, or_false] at hp
    rw [mem_everyPartBut]
    rintro rfl
    simp at hp

end

end Sys2Proof.Machine
end


section
/-! PROOFS. Every command keeps the Schedule, the open sets, the member lists, the Claim Wait List and the Capture List within
their bounds (R11, R24, R40, R78, R87). -/

namespace Sys2Proof.Machine

/-! ### Sealed sets, open sets and member lists -/

/-- R24, R40, R87: the Schedule, the open sets and the members of a cycle. -/
def SetsBounded (s : State) : Prop :=
  s.sets.length ≤ Config.maxSets ∧ (∀ n, openLen s n ≤ 32) ∧ ∀ n, (s.membersOf n).length ≤ 16

section
variable {s t : State}

theorem SetsBounded.of_le (h : SetsBounded s) (hs : t.sets.length ≤ s.sets.length) (ho : ∀ n, openLen t n ≤ openLen s n)
    (hc : ∀ n, (t.membersOf n).length ≤ (s.membersOf n).length) : SetsBounded t :=
  ⟨hs.trans h.1, fun n => (ho n).trans (h.2.1 n), fun n => (hc n).trans (h.2.2 n)⟩

/-- A change of the Schedule alone. -/
theorem SetsBounded.sets (h : SetsBounded s) (hs : t.sets.length ≤ s.sets.length) (ho : t.assembler = s.assembler)
    (hc : t.cycles = s.cycles) : SetsBounded t :=
  h.of_le hs (fun n => by unfold openLen State.openSet; rw [ho]) (fun n => by unfold State.membersOf State.cycle; rw [hc])

/-- One session's open set is replaced. -/
theorem SetsBounded.withOpenSet (h : SetsBounded s) (n : SessionIx) {o : Option OpenSet}
    (hl : (o.map fun o => o.items.length).getD 0 ≤ 32) : SetsBounded (s.withOpenSet n o) := by
  obtain ⟨h1, h2, h3⟩ := h
  refine ⟨h1, fun m => ?_, h3⟩
  have openSet := State.openSet_withOpenSet s n m o
  unfold openLen
  rw [openSet]
  split
  · exact hl
  · exact h2 m

/-- One session's cycle is replaced. -/
theorem SetsBounded.withCycle (h : SetsBounded s) (n : SessionIx) {c : Option Cycle}
    (hl : ((c.map (·.members)).getD []).length ≤ 16) : SetsBounded (s.withCycle n c) := by
  obtain ⟨h1, h2, h3⟩ := h
  refine ⟨h1, h2, fun m => ?_⟩
  unfold State.membersOf
  rw [State.cycle_withCycle]
  split
  · exact hl
  · exact h3 m

theorem SetsBounded.changeInUse (h : SetsBounded s) (n : SessionIx) (f : Nat → Nat) : SetsBounded (changeInUse n f s) := by
  unfold Machine.changeInUse
  split
  · exact h
  · exact h

theorem setsBounded_keptByMoves : KeptByMoves False SetsBounded where
  ids h := h.elim
  posted _ _ h := h
  cycle {s} n c hc h := by
    refine h.withCycle n ?_
    cases c with
    | none => exact Nat.zero_le _
    | some k => exact (hc k rfl).length_le.trans (h.2.2 n)
  armed _ _ h := h
  engine _ h := h
  relabelled f _ h := h.sets (by simp [State.sets, State.withSets]) rfl rfl
  left _ h := h.sets (by rw [sets_removeSet]; exact List.length_filter_le _ _) rfl rfl
  due v _ h := h.sets (by simp [makeDue, joinReady, State.sets, State.withReady, changeSet, State.withSets]) rfl rfl
  pending v _ h := h.sets (by simp [sets_changeSet]) rfl rfl
  dueAgain v _ h := h.sets (by simp [makeDue, joinReady, State.sets, State.withReady, changeSet, State.withSets]) rfl rfl
  pendingAgain v _ h := h.sets (by simp [State.sets, State.withReady, changeSet, State.withSets]) rfl rfl
  parked _ _ h := h.sets (by simp [sets_changeSet]) rfl rfl
  headGone _ _ h := h
  headLeft {s x rest} _ _ h := h.sets (by rw [sets_removeSet]; exact List.length_filter_le _ _) rfl rfl
  headParked _ _ h := h.sets (by simp [State.sets, State.withReady, changeSet, State.withSets]) rfl rfl
  headTaken _ _ _ h := h.sets (by simp [State.sets, State.withReady, changeSet, State.withSets]) rfl rfl

theorem setsBounded_keptByCommands : KeptByCommands False SetsBounded where
  toKeptByMoves := setsBounded_keptByMoves
  quiet ho _ _ h := h.sets (by unfold State.sets; rw [show _ = _ from ho .schedule (by simp)])
    (ho .assembler (by simp)) (ho .cycles (by simp))
  opened {s n} l role x _ h := by
    have hc : SetsBounded (s.withCycle n none) := h.withCycle n (Nat.zero_le _)
    cases l <;> exact hc
  closed _ _ h := h
  setOpened _ he h := h.withOpenSet _ (by simp [he])
  spoiled {s n o} c ho h := h.withOpenSet _ (by simpa [openLen, ho] using h.2.1 n)
  taken {s n o r} is _ _ hl _ _ h := by
    have held : SetsBounded (s.withOpenSet n (some { o with items := o.items ++ is })) := h.withOpenSet n (by simpa using hl)
    exact SetsBounded.changeInUse (s := changePool (· - is.length) (s.withOpenSet n _)) held _ _
  discarded {s n o} _ h := by
    have emptied : SetsBounded (s.withOpenSet n none) := h.withOpenSet n (Nat.zero_le _)
    exact SetsBounded.changeInUse (s := changePool (· + o.items.length) (s.withOpenSet n none)) emptied _ _
  returned {s n k} _ h := SetsBounded.changeInUse (s := changePool (· + k) (dropNotice (.itemsReturn n) s)) h _ _
  sealed {s n o} ho hl h := by
    obtain ⟨h1, h2, h3⟩ := h.withOpenSet n (o := none) (Nat.zero_le _)
    refine ⟨?_, h2, h3⟩
    simp only [sealedIn, State.sets, State.withOpenSet, State.withAssembler_schedule, State.withSchedule_schedule,
      List.length_append, List.length_singleton, Config.maxSets]
    simp only [State.sets] at hl
    omega
  joined id hc hl h := h.withCycle _ (by simpa using hl)
  reset := by unfold SetsBounded; decide

theorem SetsBounded.exec {i : Instr} (h : SetsBounded s) (hu : exec i s = .next t) : SetsBounded t :=
  setsBounded_keptByCommands.exec (fun _ x _ u _ _ hu =>
    hu.sets (t := setTime x.toNat u) (by rw [setTime_sets, List.length_map]) rfl rfl) h hu

/-! ### The Claim Wait List -/

/-- The sessions whose entries wait, from the oldest entry to the newest. -/
def waitingSessions (s : State) : List SessionIx := s.claims.waits.map (·.session)

/-- R11: 8 entries, and 2 of a session. -/
def WaitsBounded (s : State) : Prop :=
  s.claims.waits.length ≤ Config.maxWaits ∧ ∀ n, (s.claims.waits.filter fun e => e.session = n).length ≤ 2

theorem waitsBounded_iff : WaitsBounded s ↔
    (waitingSessions s).length ≤ Config.maxWaits ∧ ∀ n, (waitingSessions s).count n ≤ 2 := by
  have counted (n : SessionIx) : (waitingSessions s).count n = (s.claims.waits.filter fun e => e.session = n).length := by
    rw [waitingSessions, List.count, List.countP_map, List.countP_eq_length_filter]
    rfl
  simp only [WaitsBounded, counted]
  rw [waitingSessions, List.length_map]

/-- No entry joins the Claim Wait List. -/
def WaitsShrink (s t : State) : Prop := (waitingSessions t).Sublist (waitingSessions s)

theorem WaitsBounded.shrink (h : WaitsBounded s) (hs : WaitsShrink s t) : WaitsBounded t := by
  rw [waitsBounded_iff] at *
  exact ⟨hs.length_le.trans h.1, fun n => (hs.count_le n).trans (h.2 n)⟩

namespace WaitsShrink

theorem refl (s : State) : WaitsShrink s s := List.Sublist.refl _

theorem trans {u : State} (h : WaitsShrink s t) (h' : WaitsShrink t u) : WaitsShrink s u := List.Sublist.trans h' h

theorem of_waits (e : t.claims.waits = s.claims.waits) : WaitsShrink s t := by
  unfold WaitsShrink waitingSessions
  rw [e]

theorem of_only (h : OnlyChanges (everyPartBut .claims) s t) : WaitsShrink s t :=
  of_waits (congrArg Claims.waits (h .claims (by simp)))

theorem withWaits {w : List WaitEntry} (h : w.Sublist s.claims.waits) : WaitsShrink s (s.withWaits w) := h.map _

end WaitsShrink

theorem waitsShrink_answer (h : Header) (r : Request) (a : Answer) (s : State) : WaitsShrink s (answer h r a s) :=
  .of_only (by simp)

theorem waitsShrink_post (n : Notice) (s : State) : WaitsShrink s (post n s) := .refl s

theorem waitsShrink_claimResult (e : WaitEntry) (o : ClaimOutcome) (c : Option ChanIx) (s : State) :
    WaitsShrink s (claimResult e o c s) := .of_only (by simp)

theorem waitsShrink_grantPass (s : State) : WaitsShrink s (grantPass s) := by
  have entry (u : State) (e : WaitEntry) : WaitsShrink u (grantEntry u e) := by
    unfold grantEntry
    split
    · refine .trans ?_ (waitsShrink_claimResult _ _ _ _)
      exact .trans (.withWaits List.erase_sublist) (.of_waits rfl)
    · exact .refl u
  have pass (es : List WaitEntry) : ∀ u, WaitsShrink u (es.foldl grantEntry u) := by
    induction es with
    | nil => exact .refl
    | cons e es ih => exact fun u => (entry u e).trans (ih _)
  exact pass _ s

theorem waitsShrink_freeChannels (f d : ChanIx → Bool) (s : State) : WaitsShrink s (freeChannels f d s) :=
  .trans (t := queueDriveSafe d s) (.of_only (by simp)) (.of_waits rfl)

theorem waitsShrink_makeAbsent (k : SlotIx) (s : State) : WaitsShrink s (makeAbsent k s) := by
  have drop (lost : List ChanIx) (es : List WaitEntry) : ∀ u, WaitsShrink u (es.foldl (fun t e =>
      match allChannels.find? fun c => lost.contains c && inRange e.first e.last c with
      | some c => claimResult e .absent (some c) (t.withWaits (t.claims.waits.erase e))
      | none => t) u) := by
    induction es with
    | nil => exact .refl
    | cons e es ih =>
      intro u
      refine .trans ?_ (ih _)
      dsimp only
      split
      · refine .trans ?_ (waitsShrink_claimResult _ _ _ _)
        exact .withWaits List.erase_sublist
      · exact .refl u
  have dropped (lost : List ChanIx) (u : State) : WaitsShrink u (dropAbsentWaits lost u) := drop lost _ u
  have absent : WaitsShrink s (changeChannels (fun c x => if slotOfChan c = k then none else some x) s) := .of_waits rfl
  simp only [makeAbsent]
  split
  · exact absent.trans (dropped _ _)
  · exact (absent.trans (dropped _ _)).trans (.of_waits rfl)

theorem waitsShrink_disableSlot (k : SlotIx) (s : State) : WaitsShrink s (disableSlot k s) := by
  have drained (f : Nat) : ∀ u, WaitsShrink u (drainClaims f k u) := by
    induction f with
    | zero => exact .refl
    | succ f ih =>
      intro u
      have head : WaitsShrink u (dropNotice (.slotToClaim k) u) := .of_waits rfl
      simp only [drainClaims]
      split
      · next j d held _ =>
        have present : WaitsShrink (dropNotice (.slotToClaim k) u) (makePresent j d held (dropNotice (.slotToClaim k) u)) :=
          .of_waits rfl
        exact ((head.trans present).trans (waitsShrink_grantPass _)).trans (ih _)
      · exact (head.trans (waitsShrink_makeAbsent _ _)).trans (ih _)
      · exact .refl u
  have moved : WaitsShrink s (moveTo k (s.slot k).toDisabled s) := .of_only (by simp)
  simp only [disableSlot]
  split
  · exact moved.trans (drained _ _)
  · exact moved

theorem waitsShrink_setTime (x : Nat) (s : State) : WaitsShrink s (setTime x s) := by
  have claims : (setTime x s).claims = (shiftClaims (x - s.clock.rig) s).claims := by
    simp [setTime, shiftSessions, shiftTrigger, shiftEngine, shiftSets, State.withSets]
  unfold WaitsShrink waitingSessions
  rw [claims, shiftClaims, State.withClaims_claims, List.map_map]
  exact List.Sublist.refl _

theorem waitsShrink_takeCapture (e : CaptureEntry) (s : State) : WaitsShrink s (takeCapture e s) := by
  have recorded (i : CaptureItem) (v : Int) (u : State) : WaitsShrink u (recordReading e i v u) := by
    have change (f : Channel → Channel) (u : State) : WaitsShrink u (changeChannel i.channel f u) := .of_waits (by simp)
    simp only [recordReading]
    repeat' split
    · exact .refl u
    · exact ((change _ u).trans (change _ _)).trans (.of_waits rfl)
    · exact change _ u
  have item (acc : State × List CapturedItem) (i : CaptureItem) : WaitsShrink acc.1 (takeItem e acc i).1 := by
    have either (p : Prop) [Decidable p] (v : Int) : WaitsShrink acc.1 (if p then recordReading e i v acc.1 else acc.1) := by
      split
      · exact recorded i v acc.1
      · exact .refl _
    exact either _ _
  have items (is : List CaptureItem) : ∀ acc : State × List CapturedItem, WaitsShrink acc.1 (is.foldl (takeItem e) acc).1 := by
    induction is with
    | nil => exact fun acc => .refl _
    | cons i is ih => exact fun acc => (item acc i).trans (ih _)
  simp only [takeCapture]
  exact (items e.items (s, [])).trans (.of_only (by simp))

/-- R11: a CLAIM appends its entry only with fewer than 8 there and fewer than 2 of its session. -/
theorem WaitsBounded.claimBody (h : WaitsBounded s) (g : Header) (a b p : Byte) (w : Half) (n : SessionIx) :
    WaitsBounded (claimBody g a b p w n s) := by
  have granted (x y : ChanIx) (q : LossPolicy) : WaitsShrink s (grantRange n x y q s) := .of_waits rfl
  simp only [Machine.claimBody]
  repeat' split
  case h_1.isFalse.isFalse.isTrue.isTrue =>
    exact h.shrink (((granted _ _ _).trans (waitsShrink_answer _ _ _ _)).trans (waitsShrink_grantPass _))
  case h_1.isFalse.isFalse.isTrue.isFalse => exact h.shrink ((granted _ _ _).trans (waitsShrink_answer _ _ _ _))
  case h_1.isFalse.isFalse.isFalse.isFalse.isFalse hroom =>
    refine WaitsBounded.shrink ?_ (waitsShrink_answer _ _ _ _)
    simp only [Bool.or_eq_true, decide_eq_true_eq, not_or, not_le] at hroom
    obtain ⟨h1, h2⟩ := hroom
    refine ⟨?_, fun m => ?_⟩
    · simp only [State.withWaits, State.withClaims_claims, List.length_append, List.length_singleton, Config.maxWaits]
      omega
    · simp only [State.withWaits, State.withClaims_claims, List.filter_append, List.length_append]
      by_cases hm : n = m
      · subst hm
        simp only [decide_true, List.filter_cons_of_pos, List.filter_nil, List.length_singleton]
        omega
      · simpa [List.filter_singleton, hm] using h.2 m
  all_goals exact h.shrink (waitsShrink_answer _ _ _ _)

theorem WaitsBounded.exec {i : Instr} (h : WaitsBounded s) (hu : exec i s = .next t) : WaitsBounded t := by
  have served {v : Server} {g : Header} {r : Request} {body : SessionIx → State → State}
      (hbody : ∀ n u, WaitsBounded u → WaitsBounded (body n u)) (hu : serve v g r body s = .next t) : WaitsBounded t :=
    serve_induction (fun u hb => h.shrink (.of_waits (congrArg Claims.waits (hb.only .claims (by simp)))))
      (fun u x hu => hu.shrink (waitsShrink_answer _ _ _ _)) hbody hu
  have noticed {lane : Lane} {f : Notice → State → Option State} (hf : ∀ n u v, f n u = some v → WaitsShrink u v)
      (hu : (Host.Outcome.next (onNotice lane f s) : Host.Outcome State Fault Refusal) = .next t) : WaitsBounded t := by
    cases hu
    exact onNotice_induction h fun n v _ hv => WaitsBounded.shrink (s := dropNotice lane s) h (hf _ _ _ hv)
  have reset (p : Pins) : WaitsBounded (afterReset p s) := by
    rw [waitsBounded_iff]
    simp [waitingSessions, afterReset, State.reset]
  have unpowered (p : Pins) : WaitsBounded (resetUnpowered p s) := (reset p).shrink (.of_only (by simp [resetUnpowered]))
  have held (p : Pins) : WaitsBounded (resetHeld p s) := by
    refine (reset p).shrink (.of_only ?_)
    simp only [resetHeld]
    rw [only_foldl _ _ fun u k => only_queueDescribe (by simp) k]
    simp [keepPowered]
  cases i
  case powerOnReset p | lineReset p => cases hu; exact unpowered p
  case heldReset p => cases hu; exact held p
  case resetPerformed p =>
    cases hu
    repeat' split
    · exact held p
    · exact unpowered p
    all_goals exact h
  case timeSet =>
    refine served (fun n u hu => ?_) hu
    simp only [timeSetBody]
    split
    · exact hu.shrink (waitsShrink_answer _ _ _ _)
    · exact hu.shrink ((waitsShrink_setTime _ u).trans (waitsShrink_answer _ _ _ _))
  case claim => exact served (fun n u hu => hu.claimBody _ _ _ _ _ n) hu
  case release =>
    refine served (fun n u hu => ?_) hu
    have cancelled (lost : List LostChannel) : WaitsShrink u (cancelLostAll .channelReleased lost u) := .of_only (by simp)
    simp only [releaseBody]
    repeat' split
    case h_2.isFalse.isTrue =>
      exact hu.shrink (((cancelled _).trans (waitsShrink_freeChannels _ _ _)).trans (waitsShrink_answer _ _ _ _))
    case h_2.isFalse.isFalse =>
      exact hu.shrink (((((cancelled _).trans (waitsShrink_freeChannels _ _ _)).trans (waitsShrink_answer _ _ _ _)).trans
        (waitsShrink_post _ _)).trans (waitsShrink_grantPass _))
    all_goals exact hu.shrink (waitsShrink_answer _ _ _ _)
  case channelConfig =>
    refine served (fun n u hu => ?_) hu
    simp only [channelConfigBody]
    repeat' split
    case h_2.isFalse.isFalse.isFalse.isFalse =>
      refine hu.shrink (.trans ?_ (waitsShrink_answer _ _ _ _))
      exact .trans (.of_waits (waits_changeChannel _ _ _)) (.of_only ((only_spoil (by simp) _ _).2 (.refl _ _)))
    all_goals exact hu.shrink (waitsShrink_answer _ _ _ _)
  case slotDisable =>
    refine served (fun n u hu => ?_) hu
    simp only [slotDisableBody]
    repeat' split
    case h_2.isFalse.isFalse => exact hu.shrink ((waitsShrink_disableSlot _ u).trans (waitsShrink_answer _ _ _ _))
    all_goals exact hu.shrink (waitsShrink_answer _ _ _ _)
  case sessionEndWaitEntries =>
    refine noticed (fun n u v hv => ?_) hu
    cases hv
    exact .withWaits List.filter_sublist
  case sessionEndClaimUnit =>
    refine noticed (fun n u v hv => ?_) hu
    cases hv
    refine .trans (.trans (.trans (.withWaits List.filter_sublist) (waitsShrink_freeChannels _ _ _))
      (waitsShrink_grantPass _)) (waitsShrink_post _ _)
  case commitRecords =>
    refine noticed (fun n u v hv => ?_) hu
    split at hv <;> cases hv
    have records (q : Bool) (rs : List CommitRecord) : ∀ w, WaitsShrink w (rs.foldl (takeRecord q) w) := by
      induction rs with
      | nil => exact .refl
      | cons r rs ih => exact fun w => .trans (.of_waits (waits_changeChannel _ _ _)) (ih _)
    exact (records _ _ u).trans (waitsShrink_post _ _)
  case captureItems =>
    refine noticed (fun n u v hv => ?_) hu
    split at hv <;> cases hv
    · exact waitsShrink_takeCapture _ u
    · exact .refl u
  case slotReady =>
    refine noticed (fun n u v hv => ?_) hu
    split at hv <;> cases hv
    next k d held =>
    exact .trans (t := makePresent k d held u) (.of_waits rfl) (waitsShrink_grantPass _)
  case slotLeftReady =>
    refine noticed (fun n u v hv => ?_) hu
    split at hv <;> cases hv
    exact waitsShrink_makeAbsent _ u
  case haltEntryClaimUnit =>
    refine noticed (fun n u v hv => ?_) hu
    split at hv <;> cases hv
    exact .of_waits rfl
  case safeAllValues =>
    refine noticed (fun n u v hv => ?_) hu
    cases hv
    exact .trans (t := giveSafeValues u) (.of_only (by simp)) (.of_waits rfl)
  case rampExpiry =>
    cases hu
    repeat' split
    · exact h.shrink (.of_waits (waits_changeChannel _ _ _))
    all_goals exact h
  case claimWaitDeadline =>
    cases hu
    repeat' split
    · exact h.shrink (.trans (.withWaits (List.eraseIdx_sublist _ _)) (waitsShrink_claimResult _ _ _ _))
    all_goals exact h
  all_goals
    refine h.shrink (.of_only (exec_changes (fun p hp => ?_) (fun _ => by simp) hu))
    simp only [touches, List.mem_cons, List.not_mem_nil, or_false] at hp
    rw [mem_everyPartBut]
    rintro rfl
    simp at hp

end

end Sys2Proof.Machine
end


section
/-! PROOFS. Every command keeps the Capture List within its 16 entries (R78, R79, R84). -/

namespace Sys2Proof.Machine

/-- The Capture List is the same. -/
def SameCaptures (s t : State) : Prop := t.engine.captures = s.engine.captures

namespace SameCaptures

variable {s t u : State}

theorem refl (s : State) : SameCaptures s s := rfl

theorem trans (h : SameCaptures s t) (h' : SameCaptures t u) : SameCaptures s u := Eq.trans h' h

theorem of_only (h : OnlyChanges (everyPartBut .engine) s t) : SameCaptures s t :=
  congrArg Engine.captures (h .engine (by simp))

theorem withWork (s : State) (w : Option Work) : SameCaptures s (s.withWork w) := rfl

theorem ite {p : Prop} [Decidable p] {a b : State} (ha : SameCaptures s a) (hb : SameCaptures s b) :
    SameCaptures s (if p then a else b) := by
  split
  · exact ha
  · exact hb

end SameCaptures

section
variable {s t : State}

/-! ### The working record -/

theorem sameCaptures_post (n : Notice) (s : State) : SameCaptures s (post n s) := rfl

theorem sameCaptures_handOutcome (w : Work) (o : EngineOutcome) (s : State) : SameCaptures s (handOutcome w o s) := rfl

theorem sameCaptures_queueAbandon (w : Work) (s : State) : SameCaptures s (queueAbandon w s) := .of_only (by simp)

theorem sameCaptures_failStaging (w : Work) (c : Cause) (s : State) : SameCaptures s (failStaging w c s) := by
  simp only [failStaging]
  split
  · rfl
  · exact .trans (.trans (sameCaptures_post _ s) (sameCaptures_queueAbandon w _)) (sameCaptures_handOutcome _ _ _)

theorem sameCaptures_withdrawCommit (w : Work) (c : Cause) (s : State) : SameCaptures s (withdrawCommit w c s) := rfl

theorem sameCaptures_answer (h : Header) (r : Request) (a : Answer) (s : State) : SameCaptures s (answer h r a s) :=
  .of_only (by simp)

theorem sameCaptures_queueChecks (s : State) : SameCaptures s (queueChecks s) := .of_only (by simp)

theorem sameCaptures_sessionReport (l : ReportLine) (n : SessionIx) (r : Report) (s : State) :
    SameCaptures s (sessionReport l n r s) := .of_only (by simp)

theorem sameCaptures_beginApplying (x : SealedSet) (s : State) : SameCaptures s (beginApplying x s) := by
  simp only [beginApplying]
  split
  · rfl
  · simp only [beginStaging]
    split
    · rfl
    · refine .trans ?_ (sameCaptures_failStaging _ _ _)
      rfl

theorem sameCaptures_takeHeads (f : Nat) : ∀ s, SameCaptures s (takeHeads f s) := by
  induction f with
  | zero => exact .refl
  | succ f ih =>
    intro s
    unfold takeHeads
    split
    · exact .refl s
    · exact .refl s
    · next g id rest e _ =>
      cases e
      dsimp only
      split
      · exact .trans (t := s.withReady rest) rfl (ih _)
      · next x _ =>
        split
        · exact .trans (t := discardLate x (s.withReady rest)) (.of_only (by simp)) (ih _)
        · exact .trans (t := s.withReady rest) rfl (sameCaptures_beginApplying x _)

theorem sameCaptures_stageAccepted (k : SlotIx) (n : Nat) (s : State) : SameCaptures s (stageAccepted k n s) := by
  unfold stageAccepted
  split
  · exact .refl s
  · split
    · exact sameCaptures_failStaging _ _ s
    · dsimp only
      split
      · rfl
      · rfl

theorem sameCaptures_stageLost (n : Nat) (c : Cause) (s : State) : SameCaptures s (stageLost n c s) := by
  unfold stageLost
  split
  · exact .refl s
  · exact sameCaptures_failStaging _ _ s

theorem sameCaptures_slotLost (k : SlotIx) (n : Nat) (s : State) : SameCaptures s (slotLost k n s) := by
  unfold slotLost
  repeat' split
  all_goals first | rfl | exact sameCaptures_failStaging _ _ s

theorem sameCaptures_haltEngine (s : State) : SameCaptures s (haltEngine s) := by
  unfold haltEngine
  repeat' split
  all_goals first | rfl | exact sameCaptures_failStaging _ _ s

theorem sameCaptures_endSessionEngine (n : SessionIx) (s : State) : SameCaptures s (endSessionEngine n s) := by
  unfold endSessionEngine
  repeat' split
  · rfl
  · rfl
  · exact .trans (.trans (sameCaptures_post _ s) (sameCaptures_queueAbandon _ _)) rfl
  · rfl
  · rfl
  · rfl

theorem sameCaptures_takeWithdrawn (w : Work) (a : CommitAnswer) (s : State) : SameCaptures s (takeWithdrawn w a s) := by
  have abandoned : SameCaptures s (if withdrawnCause w a = .halted then s else queueAbandon w s) :=
    .ite (.refl s) (sameCaptures_queueAbandon w s)
  simp only [takeWithdrawn]
  split
  · exact abandoned.trans rfl
  · exact abandoned.trans rfl

theorem sameCaptures_markInProgress (x : Txn) (s : State) : SameCaptures s (markInProgress x s) := by
  unfold markInProgress
  repeat' split
  all_goals rfl

theorem sameCaptures_grantBus (s : State) : SameCaptures s (grantBus s) := by
  have served : SameCaptures s (serveCommit s) := .of_only (by simp)
  simp only [grantBus]
  split
  · exact .refl s
  · split
    · next x b _ =>
      have begun : SameCaptures s (beginAttempt x 1 ((serveCommit s).withBus b)) :=
        served.trans (.of_only (by simp))
      have marked := begun.trans (sameCaptures_markInProgress x _)
      simp only [startTransaction]
      split
      · exact marked.trans (.of_only (by simp))
      · exact marked
    · exact served

theorem sameCaptures_endTransaction (s : State) : SameCaptures s (endTransaction s) :=
  .trans (t := s.withBus { s.bus with current := none }) rfl (sameCaptures_grantBus _)

theorem sameCaptures_noReply (p : InProgress) (k : SlotIx) (s : State) : SameCaptures s (noReply p k s) := by
  unfold noReply
  split
  · exact .of_only (by simp)
  · exact .trans (.of_only (by simp)) (sameCaptures_endTransaction _)

/-! ### The Capture List -/

/-- R78: 16 entries. -/
def CapturesBounded (s : State) : Prop := s.engine.captures.length ≤ Config.maxCaptures

theorem CapturesBounded.same (h : CapturesBounded s) (e : SameCaptures s t) : CapturesBounded t := by
  unfold CapturesBounded at *
  rwa [e]

theorem CapturesBounded.le (h : CapturesBounded s) (e : t.engine.captures.length ≤ s.engine.captures.length) :
    CapturesBounded t := e.trans h

theorem CapturesBounded.keepEntry (h : CapturesBounded s) (e : CaptureEntry) : CapturesBounded (keepEntry e s) := by
  have changed : CapturesBounded (changeEntry e s) := h.le (by simp [changeEntry, State.withCaptures])
  simp only [Machine.keepEntry]
  split
  · exact changed
  · exact changed

theorem CapturesBounded.makeCapture (h : CapturesBounded s) (e : CaptureEntry) : CapturesBounded (makeCapture e s) := by
  simp only [Machine.makeCapture]
  split
  · exact h.keepEntry _
  · exact CapturesBounded.keepEntry (s := postAll _ s) h _

theorem CapturesBounded.makeSetCapture (h : CapturesBounded s) (w : Work) (c : Nat) :
    CapturesBounded (makeSetCapture w c s) := by
  simp only [Machine.makeSetCapture]
  split
  · exact h.same (.of_only (by simp))
  · next hroom =>
    simp only [CapturesBounded, State.withEngine_engine, List.length_append, List.length_singleton]
    omega

theorem CapturesBounded.exec {i : Instr} (h : CapturesBounded s) (hu : exec i s = .next t) : CapturesBounded t := by
  have served {v : Server} {g : Header} {r : Request} {body : SessionIx → State → State}
      (hbody : ∀ n u, CapturesBounded u → CapturesBounded (body n u)) (hu : serve v g r body s = .next t) :
      CapturesBounded t :=
    serve_induction (fun u hb => h.same (congrArg Engine.captures (hb.only .engine (by simp))))
      (fun u x hu => hu.same (.of_only (by simp))) hbody hu
  have bounded {lane : Lane} {f : Notice → State → Option State}
      (hf : ∀ n u v, CapturesBounded u → f n u = some v → CapturesBounded v)
      (hu : (Host.Outcome.next (onNotice lane f s) : Host.Outcome State Fault Refusal) = .next t) : CapturesBounded t := by
    cases hu
    exact onNotice_induction h fun n v _ hv => hf n (dropNotice lane s) v h hv
  have noticed {lane : Lane} {f : Notice → State → Option State} (hf : ∀ n u v, f n u = some v → SameCaptures u v)
      (hu : (Host.Outcome.next (onNotice lane f s) : Host.Outcome State Fault Refusal) = .next t) : CapturesBounded t :=
    bounded (fun n u v h hv => h.same (hf n u v hv)) hu
  have reset (p : Pins) : CapturesBounded (afterReset p s) := Nat.zero_le _
  have unpowered (p : Pins) : CapturesBounded (resetUnpowered p s) :=
    (reset p).same (.trans (.of_only (by simp)) (sameCaptures_grantBus _))
  have held (p : Pins) : CapturesBounded (resetHeld p s) := by
    refine (reset p).same (.of_only ?_)
    simp only [resetHeld]
    rw [only_foldl _ _ fun u k => only_queueDescribe (by simp) k]
    simp [keepPowered]
  cases i
  case powerOnReset p | lineReset p => cases hu; exact unpowered p
  case heldReset p => cases hu; exact held p
  case resetPerformed p =>
    cases hu
    repeat' split
    · exact held p
    · exact unpowered p
    all_goals exact h
  case timeSet =>
    refine served (fun n u hu => ?_) hu
    simp only [timeSetBody]
    split
    · exact hu.same (.of_only (by simp))
    · refine CapturesBounded.same (hu.le ?_) (sameCaptures_answer _ _ _ _)
      simp [setTime, shiftSessions, shiftTrigger, shiftEngine, shiftSets, shiftClaims, State.withSets]
  case readback =>
    refine served (fun n u hu => ?_) hu
    simp only [readbackBody]
    repeat' split
    · exact hu.same (.of_only (by simp))
    · exact hu.same (.of_only (by simp))
    · next hroom =>
      refine CapturesBounded.same (CapturesBounded.makeCapture ?_ _) (sameCaptures_answer _ _ _ _)
      simp only [CapturesBounded, State.withEngine_engine, List.length_append, List.length_singleton]
      omega
  case take =>
    cases hu
    split
    · exact h.same (.trans (sameCaptures_takeHeads _ s) (sameCaptures_queueChecks _))
    · exact h
  case sessionEndApplyEngine =>
    refine bounded (fun n u v hu hv => ?_) hu
    cases hv
    refine CapturesBounded.same ?_ (sameCaptures_endSessionEngine _ _)
    simp only [dropCaptures]
    split
    · exact hu.le (List.length_filter_le _ _)
    · exact hu.le (List.length_filter_le _ _)
  case stageAcceptance =>
    refine noticed (fun n u v hv => ?_) hu
    split at hv <;> cases hv
    exact sameCaptures_stageAccepted _ _ u
  case stageFailure | stageSlotLost =>
    refine noticed (fun n u v hv => ?_) hu
    split at hv <;> cases hv
    exact sameCaptures_stageLost _ _ u
  case slotLostNotice =>
    refine noticed (fun n u v hv => ?_) hu
    split at hv <;> cases hv
    exact sameCaptures_slotLost _ _ u
  case haltEntryApplyEngine =>
    refine noticed (fun n u v hv => ?_) hu
    cases hv
    exact sameCaptures_haltEngine u
  case strobeAnswer =>
    refine noticed (fun n u v hv => ?_) hu
    repeat' split at hv
    all_goals cases hv
    all_goals rfl
  case withdrawnAnswer =>
    refine noticed (fun n u v hv => ?_) hu
    repeat' split at hv
    all_goals cases hv
    · exact sameCaptures_takeWithdrawn _ _ u
    · rfl
    · rfl
  case commitRecordsTaken =>
    refine bounded (fun n u v hu hv => ?_) hu
    repeat' split at hv
    all_goals cases hv
    · unfold finishRecording
      repeat' split
      · exact hu
      · exact hu
      · exact CapturesBounded.makeSetCapture (s := handOutcome _ _ u) hu _ _
      · exact hu
    · exact hu
    · exact hu
  case captureExpiry =>
    cases hu
    repeat' split
    · exact h.makeCapture _
    all_goals exact h
  case captureReadbackEnd =>
    refine bounded (fun n u v hu hv => ?_) hu
    repeat' split at hv
    all_goals cases hv
    · exact hu.keepEntry _
    · exact hu
  case captureItems =>
    refine bounded (fun n u v hu hv => ?_) hu
    split at hv <;> cases hv
    · next e _ =>
      have items (is : List CaptureItem) : ∀ acc : State × List CapturedItem,
          SameCaptures acc.1 (is.foldl (takeItem e) acc).1 := by
        induction is with
        | nil => exact fun acc => .refl _
        | cons i is ih => exact fun acc => .trans (.of_only ((only_takeItem (by simp) (by simp) e acc i).2 (.refl _ _))) (ih _)
      have taken := hu.same (items e.items (u, []))
      simp only [takeCapture]
      refine CapturesBounded.same (s := State.withEngine _ _) (taken.le ?_) (sameCaptures_sessionReport _ _ _ _)
      exact List.length_filter_le _ _
    · exact hu
  case busRequest =>
    refine noticed (fun n u v hv => ?_) hu
    repeat' split at hv
    all_goals cases hv
    have either (b : Bool) (x : Txn) : SameCaptures u
        (if b then postAll (slotLostNotices x) u else grantBus (u.withBus (u.bus.enqueue x))) := by
      refine .ite rfl ?_
      exact .trans (t := u.withBus _) rfl (sameCaptures_grantBus _)
    exact either _ _
  case commitRequest =>
    refine noticed (fun n u v hv => ?_) hu
    split at hv <;> cases hv
    unfold takeCommitRequest
    refine .ite ?_ rfl
    exact .trans (t := u.withBus _) rfl (sameCaptures_grantBus _)
  case haltEntryBusController =>
    refine noticed (fun n u v hv => ?_) hu
    cases hv
    exact .trans (t := u.withBus _) rfl (sameCaptures_grantBus _)
  case moduleReply =>
    cases hu
    repeat' split
    · unfold takeReply
      split
      · exact h.same (.trans (.of_only (by simp)) (sameCaptures_endTransaction _))
      · exact h.same (sameCaptures_noReply _ _ s)
    all_goals exact h
  case replyTimeout =>
    cases hu
    repeat' split
    · exact h.same (sameCaptures_noReply _ _ s)
    all_goals exact h
  case broadcastEnd =>
    cases hu
    repeat' split
    · exact h.same (sameCaptures_endTransaction s)
    · exact h.same (sameCaptures_endTransaction s)
    all_goals exact h
  all_goals
    refine h.same (.of_only (exec_changes (fun p hp => ?_) (fun _ => by simp) hu))
    simp only [touches, List.mem_cons, List.not_mem_nil, or_false] at hp
    rw [mem_everyPartBut]
    rintro rfl
    simp at hp

end

end Sys2Proof.Machine
end


section
/-! PROOFS. A session whose teardown has begun has told the Report Unit of its end, or is still to tell it (R155, R182). -/

namespace Sys2Proof.Machine

/-! ### Teardowns begun -/

/-- No teardown begins. -/
def NoTeardown (s t : State) : Prop :=
  ∀ n k, t.session n = some k → k.ending ≠ none → ∃ r, s.session n = some r ∧ r.ending ≠ none

section
variable {s t u : State}

namespace NoTeardown

theorem of_session (h : ∀ n, t.session n = s.session n) : NoTeardown s t := fun n k hk he => ⟨k, h n ▸ hk, he⟩

theorem refl (s : State) : NoTeardown s s := of_session fun _ => rfl

theorem of_eq (h : t.sessions = s.sessions) : NoTeardown s t := of_session fun n => by simp only [State.session, h]

theorem of_only (h : OnlyChanges (everyPartBut .sessions) s t) : NoTeardown s t := of_eq (h .sessions (by simp))

theorem trans (h : NoTeardown s t) (h' : NoTeardown t u) : NoTeardown s u := fun n k hk he => by
  obtain ⟨r, hr, her⟩ := h' n k hk he
  exact h n r hr her

theorem withSession {n : SessionIx} {r k : Session} (hr : s.session n = some r) (he : k.ending ≠ none → r.ending ≠ none) :
    NoTeardown s (s.withSession n (some k)) := by
  intro m j hj hje
  rw [State.session_withSession] at hj
  split at hj
  · next e => subst e; cases hj; exact ⟨r, hr, he hje⟩
  · exact ⟨j, hj, hje⟩

end NoTeardown

theorem noTeardown_answer (h : Header) (r : Request) (a : Answer) (s : State) : NoTeardown s (answer h r a s) :=
  .of_only (by simp)

theorem noTeardown_refreshLease (l : LinkId) (b : Byte) (s : State) : NoTeardown s (refreshLease l b s) := by
  obtain h | ⟨n, r, -, hr, -, he, h⟩ := refreshLease_cases l b s
  · rw [h]; exact .refl s
  · rw [h]; exact .withSession hr id

theorem noTeardown_changeInUse (n : SessionIx) (f : Nat → Nat) (s : State) : NoTeardown s (changeInUse n f s) := by
  unfold changeInUse
  split
  · next r hr => exact .withSession hr id
  · exact .refl s

theorem noTeardown_takeItems (n : SessionIx) (o : OpenSet) (is : List Item) (s : State) : NoTeardown s (takeItems n o is s) :=
  .trans (.of_eq rfl) (noTeardown_changeInUse n _ (changePool (· - is.length) (s.withOpenSet n _)))

theorem noTeardown_discardOpenSet (n : SessionIx) (o : OpenSet) (s : State) : NoTeardown s (discardOpenSet n o s) :=
  .trans (.of_eq rfl) (noTeardown_changeInUse n _ (changePool (· + o.items.length) (s.withOpenSet n _)))

theorem noTeardown_takeTeardownAnswer (b : AnswerBlock) (n : SessionIx) (s : State) :
    NoTeardown s (takeTeardownAnswer b n s) := by
  unfold takeTeardownAnswer
  split
  · exact .refl s
  · next r hr =>
    split
    · exact .refl s
    · next e he =>
      have noted : NoTeardown s (s.withSession n (some { r with ending := some (e.note b) })) :=
        .withSession hr fun _ => by simp [he]
      dsimp only
      split
      · exact noted.trans (.of_eq rfl)
      · exact noted

theorem noTeardown_setTime (x : Nat) (s : State) : NoTeardown s (setTime x s) := by
  intro n k hk he
  have hr : (setTime x s).session n = (s.session n).map (shiftLease (x - s.clock.rig)) := by
    simp [setTime, shiftSessions, State.session, shiftTrigger, shiftEngine, shiftSets, shiftClaims, State.withSets]
  rw [hr] at hk
  obtain ⟨r, hr, rfl⟩ := Option.map_eq_some_iff.1 hk
  refine ⟨r, hr, fun h => he ?_⟩
  simp [shiftLease, h]

theorem noTeardown_takeFrame (l : LinkId) (f : InFrame) (s : State) : NoTeardown s (takeFrame l f s) := by
  refine (noTeardown_refreshLease l f.session s).trans (.of_only ?_)
  simp only [takeFrame]
  split <;> simp

theorem noTeardown_receiveFrame (l : LinkId) (b : List Byte) (s : State) : NoTeardown s (receiveFrame l b s) := by
  have link (k : Link) : NoTeardown s (s.withLink l k) := .of_eq (by simp)
  simp only [receiveFrame, arriveFrame]
  repeat' split
  · exact (link _).trans (noTeardown_takeFrame _ _ _)
  · exact .refl s
  · exact noTeardown_takeFrame _ _ s
  · exact link _
  · exact .refl s
  · exact .refl s

theorem Brought.noTeardown (h : Brought s u) : NoTeardown s u := by
  have oldest (l : LinkId) (v : State) : NoTeardown v (dispatchOldest l v) := .of_only (by simp)
  cases h with
  | same => exact .refl s
  | request h r =>
    simp only [bringIn]
    repeat' split
    · exact (noTeardown_refreshLease h.link h.session s).trans (.of_only (by simp))
    · exact oldest _ s
    · exact .refl s
    · exact .refl s
  | oldest l => exact oldest l s

/-- The command begins teardowns (R154). -/
def beginsTeardown (i : Instr) : Prop :=
  match i with
  | .sessionClose _ | .leaseExpiry _ | .reportRetriesExhausted _ | .linkBreakNotice _ => True
  | _ => False

/-- R154: the other commands begin none; after a reset every record is CLOSED. -/
theorem exec_noTeardown {i : Instr} (hi : ¬ beginsTeardown i) (hu : exec i s = .next t) : NoTeardown s t := by
  have served {v : Server} {g : Header} {r : Request} {body : SessionIx → State → State}
      (hbody : ∀ n u, NoTeardown u (body n u)) (hu : serve v g r body s = .next t) : NoTeardown s t :=
    serve_induction (P := fun u => NoTeardown s u) (fun u hb => hb.noTeardown) (fun u x h => h.trans (noTeardown_answer _ _ _ u))
      (fun n u h => h.trans (hbody n u)) hu
  have noticed {lane : Lane} {f : Notice → State → Option State} (hf : ∀ n u v, f n u = some v → NoTeardown u v)
      (hu : (Host.Outcome.next (onNotice lane f s) : Host.Outcome State Fault Refusal) = .next t) : NoTeardown s t := by
    cases hu
    exact onNotice_induction (P := fun v => NoTeardown s v) (.refl s) fun n v _ hv =>
      NoTeardown.trans (t := dropNotice lane s) (.of_eq rfl) (hf _ _ _ hv)
  have reset {p : Pins} {v : State} (h : v.sessions = (afterReset p s).sessions) : NoTeardown s v := fun n k hk _ => by
    simp [State.session, h, afterReset, State.reset] at hk
  have unpowered (p : Pins) : NoTeardown s (resetUnpowered p s) :=
    reset (p := p) ((show OnlyChanges (everyPartBut .sessions) (afterReset p s) (resetUnpowered p s) by
      simp [resetUnpowered]) .sessions (by simp))
  have held (p : Pins) : NoTeardown s (resetHeld p s) :=
    reset (p := p) ((show OnlyChanges (everyPartBut .sessions) (afterReset p s) (resetHeld p s) by
      simp only [resetHeld]
      rw [only_foldl _ _ fun u k => only_queueDescribe (by simp) k]
      simp [keepPowered]) .sessions (by simp))
  cases i
  case sessionClose | leaseExpiry | reportRetriesExhausted | linkBreakNotice => exact absurd trivial hi
  case powerOnReset p | lineReset p => cases hu; exact unpowered p
  case heldReset p => cases hu; exact held p
  case resetPerformed p =>
    cases hu
    repeat' split
    · exact held p
    · exact unpowered p
    all_goals exact .refl s
  case sessionOpen h role x =>
    obtain ⟨u, hb, rfl | ⟨why, rfl⟩ | ⟨n, k, a, -, rfl⟩⟩ := exec_sessionOpen_cases hu
    · exact hb.noTeardown
    · exact hb.noTeardown.trans (noTeardown_answer _ _ _ u)
    · refine hb.noTeardown.trans fun m j hj he => ?_
      rw [session_answerOpened, openSession_session] at hj
      split at hj
      · cases hj; exact absurd rfl he
      · exact ⟨j, hj, he⟩
  case sessionRecordClose n =>
    obtain ⟨hs, -⟩ | ⟨hs, -⟩ := exec_sessionRecordClose_cases hu
    · exact .of_eq hs
    · intro m k hk he
      rw [hs] at hk
      split at hk
      · cases hk
      · exact ⟨k, hk, he⟩
  case setAdd h f is =>
    simp only [exec, execSetAdd] at hu
    split at hu
    · cases hu
    · split at hu
      · cases hu; exact .refl s
      · refine served (fun n u => ?_) hu
        obtain ⟨a, e⟩ | ⟨o, -, -, -, -, e | ⟨a, e⟩⟩ := setAddBody_cases h f is n u
        · exact e ▸ noTeardown_answer _ _ _ u
        · rw [e]; exact (noTeardown_takeItems n o (is.filterMap itemOf) u).trans (.of_only (by simp))
        · rw [e]; exact (noTeardown_takeItems n o _ u).trans (noTeardown_answer _ _ _ _)
  case setDiscard =>
    refine served (fun n u => ?_) hu
    unfold setDiscardBody
    split
    · exact noTeardown_answer _ _ _ u
    · next o _ => exact (noTeardown_discardOpenSet n o u).trans (noTeardown_answer _ _ _ _)
  case sessionEndSetAssembler m =>
    refine noticed (fun n u v hv => ?_) hu
    cases hv
    unfold endSessionAssembler
    split
    · next o _ => exact (noTeardown_discardOpenSet m o u).trans (.of_only (by simp))
    · exact .of_only (by simp)
  case itemsReturn m =>
    refine noticed (fun n u v hv => ?_) hu
    split at hv <;> cases hv
    next k => exact .trans (t := changePool (· + k) u) (.of_eq rfl) (noTeardown_changeInUse m _ _)
  case timeSet =>
    refine served (fun n u => ?_) hu
    simp only [timeSetBody]
    split
    · exact noTeardown_answer _ _ _ u
    · exact (noTeardown_setTime _ u).trans (noTeardown_answer _ _ _ _)
  case sessionConfig h x =>
    refine served (fun n u => ?_) hu
    simp only [sessionConfigBody]
    repeat' split
    · exact .refl u
    · exact noTeardown_answer _ _ _ u
    · exact noTeardown_answer _ _ _ u
    · next k hk _ _ =>
      exact (NoTeardown.withSession (k := k.withSettings (settingsOf x) u.clock.rig) hk id).trans (.of_only (by simp))
  case deviceReset =>
    refine served (fun n u => ?_) hu
    unfold deviceResetBody
    repeat' split
    · exact noTeardown_answer _ _ _ u
    · exact noTeardown_answer _ _ _ u
    · exact .trans (t := stopLinks (u.withSessions _)) (.of_session fun _ => rfl) (noTeardown_answer _ _ _ _)
  case frameReceived =>
    simp only [exec, execFrameReceived] at hu
    split at hu <;> cases hu
    exact noTeardown_receiveFrame _ _ s
  case frameSent l =>
    cases hu
    have told (f : OutFrame) : NoTeardown s (tellSent l f s) := by
      unfold tellSent
      repeat' split
      · exact .of_session fun _ => rfl
      · exact .refl s
      · exact .of_eq rfl
    split
    · next x _ => exact (told x.frame).trans (.of_only (by simp))
    · exact .refl s
  case teardownAnswer =>
    refine noticed (fun n u v hv => ?_) hu
    split at hv <;> cases hv
    exact noTeardown_takeTeardownAnswer _ _ u
  case deviceStatus | linkStatus | deviceConfig | timeGet | channelRead
     | channelConfig | setOpen | setList | cycleBegin | cycleStatus | syncConfig | triggerStatus
     | slotStatus | claim | release | readback | setCancel | cycleEnd | cycleStop | triggerConfig | haltNow | resume
     | slotDisable | slotEnable | slotReset =>
    exact served (fun n u => .of_only (by simp)) hu
  all_goals
    refine .of_only (exec_changes (fun p hp => ?_) (fun ⟨h, r, e, _⟩ => by cases r <;> cases e) hu)
    simp only [touches, List.mem_cons, List.not_mem_nil, or_false] at hp
    rw [mem_everyPartBut]
    rintro rfl
    simp at hp

/-! ### The Report Unit is told -/

/-- R155, R182: the Report Unit has taken the notice of a session's end or is still to take it. -/
def EndsTold (s : State) : Prop :=
  ∀ n r, s.session n = some r → r.ending ≠ none →
    .sessionEnd .reportUnit n ∈ s.notices ∨ (s.lists n).torn = true

theorem EndsTold.kept (h : EndsTold s) (hs : NoTeardown s t)
    (hn : ∀ n, .sessionEnd .reportUnit n ∈ s.notices → .sessionEnd .reportUnit n ∈ t.notices ∨ (t.lists n).torn = true)
    (hl : ∀ n r, t.session n = some r → r.ending ≠ none → (s.lists n).torn = true → (t.lists n).torn = true) :
    EndsTold t := by
  intro n k hk he
  obtain ⟨r, hr, her⟩ := hs n k hk he
  rcases h n r hr her with e | e
  · exact hn n e
  · exact .inr (hl n k hk he e)

/-- R154, R155: a teardown that begins tells the Report Unit. -/
theorem EndsTold.beginTeardown (h : EndsTold s) (c : EndingCause) (n : SessionIx) : EndsTold (beginTeardown c n s) := by
  unfold Machine.beginTeardown
  split
  · exact h
  · next r hr =>
    split
    · exact h
    · intro m k hk he
      have session := State.session_withSession s n m
      by_cases hm : n = m
      · subst hm
        exact .inl (List.mem_append_right _ (by simp [endBlocks]))
      · rw [State.session, postAll, State.withNotices_sessions, ← State.session, session, if_neg hm] at hk
        exact (h m k hk he).imp (List.mem_append_left _) id

theorem mem_notices_of_noticesOf (h : t.noticesOf .reportEnd = s.noticesOf .reportEnd) {n : SessionIx}
    (hn : Notice.sessionEnd .reportUnit n ∈ s.notices) : Notice.sessionEnd .reportUnit n ∈ t.notices := by
  have hm : Notice.sessionEnd .reportUnit n ∈ t.noticesOf .reportEnd := by
    rw [h]
    exact List.mem_filter.2 ⟨hn, by simp [Notice.class]⟩
  exact (List.mem_filter.1 hm).1

end

end Sys2Proof.Machine
end


section
/-! PROOFS. The frames in the report queues have their reports outstanding, and so the queues and the report lists keep
within their bounds (R172, R174, R176, R180, R182). -/

namespace Sys2Proof.Machine

/-! ### Frames and their reports -/

/-- A report with the number and the sequence is in the outstanding list. -/
def ReportLists.has (x : ReportLists) (uid seq : Nat) : Prop := ∃ o ∈ x.outstanding, o.uid = uid ∧ o.seq = seq

/-- R172: a frame waits once, on the link of its session, and has its report outstanding. -/
def FramesTied (s : State) : Prop :=
  (∀ l, ((s.link l).reports.map fun f => (f.session, f.seq)).Nodup) ∧
  ∀ l, ∀ f ∈ (s.link l).reports, (∃ r, s.session f.session = some r ∧ r.link = l) ∧
    (s.lists f.session).has f.uid f.seq

/-- R174, R182: a session's report lists keep within their bounds, and nothing is outstanding after its teardown notice. -/
def ReportLists.ok (x : ReportLists) : Prop := x.bounded ∧ (x.torn = true → x.outstanding = [])

/-- The frames in the report queues and the lists of the Report Unit. -/
def Reporting (s : State) : Prop := (∀ n, (s.lists n).ok) ∧ FramesTied s

theorem reporting_iff {s : State} :
    ReportsBounded s ∧ ReportQueuesTied s ↔ Reporting s ∧ EndsTold s :=
  ⟨fun ⟨hb, h1, h2, h3, h4⟩ => ⟨⟨fun n => ⟨hb n, h4 n⟩, h1, h2⟩, h3⟩,
    fun ⟨⟨ho, h1, h2⟩, h3⟩ => ⟨fun n => (ho n).1, h1, h2, h3, fun n => (ho n).2⟩⟩

section
variable {s t : State} {n : SessionIx}

theorem FramesTied.kept (h : FramesTied s) (hrep : ∀ l, (t.link l).reports.Sublist (s.link l).reports)
    (hsess : ∀ l, ∀ f ∈ (t.link l).reports, ∀ r, s.session f.session = some r →
      ∃ k, t.session f.session = some k ∧ k.link = r.link)
    (hout : ∀ l, ∀ f ∈ (t.link l).reports, (s.lists f.session).has f.uid f.seq → (t.lists f.session).has f.uid f.seq) :
    FramesTied t := by
  refine ⟨fun l => (h.1 l).sublist ((hrep l).map _), fun l f hf => ?_⟩
  obtain ⟨⟨r, hr, hl⟩, ho⟩ := h.2 l f ((hrep l).subset hf)
  obtain ⟨k, hk, hkl⟩ := hsess l f hf r hr
  exact ⟨⟨k, hk, hkl.trans hl⟩, hout l f hf ho⟩

/-- Only Link Ports change, and no frame joins. -/
theorem FramesTied.links {hand : Prop} (h : FramesTied s) (hl : LinksKept hand True s t) (hs : t.sessions = s.sessions)
    (hr : t.reports = s.reports) : FramesTied t := by
  refine h.kept (fun l => (hl l).reports trivial) (fun _ f _ r hr => ⟨r, ?_, rfl⟩) (fun _ f _ ho => ?_)
  · simpa only [State.session, hs] using hr
  · simpa only [State.lists, hr] using ho

/-- R172: 8 reports of each of 4 sessions can be outstanding, and each frame has its own. -/
theorem FramesTied.length_le (h : FramesTied s) (hb : ∀ n, (s.lists n).outstanding.length ≤ 8) (l : LinkId) :
    (s.link l).reports.length ≤ 32 := by
  let keys := allSessions.flatMap fun n => (s.lists n).outstanding.map fun o => (n, o.seq)
  have sub : (s.link l).reports.map (fun f => (f.session, f.seq)) ⊆ keys := by
    intro key hkey
    obtain ⟨f, hf, rfl⟩ := List.mem_map.1 hkey
    obtain ⟨-, o, ho, -, hseq⟩ := h.2 l f hf
    exact List.mem_flatMap.2 ⟨f.session, List.mem_finRange _, List.mem_map.2 ⟨o, ho, by rw [hseq]⟩⟩
  have len : keys.length ≤ 32 := by
    simp only [keys, List.length_flatMap, List.length_map]
    refine (List.sum_le_card_nsmul _ 8 fun k hk => ?_).trans (by simp [allSessions])
    obtain ⟨n, -, rfl⟩ := List.mem_map.1 hk
    exact hb n
  have := ((h.1 l).subperm sub).length_le
  rw [List.length_map] at this
  exact this.trans len

/-! ### Lists -/

theorem Reporting.withLists (h : Reporting s) {x : ReportLists} (hx : x.ok)
    (hout : ∀ u q, (s.lists n).has u q → x.has u q) : Reporting (s.withLists n x) := by
  have lists (m : SessionIx) : (s.withLists n x).lists m = if n = m then x else s.lists m := State.lists_withLists s n m x
  refine ⟨fun m => ?_, h.2.kept (fun l => .refl _) (fun _ _ _ r hr => ⟨r, hr, rfl⟩) fun _ f _ ho => ?_⟩
  · rw [lists]
    split
    · exact hx
    · exact h.1 m
  · rw [lists]
    split
    · next e => exact hout _ _ (e ▸ ho)
    · exact ho

theorem Reporting.startSending (h : Reporting s) (l : LinkId) : Reporting (startSending l s) := by
  have only : OnlyChanges [.linkA, .linkB] s (Machine.startSending l s) :=
    (only_startSending l (linkPart_mem (by simp) (by simp) l)).2 (.refl _ s)
  refine ⟨fun m => ?_, h.2.links (hand := True) (linksKept_startSending l s) (only .sessions (by simp))
    (only .reports (by simp))⟩
  rw [State.lists, show _ = s.reports from only .reports (by simp)]
  exact h.1 m

/-- R178, R172: a frame that does not wait already joins the report queue of its session's link. -/
theorem Reporting.handFrame (h : Reporting s) {o : Outstanding} (ho : (s.lists n).has o.uid o.seq) :
    Reporting (handFrame n o s) := by
  simp only [Machine.handFrame]
  split
  · exact h
  · next r hr =>
    split
    · exact h
    · next hnew =>
      have joined : Reporting (s.withLink r.link { s.link r.link with reports := (s.link r.link).reports ++
          [{ uid := o.uid, session := n, seq := o.seq, report := o.report }] }) := by
        refine ⟨fun m => by simpa using h.1 m, fun l => ?_, fun l f hf => ?_⟩
        · by_cases hl : l = r.link
          · subst hl
            rw [State.link_withLink_self, List.map_append, List.nodup_append]
            refine ⟨h.2.1 _, List.nodup_singleton _, fun key hkey key' hkey' e => hnew ?_⟩
            obtain ⟨f, hf, rfl⟩ := List.mem_map.1 hkey
            simp only [List.map_cons, List.map_nil, List.mem_singleton] at hkey'
            obtain ⟨hn, hq⟩ := Prod.mk.inj (e.trans hkey')
            exact List.any_eq_true.2 ⟨f, hf, by simp [hn, hq]⟩
          · rw [State.link_withLink_ne _ _ _ hl]
            exact h.2.1 l
        · rw [State.session_withLink, State.lists_withLink]
          by_cases hl : l = r.link
          · subst hl
            rw [State.link_withLink_self] at hf
            rcases List.mem_append.1 hf with hf | hf
            · exact h.2.2 _ f hf
            · rw [List.mem_singleton.1 hf]
              exact ⟨⟨r, hr, rfl⟩, ho⟩
          · rw [State.link_withLink_ne _ _ _ hl] at hf
            exact h.2.2 l f hf
      exact joined.startSending _

theorem reports_handFrame (n : SessionIx) (o : Outstanding) (s : State) : (handFrame n o s).reports = s.reports :=
  (only_handFrame (ps := [.linkA, .linkB]) (by simp) (by simp) n o).2 (.refl _ s) .reports (by simp)

/-! ### Promotion and overrun -/

theorem Reporting.promote (h : Reporting s) {r : Report} {rest : List Report} (hh : (s.lists n).held = r :: rest)
    (ho : (s.lists n).outstanding.length < Config.maxOutstanding) (ht : (s.lists n).torn = false) :
    Reporting (promote n r rest s) ∧ ((Machine.promote n r rest s).lists n).torn = false := by
  obtain ⟨⟨-, hheld, hdropped⟩, -⟩ := h.1 n
  rw [hh] at hheld
  have listed : Reporting (s.withLists n { s.lists n with
      held := rest
      outstanding := (s.lists n).outstanding ++ [{ uid := s.reports.nextUid, seq := (s.lists n).nextSeq, report := r
                                                   retransmissions := 0, timer := .sending }]
      nextSeq := nextReportSeq (s.lists n).nextSeq }) := by
    refine h.withLists ⟨⟨?_, Nat.le_of_succ_le hheld, hdropped⟩, fun e => ?_⟩ fun u q ⟨o, hmem, huq⟩ =>
      ⟨o, List.mem_append_left _ hmem, huq⟩
    · simpa using ho
    · rw [ht] at e; cases e
  refine ⟨?_, ?_⟩
  · unfold Machine.promote
    refine Reporting.handFrame ?_ ⟨_, ?_, rfl, rfl⟩
    · exact listed
    · simp [State.lists, State.withLists]
  · rw [Machine.promote, State.lists, reports_handFrame]
    simpa [State.lists, State.withLists] using ht

theorem Reporting.makeOverrun (h : Reporting s) (hh : (s.lists n).held.length < Config.maxHeld) :
    Reporting (makeOverrun n s) ∧ ((Machine.makeOverrun n s).lists n).torn = (s.lists n).torn := by
  obtain ⟨⟨hout, -, -⟩, htorn⟩ := h.1 n
  refine ⟨h.withLists ⟨⟨hout, ?_, Nat.zero_le _⟩, htorn⟩ fun _ _ => id, ?_⟩
  · simpa using hh
  · simp [Machine.makeOverrun]

/-- R176: bringing the lists to rest keeps them within their bounds. -/
theorem Reporting.settleLoop (fuel : Nat) (h : Reporting s) (ht : (s.lists n).torn = false) :
    Reporting (settleLoop fuel n s) := by
  induction fuel generalizing s with
  | zero => exact h
  | succ f ih =>
    simp only [Machine.settleLoop]
    split
    · next r rest hh =>
      split
      · next ho =>
        obtain ⟨h', ht'⟩ := h.promote hh ho ht
        exact ih h' ht'
      · split
        · next hroom =>
          simp only [Bool.and_eq_true, decide_eq_true_eq] at hroom
          obtain ⟨h', ht'⟩ := h.makeOverrun hroom.2
          exact ih h' (ht'.trans ht)
        · exact h
    · next hh =>
      split
      · obtain ⟨h', ht'⟩ := h.makeOverrun (n := n) (by rw [hh]; decide)
        exact ih h' (ht'.trans ht)
      · exact h

theorem Reporting.settleLists (h : Reporting s) (ht : (s.lists n).torn = false) : Reporting (settleLists n s) :=
  h.settleLoop 10 ht

/-! ### Reports taken in, acknowledged and torn down -/

theorem Reporting.takeReport (h : Reporting s) (n : SessionIx) (r : Report) : Reporting (takeReport n r s) := by
  obtain ⟨⟨hout, hheld, hdropped⟩, htorn⟩ := h.1 n
  simp only [Machine.takeReport]
  split
  · exact h
  · next ht =>
    split
    · next hroom =>
      refine Reporting.settleLists (h.withLists ⟨⟨hout, ?_, hdropped⟩, htorn⟩ fun _ _ => id) ?_
      · simpa using hroom
      · simpa using ht
    · exact h.withLists ⟨⟨hout, hheld, bump_le _⟩, htorn⟩ fun _ _ => id

theorem Reporting.takeHandover (h : Reporting s) (x : Option (SessionIx × Nat)) (r : Report) :
    Reporting (takeHandover x r s) := by
  have routed (ns : List SessionIx) : ∀ u, Reporting u → Reporting (ns.foldl (routeTo r) u) := by
    induction ns with
    | nil => exact fun _ hu => hu
    | cons n ns ih =>
      refine fun u hu => ih _ ?_
      unfold routeTo
      repeat' split
      · exact hu.takeReport n r
      · exact hu
      · exact hu
  simp only [Machine.takeHandover]
  repeat' split
  · exact routed _ s h
  · exact h.takeReport _ r
  · exact h
  · exact h

theorem Reporting.changeOutstanding (h : Reporting s) (u : Nat) {f : Outstanding → Outstanding}
    (hf : ∀ o, (f o).uid = o.uid ∧ (f o).seq = o.seq) : Reporting (changeOutstanding n u f s) := by
  obtain ⟨⟨hout, hrest⟩, htorn⟩ := h.1 n
  refine h.withLists ⟨⟨by simpa using hout, hrest⟩, fun e => by simp [htorn e]⟩ fun u q ⟨o, ho, huq⟩ => ?_
  refine ⟨_, List.mem_map.2 ⟨o, ho, rfl⟩, ?_⟩
  split
  · rw [(hf o).1, (hf o).2]; exact huq
  · exact huq

theorem Reporting.retryExpired (h : Reporting s) {r : Session} {o : Outstanding} (ho : o ∈ (s.lists n).outstanding) :
    Reporting (retryExpired n r o s) := by
  unfold Machine.retryExpired
  split
  · have changed := h.changeOutstanding (n := n) o.uid
      (f := fun x => { x with retransmissions := x.retransmissions + 1, timer := .sending }) fun _ => ⟨rfl, rfl⟩
    refine changed.handFrame ⟨{ o with retransmissions := o.retransmissions + 1, timer := .sending }, ?_, rfl, rfl⟩
    simp only [Machine.changeOutstanding, State.lists_withLists, if_true]
    exact List.mem_map.2 ⟨o, ho, by simp⟩
  · exact h.changeOutstanding o.uid fun _ => ⟨rfl, rfl⟩

/-- R172, R180: the frames of the reports that are gone leave with them. -/
theorem Reporting.withdraw (h : Reporting s) {x : ReportLists} {gone : ReportFrame → Bool} (hx : x.ok)
    (hout : ∀ f : ReportFrame, gone f = false → (s.lists n).has f.uid f.seq → x.has f.uid f.seq) :
    Reporting (withdrawFrames n gone (s.withLists n x)) := by
  have lists (m : SessionIx) : (withdrawFrames n gone (s.withLists n x)).lists m = if n = m then x else s.lists m := by
    have same : (withdrawFrames n gone (s.withLists n x)).reports = (s.withLists n x).reports :=
      (only_withdrawFrames (ps := [.linkA, .linkB]) (by simp) (by simp) n gone).2 (.refl _ _) .reports (by simp)
    rw [State.lists, same]
    exact State.lists_withLists s n m x
  have session (m : SessionIx) : (withdrawFrames n gone (s.withLists n x)).session m = s.session m := by
    have same : (withdrawFrames n gone (s.withLists n x)).sessions = (s.withLists n x).sessions :=
      (only_withdrawFrames (ps := [.linkA, .linkB]) (by simp) (by simp) n gone).2 (.refl _ _) .sessions (by simp)
    rw [State.session, same]
    rfl
  have stay {l : LinkId} {f : ReportFrame} (hf : f ∈ ((withdrawFrames n gone (s.withLists n x)).link l).reports) :
      f ∈ (s.link l).reports ∧ (f.session = n → gone f = false) := by
    have sub : f ∈ (s.link l).reports :=
      ((linksKept_withdrawFrames (hand := True) (rep := True) n gone (s.withLists n x)) l).reports trivial |>.subset hf
    refine ⟨sub, fun hn => ?_⟩
    obtain ⟨⟨r, hr, hl⟩, -⟩ := h.2.2 l f sub
    have hr' : (s.withLists n x).session n = some r := hn ▸ hr
    subst hl
    simp only [withdrawFrames, hr', State.link_withLink_self, List.mem_filter] at hf
    simpa [hn] using hf.2
  refine ⟨fun m => ?_, h.2.kept (fun l => ?_) (fun l f _ r hr => ⟨r, by rwa [session], rfl⟩) fun l f hf ho => ?_⟩
  · rw [lists]
    split
    · exact hx
    · exact h.1 m
  · exact ((linksKept_withdrawFrames (hand := True) (rep := True) n gone (s.withLists n x)) l).reports trivial
  · rw [lists]
    split
    · next e => exact hout f ((stay hf).2 e.symm) (e ▸ ho)
    · exact ho

theorem retiredBy_eq_take (q : Nat) (os : List Outstanding) : retiredBy q os = os.take (retiredBy q os).length := by
  unfold retiredBy
  split
  · rw [List.length_take]
    simp
  · rfl

theorem Reporting.takeAck (h : Reporting s) (n : SessionIx) (q : Nat) : Reporting (takeAck n q s) := by
  obtain ⟨⟨hout, hheld⟩, htorn⟩ := h.1 n
  simp only [Machine.takeAck]
  split
  · exact h
  · next hdone =>
    have running : (s.lists n).torn = false := by
      cases ht : (s.lists n).torn with
      | false => rfl
      | true => exact absurd (by rw [htorn ht]; rfl) hdone
    have withdrawn : Reporting (withdrawFrames n
        (fun f => (retiredBy q (s.lists n).outstanding).any fun o => o.uid = f.uid)
        (s.withLists n { s.lists n with
          outstanding := (s.lists n).outstanding.drop (retiredBy q (s.lists n).outstanding).length })) := by
      refine h.withdraw ⟨⟨?_, hheld⟩, fun e => ?_⟩ fun f hgone ⟨o, ho, huid, hseq⟩ => ⟨o, ?_, huid, hseq⟩
      · rw [List.length_drop]
        exact (Nat.sub_le _ _).trans hout
      · rw [running] at e; cases e
      · rw [← List.take_append_drop (retiredBy q (s.lists n).outstanding).length (s.lists n).outstanding,
          ← retiredBy_eq_take, List.mem_append] at ho
        refine ho.resolve_left fun hm => ?_
        have met : ((retiredBy q (s.lists n).outstanding).any fun o => o.uid = f.uid) = true :=
          List.any_eq_true.2 ⟨o, hm, by simpa using huid⟩
        rw [hgone] at met
        cases met
    refine withdrawn.settleLists ?_
    rw [State.lists, show _ = Reports.lists _ from congrArg Reports.lists
      ((only_withdrawFrames (ps := [.linkA, .linkB]) (by simp) (by simp) n _).2 (.refl _ _) .reports (by simp))]
    simpa [State.lists, State.withLists] using running

theorem Reporting.tearReports (h : Reporting s) (n : SessionIx) : Reporting (tearReports n s) := by
  refine h.withdraw ⟨⟨Nat.zero_le _, Nat.zero_le _, Nat.zero_le _⟩, fun _ => rfl⟩ fun f hgone _ => ?_
  cases hgone

end

end Sys2Proof.Machine
end


section
/-! PROOFS. Every step keeps every bound (O4). -/

namespace Sys2Proof.Machine

/-! ### What the Report Unit has taken down -/

/-- A session's lists that the Report Unit has taken down stay so. -/
def TornKept (s t : State) : Prop := ∀ n, (s.lists n).torn = true → (t.lists n).torn = true

section
variable {s t u : State}

namespace TornKept

theorem of_eq (h : t.reports = s.reports) : TornKept s t := fun n hn => by rwa [State.lists, h]

theorem refl (s : State) : TornKept s s := fun _ => id

theorem trans (h : TornKept s t) (h' : TornKept t u) : TornKept s u := fun n hn => h' n (h n hn)

theorem withLists {n : SessionIx} {x : ReportLists} (h : (s.lists n).torn = true → x.torn = true) :
    TornKept s (s.withLists n x) := by
  intro m hm
  rw [State.lists_withLists]
  split
  · next e => exact h (e ▸ hm)
  · exact hm

end TornKept

theorem tornKept_handFrame (n : SessionIx) (o : Outstanding) (s : State) : TornKept s (handFrame n o s) :=
  .of_eq (reports_handFrame n o s)

theorem tornKept_promote (n : SessionIx) (r : Report) (rest : List Report) (s : State) :
    TornKept s (promote n r rest s) := by
  have listed {x : ReportLists} {k : Nat} (hx : x.torn = (s.lists n).torn) :
      TornKept s ((s.withLists n x).withReports { (s.withLists n x).reports with nextUid := k }) :=
    TornKept.withLists hx.trans
  refine .trans ?_ (tornKept_handFrame n _ _)
  exact listed rfl

theorem tornKept_settleLoop (f : Nat) (n : SessionIx) : ∀ s, TornKept s (settleLoop f n s) := by
  have overrun (u : State) : TornKept u (makeOverrun n u) := .withLists id
  induction f with
  | zero => exact fun s => .refl s
  | succ f ih =>
    intro s
    simp only [settleLoop]
    repeat' split
    · exact (tornKept_promote n _ _ s).trans (ih _)
    · exact (overrun s).trans (ih _)
    · exact .refl s
    · exact (overrun s).trans (ih _)
    · exact .refl s

theorem tornKept_takeReport (n : SessionIx) (r : Report) (s : State) : TornKept s (takeReport n r s) := by
  simp only [takeReport]
  repeat' split
  · exact .refl s
  · exact .trans (.withLists (n := n) (x := { s.lists n with held := (s.lists n).held ++ [r] }) id)
      (tornKept_settleLoop 10 n _)
  · exact .withLists id

theorem tornKept_takeHandover (x : Option (SessionIx × Nat)) (r : Report) (s : State) :
    TornKept s (takeHandover x r s) := by
  have routed (ns : List SessionIx) : ∀ u, TornKept u (ns.foldl (routeTo r) u) := by
    induction ns with
    | nil => exact fun u => .refl u
    | cons n ns ih =>
      refine fun u => TornKept.trans ?_ (ih _)
      unfold routeTo
      repeat' split
      · exact tornKept_takeReport n r u
      · exact .refl u
      · exact .refl u
  simp only [takeHandover]
  repeat' split
  · exact routed _ s
  · exact tornKept_takeReport _ r s
  · exact .refl s
  · exact .refl s

theorem tornKept_changeOutstanding (n : SessionIx) (k : Nat) (f : Outstanding → Outstanding) (s : State) :
    TornKept s (changeOutstanding n k f s) := .withLists id

theorem tornKept_withdrawFrames (n : SessionIx) (gone : ReportFrame → Bool) (s : State) :
    TornKept s (withdrawFrames n gone s) :=
  .of_eq ((only_withdrawFrames (ps := [.linkA, .linkB]) (by simp) (by simp) n gone).2 (.refl _ _) .reports (by simp))

theorem tornKept_takeAck (n : SessionIx) (q : Nat) (s : State) : TornKept s (takeAck n q s) := by
  simp only [takeAck]
  split
  · exact .refl s
  · exact .trans (.withLists (n := n) (x := { s.lists n with
        outstanding := (s.lists n).outstanding.drop (retiredBy q (s.lists n).outstanding).length }) id)
      ((tornKept_withdrawFrames n _ _).trans (tornKept_settleLoop 10 n _))

theorem tornKept_tearReports (n : SessionIx) (s : State) : TornKept s (tearReports n s) :=
  .trans (.withLists (n := n) (x := { s.lists n with held := [], outstanding := [], dropped := 0, torn := true })
    fun _ => rfl) (tornKept_withdrawFrames n _ _)

theorem torn_tearReports (n : SessionIx) (s : State) : ((tearReports n s).lists n).torn = true :=
  tornKept_withdrawFrames n _ (s.withLists n { s.lists n with held := [], outstanding := [], dropped := 0, torn := true })
    n (by simp)

/-! ### Every command -/

/-- The command writes a session's report lists, or closes records. -/
def writesReports (i : Instr) : Prop :=
  startsAnew i ∨ match i with
    | .sessionOpen _ _ _ | .sessionRecordClose _ | .teardownNotice _ | .reportHandover _ | .endOfTransmissionNotice _
    | .retryExpiry _ _ | .ack _ => True
    | _ => False

theorem FramesTied.exec {i : Instr} (h : FramesTied s) (hi : ¬ writesReports i) (hu : exec i s = .next t) :
    FramesTied t ∧ t.reports = s.reports := by
  have reports : t.reports = s.reports := by
    refine exec_changes (i := i) (ps := everyPartBut .reports) (fun p hp => ?_) (fun _ => by simp) hu .reports (by simp)
    rw [mem_everyPartBut]
    rintro rfl
    exact hi (by cases i <;> simp [touches, writesReports, startsAnew, allButPending] at hp ⊢ )
  obtain ⟨u, hb, hl⟩ := exec_linksKept (rep := True) (fun e => hi (.inl e))
    (fun _ e => hi (.inr (by cases i <;> first | trivial | exact e))) hu
  have sessions : SessionsKept False s t :=
    exec_sessionsKept (fun e => hi (by cases i <;> first | exact e.elim | exact .inr trivial | exact .inl trivial))
      False.elim hu
  refine ⟨h.kept (fun l => (((hl l).reports trivial).trans ((hb.linksKept l).reports trivial))) (fun _ f _ r hr => ?_)
    (fun _ f _ ho => by rwa [State.lists, reports]), reports⟩
  obtain ⟨k, hk, hs⟩ := sessions.some hr
  exact ⟨k, hk, hs.link⟩

/-- The frames in the report queues, the lists of the Report Unit, and the notices of ended sessions. -/
def ReportsInOrder (s : State) : Prop := Reporting s ∧ EndsTold s

theorem ReportsInOrder.other {i : Instr} (h : ReportsInOrder s) (hi : ¬ writesReports i) (hb : ¬ beginsTeardown i)
    (hu : exec i s = .next t) : ReportsInOrder t := by
  obtain ⟨⟨ho, hf⟩, he⟩ := h
  obtain ⟨hf', reports⟩ := hf.exec hi hu
  have same (n : SessionIx) : t.lists n = s.lists n := by rw [State.lists, reports, State.lists]
  have notices : t.noticesOf .reportEnd = s.noticesOf .reportEnd := by
    refine exec_noticesOf (by simp) (fun e => ?_) hu
    cases i <;> first | exact hi (.inl trivial) | exact hi (.inr trivial) | exact hb trivial | exact e.elim | cases e
  exact ⟨⟨fun n => same n ▸ ho n, hf'⟩, he.kept (exec_noTeardown hb hu)
    (fun n hn => .inl (mem_notices_of_noticesOf notices hn)) fun n _ _ _ hn => by rwa [same]⟩

/-- R154: a command that begins teardowns tells the Report Unit of each. -/
theorem EndsTold.exec_beginsTeardown {i : Instr} (h : EndsTold s) (hi : beginsTeardown i) (hu : exec i s = .next t) :
    EndsTold t := by
  have dropped {lane : Lane} (hl : ∀ n, lane ≠ .sessionEnd .reportUnit n) : EndsTold (dropNotice lane s) := fun n r hr he =>
    (h n r hr he).imp_left fun hm => (List.mem_eraseP_of_neg (by simp [noticeLane, (hl n).symm])).2 hm
  cases i
  case sessionClose g =>
    have kept {u v : State} (hu : EndsTold u) (ho : OnlyChanges [.linkA, .linkB] u v) : EndsTold v := by
      refine hu.kept (.of_eq (ho .sessions (by simp))) (fun n hn => .inl ?_) fun n _ _ _ hn => ?_
      · rwa [show v.notices = u.notices from ho .notices (by simp)]
      · rwa [State.lists, show v.reports = u.reports from ho .reports (by simp)]
    have answered (u : State) (a : Answer) (hu : EndsTold u) : EndsTold (answer g .sessionClose a u) :=
      kept hu ((only_answer g (linkPart_mem (by simp) (by simp) _) _ _).2 (.refl _ u))
    refine serve_induction (P := EndsTold) (fun u hb => ?_) (fun u _ hu => answered u _ hu)
      (fun n u hu => answered _ _ (hu.beginTeardown .close n)) hu
    refine h.kept hb.noTeardown (fun n hn => .inl ?_) fun n _ _ _ hn => ?_
    · rwa [show u.notices = s.notices from hb.only .notices (by simp)]
    · rwa [State.lists, show u.reports = s.reports from hb.only .reports (by simp)]
  case leaseExpiry n =>
    cases hu
    repeat' split
    · exact h.beginTeardown .lease n
    all_goals exact h
  case reportRetriesExhausted n =>
    cases hu
    refine onNotice_induction h fun x v _ hv => ?_
    have hd := dropped (lane := .retriesExhausted n) (by simp)
    repeat' split at hv
    all_goals cases hv
    · exact hd.beginTeardown .reportTimeout _
    · exact hd
    · exact hd
  case linkBreakNotice l =>
    cases hu
    refine onNotice_induction h fun x v _ hv => ?_
    cases hv
    exact List.foldlRecOn _ _ (dropped (lane := .linkBroken l) (by simp)) fun u hu n _ => hu.beginTeardown .linkBreak n
  all_goals exact hi.elim

end

end Sys2Proof.Machine
end


section
/-! PROOFS. Every step keeps every bound (O4): the commands that write report lists, and the obligation. -/

namespace Sys2Proof.Machine

section
variable {s t u : State}

/-! ### Reports taken in, timed, acknowledged and torn down -/

theorem Reporting.startTimer (h : Reporting s) (n : SessionIx) (k : Nat) : Reporting (startTimer n k s) := by
  unfold Machine.startTimer
  split
  · exact h
  · refine h.changeOutstanding k fun o => ?_
    split <;> exact ⟨rfl, rfl⟩

theorem tornKept_startTimer (n : SessionIx) (k : Nat) (s : State) : TornKept s (startTimer n k s) := by
  unfold startTimer
  split
  · exact .refl s
  · exact tornKept_changeOutstanding n k _ s

theorem tornKept_retryExpired (n : SessionIx) (r : Session) (o : Outstanding) (s : State) :
    TornKept s (retryExpired n r o s) := by
  unfold retryExpired
  split
  · exact (tornKept_changeOutstanding n o.uid _ s).trans (tornKept_handFrame n o _)
  · exact tornKept_changeOutstanding n o.uid _ s

/-- The command works on report lists. -/
def worksOnLists (i : Instr) : Prop :=
  match i with
  | .reportHandover _ | .endOfTransmissionNotice _ | .retryExpiry _ _ | .ack _ => True
  | _ => False

/-- R175 to R180: the Report Unit's own commands. -/
theorem Reporting.exec_worksOnLists {i : Instr} (h : Reporting s) (hi : worksOnLists i) (hu : exec i s = .next t) :
    Reporting t ∧ TornKept s t := by
  have noticed {lane : Lane} {f : Notice → State → Option State}
      (hf : ∀ n u v, f n u = some v → Reporting u → Reporting v ∧ TornKept u v)
      (hu : (Host.Outcome.next (onNotice lane f s) : Host.Outcome State Fault Refusal) = .next t) :
      Reporting t ∧ TornKept s t := by
    cases hu
    refine onNotice_induction (P := fun v => Reporting v ∧ TornKept s v) ⟨h, .refl s⟩ fun n v _ hv => ?_
    exact hf n (dropNotice lane s) v hv h
  cases i
  case reportHandover =>
    refine noticed (fun n u v hv hr => ?_) hu
    split at hv <;> cases hv
    exact ⟨hr.takeHandover _ _, tornKept_takeHandover _ _ u⟩
  case endOfTransmissionNotice =>
    refine noticed (fun n u v hv hr => ?_) hu
    split at hv <;> cases hv
    exact ⟨hr.startTimer _ _, tornKept_startTimer _ _ u⟩
  case ack =>
    refine noticed (fun n u v hv hr => ?_) hu
    repeat' split at hv
    all_goals cases hv
    · exact ⟨hr.takeAck _ _, tornKept_takeAck _ _ u⟩
    · exact ⟨hr, .refl u⟩
    · exact ⟨hr, .refl u⟩
  case retryExpiry n q =>
    cases hu
    split
    · next r o _ ho =>
      repeat' split
      · exact ⟨h.retryExpired (List.mem_of_find?_eq_some ho), tornKept_retryExpired n r o s⟩
      all_goals exact ⟨h, .refl s⟩
    · exact ⟨h, .refl s⟩
  all_goals exact hi.elim

theorem ReportsInOrder.exec_worksOnLists {i : Instr} (h : ReportsInOrder s) (hi : worksOnLists i)
    (hu : exec i s = .next t) : ReportsInOrder t := by
  obtain ⟨hr, ht⟩ := h.1.exec_worksOnLists hi hu
  refine ⟨hr, h.2.kept (exec_noTeardown (fun e => ?_) hu) (fun n hn => .inl ?_) fun n _ _ _ hn => ht n hn⟩
  · cases i <;> first | exact hi | exact e
  · refine mem_notices_of_noticesOf (exec_noticesOf (by simp) (fun e => ?_) hu) hn
    cases i <;> first | exact hi | exact e

/-- R182: the Report Unit takes the notice of a session's end. -/
theorem ReportsInOrder.teardownNotice {n : SessionIx} (h : ReportsInOrder s)
    (hu : exec (.teardownNotice n) s = .next t) : ReportsInOrder t := by
  cases hu
  refine onNotice_induction h fun x v _ hv => ?_
  cases hv
  have dropped : Reporting (dropNotice (.sessionEnd .reportUnit n) s) := h.1
  refine ⟨dropped.tearReports n, ?_⟩
  have only : OnlyChanges [.reports, .linkA, .linkB] (dropNotice (.sessionEnd .reportUnit n) s)
      (tearReports n (dropNotice (.sessionEnd .reportUnit n) s)) :=
    (only_tearReports (by simp) (by simp) (by simp) n).2 (.refl _ _)
  refine h.2.kept (.of_eq (only .sessions (by simp))) (fun m hm => ?_) fun m _ _ _ hm => tornKept_tearReports n _ m hm
  by_cases e : m = n
  · exact .inr (e ▸ torn_tearReports n _)
  · left
    rw [show _ = (dropNotice (.sessionEnd .reportUnit n) s).notices from only .notices (by simp)]
    exact (List.mem_eraseP_of_neg (by simp [noticeLane, e])).2 hm

/-! ### Sessions opened and closed, and resets -/

/-- R172: no frame of a CLOSED record waits. -/
theorem FramesTied.session_ne (h : FramesTied s) {n : SessionIx} (hn : s.session n = none) {l : LinkId} {f : ReportFrame}
    (hf : f ∈ (s.link l).reports) : f.session ≠ n := by
  rintro rfl
  obtain ⟨⟨r, hr, -⟩, -⟩ := h.2 l f hf
  rw [hn] at hr
  cases hr

theorem Brought.reportsInOrder (hb : Brought s u) (h : ReportsInOrder s) : ReportsInOrder u := by
  have reports : u.reports = s.reports := hb.only .reports (by simp)
  have same (n : SessionIx) : u.lists n = s.lists n := by rw [State.lists, reports, State.lists]
  refine ⟨⟨fun n => same n ▸ h.1.1 n, h.1.2.kept (fun l => (hb.linksKept l).reports trivial) (fun _ f _ r hr => ?_)
    fun _ f _ ho => by rwa [same]⟩, h.2.kept hb.noTeardown (fun n hn => .inl ?_) fun n _ _ _ hn => by rwa [same]⟩
  · obtain ⟨k, hk, hs⟩ := (hb.sessionsKept (use := False)).some hr
    exact ⟨k, hk, hs.link⟩
  · rwa [show u.notices = s.notices from hb.only .notices (by simp)]

theorem ReportsInOrder.answerOpened (h : ReportsInOrder s) (g : Header) (r : Request) (a : Answer) (o : Option SessionIx) :
    ReportsInOrder (answerOpened g r a o s) := by
  have only : OnlyChanges [.linkA, .linkB] s (Machine.answerOpened g r a o s) :=
    (only_answerOpened g (linkPart_mem (by simp) (by simp) _) r a o).2 (.refl _ s)
  have reports : (Machine.answerOpened g r a o s).reports = s.reports := only .reports (by simp)
  have same (n : SessionIx) : (Machine.answerOpened g r a o s).lists n = s.lists n := by rw [State.lists, reports, State.lists]
  refine ⟨⟨fun n => same n ▸ h.1.1 n, h.1.2.links (hand := True) (linksKept_answerOpened g r a o s)
    (only .sessions (by simp)) reports⟩, h.2.kept (.of_eq (only .sessions (by simp))) (fun n hn => .inl ?_)
    fun n _ _ _ hn => by rwa [same]⟩
  rwa [show (Machine.answerOpened g r a o s).notices = s.notices from only .notices (by simp)]

/-- R149: a session opens with empty report lists. -/
theorem ReportsInOrder.openSession (h : ReportsInOrder s) {n : SessionIx} (hn : s.session n = none) (l : LinkId)
    (role : Role) (x : Settings) : ReportsInOrder (openSession l n role x s) := by
  have link (m : LinkId) : ((Machine.openSession l n role x s).link m).reports = (s.link m).reports := by
    unfold Machine.openSession
    by_cases e : m = l
    · subst e
      rw [State.link_withLink_self]
      rfl
    · rw [State.link_withLink_ne _ _ _ e]
      rfl
  have lists (m : SessionIx) : (Machine.openSession l n role x s).lists m =
      if n = m then ReportLists.reset else s.lists m := by
    have e : (Machine.openSession l n role x s).lists m = (s.withLists n ReportLists.reset).lists m := by
      simp [Machine.openSession, State.lists, withArmed, State.withCycle, State.withLists]
    rw [e, State.lists_withLists]
  have notices : (Machine.openSession l n role x s).notices = s.notices := by simp [Machine.openSession, withArmed, State.withCycle, State.withLists]
  refine ⟨⟨fun m => ?_, h.1.2.kept (fun m => by rw [link]) (fun m f hf r hr => ?_) fun m f hf ho => ?_⟩, ?_⟩
  · rw [lists]
    split
    · exact ⟨⟨by decide, by decide, by decide⟩, fun _ => rfl⟩
    · exact h.1.1 m
  · rw [openSession_session, if_neg (h.1.2.session_ne hn (link m ▸ hf)).symm]
    exact ⟨r, hr, rfl⟩
  · rwa [lists, if_neg (h.1.2.session_ne hn (link m ▸ hf)).symm]
  · intro m k hk he
    rw [openSession_session] at hk
    split at hk
    · cases hk; exact absurd rfl he
    · next hm => rw [notices, lists, if_neg hm]; exact h.2 m k hk he

theorem ReportsInOrder.sessionOpen {g : Header} {role : Byte} {x : RawSettings} (h : ReportsInOrder s)
    (hu : exec (.sessionOpen g role x) s = .next t) : ReportsInOrder t := by
  obtain ⟨u, hb, rfl | ⟨why, rfl⟩ | ⟨n, k, a, hn, rfl⟩⟩ := exec_sessionOpen_cases hu
  · exact hb.reportsInOrder h
  · exact (hb.reportsInOrder h).answerOpened _ _ _ _
  · exact ((hb.reportsInOrder h).openSession hn _ _ _).answerOpened _ _ _ _

/-- R157, R182: a record is closed once the Report Unit has taken its session down. -/
theorem ReportsInOrder.sessionRecordClose {n : SessionIx} (h : ReportsInOrder s)
    (hu : exec (.sessionRecordClose n) s = .next t) : ReportsInOrder t := by
  have only : OnlyChanges [.sessions, .notices] s t :=
    exec_changes (i := .sessionRecordClose n) (fun p hp => hp) (fun _ => by simp) hu
  have reports : t.reports = s.reports := only .reports (by simp)
  have same (m : SessionIx) : t.lists m = s.lists m := by rw [State.lists, reports, State.lists]
  have links (l : LinkId) : t.link l = s.link l := by
    cases l
    · exact only .linkA (by simp)
    · exact only .linkB (by simp)
  have notices : t.noticesOf .reportEnd = s.noticesOf .reportEnd :=
    exec_noticesOf (i := .sessionRecordClose n) (by simp) id hu
  refine ⟨⟨fun n => same n ▸ h.1.1 n, h.1.2.kept (fun l => by rw [links]) (fun l f hf r hr => ?_)
    fun _ f _ ho => by rwa [same]⟩, h.2.kept (exec_noTeardown (i := .sessionRecordClose n) id hu)
    (fun n hn => .inl (mem_notices_of_noticesOf notices hn)) fun n _ _ _ hn => by rwa [same]⟩
  obtain ⟨hs, -⟩ | ⟨hs, -, -, -, hend, k, hk, hke⟩ := exec_sessionRecordClose_cases hu
  · exact ⟨r, by rwa [State.session, hs], rfl⟩
  · refine ⟨r, ?_, rfl⟩
    rw [hs, if_neg]
    · exact hr
    · rintro rfl
      have torn := (h.2 _ k hk hke).resolve_left (hend _)
      obtain ⟨-, o, ho, -⟩ := h.1.2.2 l f (links l ▸ hf)
      rw [(h.1.1 _).2 torn] at ho
      cases ho

/-- R163, R174: after a reset no record is OPEN, nothing waits at the Link Ports and no report is held. -/
theorem exec_startsAnew {i : Instr} (hi : startsAnew i) (hu : exec i s = .next t) :
    t = s ∨ (∀ n, t.session n = none) ∧ t.reports = State.reset.reports ∧
      ∀ l, (t.link l).counted ∧ (t.link l).reports = [] := by
  have anew {p : Pins} {v : State} (ho : OnlyChanges [.slots, .modules, .bus, .engine, .free, .notices] (afterReset p s) v) :
      (∀ n, v.session n = none) ∧ v.reports = State.reset.reports ∧
        ∀ l, (v.link l).counted ∧ (v.link l).reports = [] := by
    have link (l : LinkId) : v.link l = (afterReset p s).link l := by
      cases l
      · exact ho .linkA (by simp)
      · exact ho .linkB (by simp)
    refine ⟨fun n => ?_, ho .reports (by simp), fun l => ?_⟩
    · rw [State.session, show v.sessions = (afterReset p s).sessions from ho .sessions (by simp)]
      simp [afterReset, State.reset]
    · rw [link]
      cases l <;> exact ⟨by simp [afterReset, State.link, linkAfterReset, Link.counted, Link.reset], rfl⟩
  have unpowered (p : Pins) := anew (v := resetUnpowered p s) (p := p) (by simp [resetUnpowered])
  have held (p : Pins) := anew (v := resetHeld p s) (p := p) (by
    simp only [resetHeld]
    rw [only_foldl _ _ fun u k => only_queueDescribe (by simp) k]
    simp [keepPowered])
  cases i
  case powerOnReset p | lineReset p => cases hu; exact .inr (unpowered p)
  case heldReset p => cases hu; exact .inr (held p)
  case resetPerformed p =>
    cases hu
    repeat' split
    · exact .inr (held p)
    · exact .inr (unpowered p)
    all_goals exact .inl rfl
  all_goals exact hi.elim

theorem ReportsInOrder.startsAnew {i : Instr} (h : ReportsInOrder s) (hi : startsAnew i) (hu : exec i s = .next t) :
    ReportsInOrder t := by
  obtain rfl | ⟨hs, hr, hl⟩ := exec_startsAnew hi hu
  · exact h
  · refine ⟨⟨fun n => ?_, fun l => by simp [(hl l).2], fun l f hf => ?_⟩, fun n r hn _ => ?_⟩
    · rw [State.lists, hr, State.reset, Table.get_const]
      exact ⟨⟨by decide, by decide, by decide⟩, fun _ => rfl⟩
    · rw [(hl l).2] at hf
      cases hf
    · rw [hs] at hn
      cases hn

theorem ReportsInOrder.exec {i : Instr} (h : ReportsInOrder s) (hu : exec i s = .next t) : ReportsInOrder t := by
  by_cases hw : writesReports i
  · obtain hi | hi := hw
    · exact h.startsAnew hi hu
    · cases i
      case sessionOpen => exact h.sessionOpen hu
      case sessionRecordClose => exact h.sessionRecordClose hu
      case teardownNotice => exact h.teardownNotice hu
      case reportHandover | endOfTransmissionNotice | retryExpiry | ack => exact h.exec_worksOnLists (by trivial) hu
      all_goals exact hi.elim
  · by_cases hb : beginsTeardown i
    · obtain ⟨hf, reports⟩ := h.1.2.exec hw hu
      have same (n : SessionIx) : t.lists n = s.lists n := by rw [State.lists, reports, State.lists]
      exact ⟨⟨fun n => same n ▸ h.1.1 n, hf⟩, h.2.exec_beginsTeardown hb hu⟩
    · exact h.other hw hb hu

/-! ### Every bound -/

theorem linksBounded_iff : LinksBounded s ↔ ∀ l, (s.link l).bounded :=
  ⟨fun h l => by cases l; exacts [h.1, h.2], fun h => ⟨h .a, h .b⟩⟩

/-- R168, R172, R173: the report queues are kept short by what is outstanding. -/
theorem LinksBounded.exec {i : Instr} (h : LinksBounded s) (ht : ReportsInOrder t) (hu : exec i s = .next t) :
    LinksBounded t := by
  rw [linksBounded_iff] at *
  refine fun l => Link.bounded_iff.2 ⟨?_, ht.1.2.length_le (fun n => (ht.1.1 n).1.1) l⟩
  have before := (Link.bounded_iff.1 (h l)).1
  by_cases hi : Machine.startsAnew i
  · obtain rfl | ⟨-, -, hl⟩ := exec_startsAnew hi hu
    · exact before
    · exact (hl l).1
  · obtain ⟨u, hb, hk⟩ := exec_linksKept (rep := False) hi False.elim hu
    exact (hk l).counted (((hb.linksKept (rep := False)) l).counted before)

theorem tablesBounded_iff : TablesBounded s ↔ SetsBounded s ∧ WaitsBounded s ∧ CapturesBounded s := by
  have opens : (∀ n, openLen s n ≤ 32) ↔ ∀ n o, s.openSet n = some o → o.items.length ≤ 32 := by
    refine forall_congr' fun n => ?_
    unfold openLen
    cases s.openSet n <;> simp
  have members : (∀ n, (s.membersOf n).length ≤ 16) ↔ ∀ n c, s.cycle n = some c → c.members.length ≤ 16 := by
    refine forall_congr' fun n => ?_
    unfold State.membersOf
    cases s.cycle n <;> simp
  unfold TablesBounded SetsBounded WaitsBounded CapturesBounded
  rw [opens, members]
  constructor
  · rintro ⟨h1, h2, h3, h4, h5, h6⟩
    exact ⟨⟨h3, h5, h6⟩, ⟨h1, h2⟩, h4⟩
  · rintro ⟨⟨h3, h5, h6⟩, ⟨h1, h2⟩, h4⟩
    exact ⟨h1, h2, h3, h4, h5, h6⟩

end

/-- Settles O4: each bound is kept by every command. The report queues need the reports' own order, which ties each
frame that waits to a report outstanding. -/
theorem stepKeepsEveryBound : Obligations.StepKeepsEveryBound := by
  rintro s t ⟨hc, hb, hl, hr, ht, hq⟩ hu
  have ho : ReportsInOrder s := reporting_iff.1 ⟨hr, hq⟩
  unfold step at hu
  split at hu
  · cases hu
    exact ⟨hc.tick, hb, hl, hr, ht, hq⟩
  · next i rest _ =>
    have ho' : ReportsInOrder t := ReportsInOrder.exec (s := s.withPending rest) ho hu
    obtain ⟨hs, hw, hcap⟩ := tablesBounded_iff.1 ht
    exact ⟨ClockBounded.exec (s := s.withPending rest) hc hu, BusBounded.exec (s := s.withPending rest) hb hu,
      LinksBounded.exec (s := s.withPending rest) hl ho' hu, (reporting_iff.2 ho').1,
      tablesBounded_iff.2 ⟨SetsBounded.exec (s := s.withPending rest) hs hu, WaitsBounded.exec (s := s.withPending rest) hw hu,
        CapturesBounded.exec (s := s.withPending rest) hcap hu⟩, (reporting_iff.2 ho').2⟩

end Sys2Proof.Machine
end


section
/-! PROOFS. Request bodies and frames are read back as they were written (O12). -/

namespace Sys2Proof.Machine

/-! ### Fields -/

theorem append_halves (h : Half) : h.extractLsb' 8 8 ++ h.extractLsb' 0 8 = h := by
  rw [BitVec.extractLsb'_append_extractLsb'_eq_extractLsb' (by rfl)]
  exact BitVec.extractLsb'_eq_self

theorem append_longHalves (v : Long) : v.extractLsb' 16 16 ++ v.extractLsb' 0 16 = v := by
  rw [BitVec.extractLsb'_append_extractLsb'_eq_extractLsb' (by rfl)]
  exact BitVec.extractLsb'_eq_self

theorem append_timeParts (v : Time) : v.extractLsb' 32 16 ++ v.extractLsb' 0 32 = v := by
  rw [BitVec.extractLsb'_append_extractLsb'_eq_extractLsb' (by rfl)]
  exact BitVec.extractLsb'_eq_self

theorem rd8_drop (b : List Byte) (i j : Nat) : rd8 (b.drop i) j = rd8 b (i + j) := by
  simp [rd8, List.getD_eq_getElem?_getD]

theorem rd16_of_drop {b c : List Byte} {i : Nat} {h : Half} (e : b.drop i = wHalf h ++ c) : rd16 b i = h := by
  have moved : rd16 b i = rd16 (b.drop i) 0 := by simp only [rd16, rd8_drop, Nat.add_zero, Nat.zero_add]
  rw [moved, e]
  exact append_halves h

theorem rd32_of_drop {b c : List Byte} {i : Nat} {v : Long} (e : b.drop i = wLong v ++ c) : rd32 b i = v := by
  rw [wLong, List.append_assoc] at e
  have low : b.drop (i + 2) = wHalf (v.extractLsb' 0 16) ++ c := by rw [← List.drop_drop, e]; rfl
  rw [rd32, rd16_of_drop e, rd16_of_drop low, append_longHalves]

theorem rd48_of_drop {b c : List Byte} {i : Nat} {v : Time} (e : b.drop i = wTime v ++ c) : rd48 b i = v := by
  rw [wTime, List.append_assoc] at e
  have low : b.drop (i + 2) = wLong (v.extractLsb' 0 32) ++ c := by rw [← List.drop_drop, e]; rfl
  rw [rd48, rd16_of_drop e, rd32_of_drop low, append_timeParts]

theorem rd8_append (a b : List Byte) (i : Nat) : rd8 (a ++ b) (a.length + i) = rd8 b i := by
  simp [rd8, List.getD_eq_getElem?_getD, List.getElem?_append_right]

theorem rd16_append (a b : List Byte) (i : Nat) : rd16 (a ++ b) (a.length + i) = rd16 b i := by
  simp only [rd16, rd8_append, Nat.add_assoc]

/-- The bytes of a table of 8. -/
theorem toList_table8 (t : Table Byte 8) : t.toList =
    [t.get 0, t.get 1, t.get 2, t.get 3, t.get 4, t.get 5, t.get 6, t.get 7] := by
  refine List.ext_getElem (by simp) fun i hi _ => ?_
  rw [Vector.length_toList] at hi
  interval_cases i <;> rfl

/-- The 29 bytes of the settings are read back. -/
theorem rdSettings_wSettings (t : RawSettings) : rdSettings (wSettings t) 0 = t := by
  have named : (Table.tab fun k : Fin 8 => rd8 (wSettings t) (0 + 2 + k.val)) = t.name.value.chars :=
    Table.ext_get fun k => by
      rw [Table.get_tab, wSettings, wOptRaw, wRawName, toList_table8]
      fin_cases k <;> rfl
  simp only [rdSettings, named]
  simp [wSettings, wOptRaw, wRawName, toList_table8, rd16, rd8, wHalf, append_halves]

theorem length_wSettings (t : RawSettings) : (wSettings t).length = 29 := by
  simp [wSettings, wOptRaw, wRawName, wHalf]

theorem rdSettings_cons (b : Byte) (bs : List Byte) : rdSettings (b :: bs) 1 = rdSettings bs 0 := by
  have named : (Table.tab fun k : Fin 8 => rd8 (b :: bs) (1 + 2 + k.val)) = Table.tab fun k => rd8 bs (0 + 2 + k.val) :=
    congrArg Table.tab (funext fun k => by
      rw [show 1 + 2 + k.val = 0 + 2 + k.val + 1 by omega]
      rfl)
  simp only [rdSettings, named]
  rfl

theorem rdItems_succ (b : List Byte) (n i : Nat) : rdItems b (n + 1) i =
    { channel := rd8 b i, target := rd16 b (i + 1), ramp := rd16 b (i + 3) } :: rdItems b n (i + 5) := by
  simp only [rdItems, List.range_succ_eq_map, List.map_cons, List.map_map]
  congr 1
  refine List.map_congr_left fun k _ => ?_
  simp only [Function.comp, show i + 5 * k.succ = i + 5 + 5 * k by omega]

/-- The items of a SET_ADD are read back. -/
theorem rdItems_flatMap (a : List Byte) (items : List RawItem) :
    rdItems (a ++ items.flatMap wItem) items.length a.length = items := by
  induction items generalizing a with
  | nil => rfl
  | cons x xs ih =>
    have rest : rdItems (a ++ (x :: xs).flatMap wItem) xs.length (a.length + 5) = xs := by
      have := ih (a ++ wItem x)
      simpa [wItem, wHalf] using this
    rw [List.length_cons, rdItems_succ, rest, rd16_append, rd16_append, ← Nat.add_zero a.length, rd8_append]
    simp [wItem, wHalf, rd16, rd8, append_halves]

/-! ### Bodies and frames -/

/-- R185: a body is read back as its request. -/
theorem parseRequest_requestBody (r : Request) (hr : ∀ f items, r = .setAdd f items → items.length ≤ 255) :
    parseRequest (kindOf r) (requestBody r) = .request r := by
  cases r
  case sessionOpen role t =>
    simp [parseRequest, kindOf, requestBody, ofLength, length_wSettings, rdSettings_cons, rdSettings_wSettings, rd8]
  case sessionConfig t => simp [parseRequest, kindOf, requestBody, ofLength, length_wSettings, rdSettings_wSettings]
  case setAdd f items =>
    have count : (BitVec.ofNat 8 items.length).toNat = items.length := by
      have := hr f items rfl
      rw [BitVec.toNat_ofNat, Nat.mod_eq_of_lt (by omega)]
    have read := rdItems_flatMap [BitVec.ofNat 8 items.length, f] items
    have length : (items.flatMap wItem).length = 5 * items.length := by
      simp [List.length_flatMap, wItem, wHalf, Nat.mul_comm]
    simp only [List.cons_append, List.nil_append, List.length_cons, List.length_nil] at read
    simp [parseRequest, kindOf, requestBody, ofLength, rd8, count, length, read]
    omega
  case timeSet v =>
    have time : rd48 (wTime v) 0 = v := rd48_of_drop (c := []) rfl
    have parsed : parseRequest 0x09 (wTime v) = .request (.timeSet (rd48 (wTime v) 0)) := rfl
    rw [time] at parsed
    exact parsed
  case setOpen k l c y t p d o =>
    let b := requestBody (.setOpen k l c y t p d o)
    have time : rd48 b 4 = t := rd48_of_drop (c := wHalf p ++ wLong d ++ wLong o) rfl
    have predecessor : rd16 b 10 = p := rd16_of_drop (c := wLong d ++ wLong o) rfl
    have delay : rd32 b 12 = d := rd32_of_drop (c := wLong o) rfl
    have offset : rd32 b 16 = o := rd32_of_drop (c := []) rfl
    have parsed : parseRequest 0x20 b = .request (.setOpen k l c y (rd48 b 4) (rd16 b 10) (rd32 b 12) (rd32 b 16)) := rfl
    rw [time, predecessor, delay, offset] at parsed
    exact parsed
  case setList m n f i =>
    let b := requestBody (.setList m n f i)
    have first : rd32 b 2 = f := rd32_of_drop (c := wHalf i) rfl
    have id : rd16 b 6 = i := rd16_of_drop (c := []) rfl
    have parsed : parseRequest 0x24 b = .request (.setList m n (rd32 b 2) (rd16 b 6)) := rfl
    rw [first, id] at parsed
    exact parsed
  case cycleBegin f p n =>
    let b := requestBody (.cycleBegin f p n)
    have first : rd48 b 0 = f := rd48_of_drop (c := wLong p ++ wLong n) rfl
    have period : rd32 b 6 = p := rd32_of_drop (c := wLong n) rfl
    have repeats : rd32 b 10 = n := rd32_of_drop (c := []) rfl
    have parsed : parseRequest 0x28 b = .request (.cycleBegin (rd48 b 0) (rd32 b 6) (rd32 b 10)) := rfl
    rw [first, period, repeats] at parsed
    exact parsed
  all_goals simp [parseRequest, kindOf, requestBody, ofLength, rd16, rd8, wHalf, append_halves]

theorem u16_toNat (h : Half) : u16 h.toNat = wHalf h := by
  simp only [u16, u8, wHalf, List.cons_append, List.nil_append, List.cons.injEq, and_true]
  constructor <;> apply BitVec.eq_of_toNat_eq <;> simp [BitVec.extractLsb'_toNat, Nat.shiftRight_eq_div_pow]

/-- The bytes of a frame from its length byte to its CRC. -/
theorem drop_requestFrame (session : Byte) (seq : Half) (r : Request) : ∃ c : List Byte,
    c = [BitVec.ofNat 8 (5 + (requestBody r).length), 1, kindOf r, session] ++ wHalf seq ++ requestBody r ∧
      (requestFrame session seq r).drop 1 = c ++ wHalf (crc16 c) :=
  ⟨_, rfl, by simp [requestFrame, frameBytes, u16_toNat, u8]⟩

/-- Settles O12: the bodies by their fields, and the frames by the bytes that `drop_requestFrame` gives. -/
theorem requestsRoundTrip : Obligations.RequestsRoundTrip := by
  refine ⟨parseRequest_requestBody, fun session seq r hr => ?_⟩
  obtain ⟨c, hc, hd⟩ := drop_requestFrame session seq r
  have length : c.length = 6 + (requestBody r).length := by rw [hc]; simp [wHalf]; omega
  have size : (BitVec.ofNat 8 (5 + (requestBody r).length)).toNat = 5 + (requestBody r).length := by
    rw [BitVec.toNat_ofNat, Nat.mod_eq_of_lt (by omega)]
  have upTo : (c ++ wHalf (crc16 c)).length - 2 = c.length := by simp [wHalf]
  rw [hd]
  refine ⟨?_, ?_, ?_⟩
  · rw [hc]
    simp [frameBytesOk, size, wHalf]
    omega
  · have read : rd16 (c ++ wHalf (crc16 c)) c.length = crc16 c := (rd16_append c _ 0).trans (append_halves _)
    rw [crcAgrees, upTo, List.take_left, read]
    exact beq_self_eq_true _
  · have body : ((c ++ wHalf (crc16 c)).drop 6).take ((c ++ wHalf (crc16 c)).length - 8) = requestBody r := by
      rw [show (c ++ wHalf (crc16 c)).length - 8 = (requestBody r).length by simp [length, wHalf], hc]
      simp [wHalf]
    rw [readFrame, body, hc]
    simp [rd8, rd16, wHalf, append_halves]

end Sys2Proof.Machine
end


section
/-! PROOFS. The bytes of replies and reports, and every code (O13). -/

namespace Sys2Proof.Machine

/-! ### Frames -/

theorem u16_eq (n : Nat) : u16 n = [.ofNat 8 (n / 256), .ofNat 8 n] := rfl

theorem ofNat8_mod (n : Nat) : BitVec.ofNat 8 (n % 256) = BitVec.ofNat 8 n :=
  BitVec.eq_of_toNat_eq (by simp [BitVec.toNat_ofNat])

/-- R183: start byte, what the length byte begins, and the CRC over that. -/
theorem frameBytes_eq (cls : Nat) (kind session : Byte) (seq : Nat) (body inner : List Byte)
    (hi : u8 (5 + body.length) ++ u8 cls ++ [kind, session] ++ u16 seq ++ body = inner) :
    frameBytes cls kind session seq body =
      0xD5 :: inner ++ [(crc16 inner).extractLsb' 8 8, (crc16 inner).extractLsb' 0 8] := by
  rw [frameBytes, hi, u16_toNat]
  rfl

theorem outBytes_reply (r : Reply) :
    let inner : List Byte := [.ofNat 8 (r.body.length + 7), 2, r.kind, r.session, r.seq.extractLsb' 8 8, r.seq.extractLsb' 0 8,
      (match r.outcome with | .done => 0 | .refused => 1 | .busy => 2),
      (match r.reason with | some x => .ofNat 8 (reasonCode x) | none => 0)] ++ r.body
    outBytes (.reply r) = 0xD5 :: inner ++ [(crc16 inner).extractLsb' 8 8, (crc16 inner).extractLsb' 0 8] := by
  refine frameBytes_eq 2 r.kind r.session r.seq.toNat (replyBody r) _ ?_
  have length : 5 + (replyBody r).length = r.body.length + 7 := by simp [replyBody, u8]; omega
  rw [u16_toNat, length]
  obtain ⟨_, _, _, outcome, reason, _, _⟩ := r
  cases outcome <;> cases reason <;> rfl

theorem outBytes_report (f : ReportFrame) :
    let inner : List Byte := [.ofNat 8 ((reportBody f.report).length + 5), 3, reportKind f.report,
      .ofNat 8 (f.session.val + 1), .ofNat 8 (f.seq / 256), .ofNat 8 f.seq] ++ reportBody f.report
    outBytes (.report f) = 0xD5 :: inner ++ [(crc16 inner).extractLsb' 8 8, (crc16 inner).extractLsb' 0 8] := by
  refine frameBytes_eq 3 (reportKind f.report) _ f.seq (reportBody f.report) _ ?_
  rw [Nat.add_comm 5]
  rfl

theorem crc16_snoc (bytes : List Byte) (b : Byte) : crc16 (bytes ++ [b]) =
    (List.range 8).foldl (fun c _ => if c.msb then (c <<< 1) ^^^ 0x1021 else c <<< 1)
      (crc16 bytes ^^^ (b ++ (0 : Byte))) := by
  rw [crc16, List.foldl_append]
  rfl

/-! ### Fields -/

theorem u32_eq (n : Nat) : u32 n =
    [.ofNat 8 (n / 2 ^ 24), .ofNat 8 (n / 2 ^ 16), .ofNat 8 (n / 2 ^ 8), .ofNat 8 n] := by
  rw [u32, u16_eq, u16_eq, Nat.div_div_eq_div_mul]
  rfl

theorem u48_eq (n : Nat) : u48 n = u16 (n / 2 ^ 32) ++ u32 (n % 2 ^ 32) := by
  have low : u32 (n % 2 ^ 32) = u32 n := by
    have shifted (k m : Nat) (h : 2 ^ 32 = k * m) (h' : 256 ∣ m) :
        BitVec.ofNat 8 (n % 2 ^ 32 / k) = BitVec.ofNat 8 (n / k) := by
      rw [h, Nat.mod_mul_right_div_self, ← ofNat8_mod, Nat.mod_mod_of_dvd _ h', ofNat8_mod]
    rw [u32_eq, u32_eq, shifted (2 ^ 24) 256 (by norm_num) (by norm_num), shifted (2 ^ 16) (2 ^ 16) (by norm_num) (by norm_num),
      shifted (2 ^ 8) (2 ^ 24) (by norm_num) (by norm_num)]
    rw [← ofNat8_mod (n % 2 ^ 32), Nat.mod_mod_of_dvd _ (by norm_num), ofNat8_mod]
  rw [low]
  rfl

theorem i16_eq (v : Int) : i16 v = u16 (v % 2 ^ 16).toNat := by
  rw [i16, BitVec.toNat_ofInt]
  rfl

theorem length_wName {name : List Byte} (h : name.length ≤ 8) : (wName name).length = 9 := by
  simp [wName, u8]
  omega

/-! ### Codes -/

theorem roleOf_eq_some {b : Byte} {x : Role} : roleOf b = some x ↔ b.toNat = roleCode x := by
  unfold roleOf
  split <;> cases x <;> simp_all [roleCode]

theorem linkOf_eq_some {b : Byte} {x : LinkId} : linkOf b = some x ↔ b.toNat = linkCode x := by
  unfold linkOf
  split <;> cases x <;> simp_all [linkCode]

theorem lossPolicyOf_eq_some {b : Byte} {x : LossPolicy} : lossPolicyOf b = some x ↔ b.toNat = lossPolicyCode x := by
  unfold lossPolicyOf
  split <;> cases x <;> simp_all [lossPolicyCode]

theorem stopKindOf_eq_some {b : Byte} {x : StopKind} : stopKindOf b = some x ↔ b.toNat = stopKindCode x := by
  unfold stopKindOf
  split <;> cases x <;> simp_all [stopKindCode]

theorem trigLineOf_eq_some {b : Byte} {x : TrigLine} :
    trigLineOf b = some x ↔ b.toNat = match x with | .trig0 => 0 | .trig1 => 1 := by
  unfold trigLineOf
  split <;> cases x <;> simp_all

theorem edgeOf_eq_some {b : Byte} {x : Edge} : edgeOf b = some x ↔ b.toNat = edgeCode x := by
  unfold edgeOf
  split <;> cases x <;> simp_all [edgeCode]

theorem debounceOf_eq_some {b : Byte} {x : Debounce} : debounceOf b = some x ↔ b.toNat = debounceCode x := by
  unfold debounceOf
  split <;> cases x <;> simp_all [debounceCode]

theorem polarityOf_eq_some {b : Byte} {x : Polarity} : polarityOf b = some x ↔ b.toNat = polarityCode x := by
  unfold polarityOf
  split <;> cases x <;> simp_all [polarityCode]

theorem resetKindOf_eq_some {b : Byte} {x : ResetKind} : resetKindOf b = some x ↔ b.toNat = resetKindCode x := by
  unfold resetKindOf
  split <;> cases x <;> simp_all [resetKindCode]

/-! ### Report bodies with parts that depend on a field -/

theorem reportBody_capture (x : CaptureReport) : reportBody (.capture x) =
    u16 x.setId ++ u16 x.tag ++ u48 x.refTime ++ u48 x.captureTime ++ u8 x.items.length ++
      x.items.flatMap fun i => u8 i.channel.val ++ u8 (captureResultCode i.result) ++
        (if i.result = .value then i16 i.value else [0, 0]) :=
  (List.append_assoc _ _ _).symm

theorem reportBody_cycleChange (x : CycleChange) : reportBody (.cycleChange x) =
    u8 0 ++ u8 (cycleEndCode x.reason) ++
      (match x.member with
        | none => [0, 0, 0, 0, 0]
        | some (id, why) => u8 1 ++ u16 id ++ u8 1 ++ u8 (resultReasonCode why)) ++
      u48 x.firstStart ++ u32 x.period ++ u32 x.repeats ++ u32 x.begun ++ wOpt 6 u48 x.lastStart ++
      u8 x.members ++ u48 x.eventTime := by
  obtain ⟨_, _ | ⟨id, why⟩, _⟩ := x <;> rfl

theorem reportBody_haltChange (x : HaltChange) : reportBody (.haltChange x) =
    (match x.cause with
      | some c => u8 0 ++ u8 1 ++ u8 (haltCauseCode c)
      | none => u8 1 ++ u8 0 ++ u8 0) ++
      u8 (match x.session with | some n => n.val + 1 | none => 0) ++ u48 x.eventTime := by
  obtain ⟨_ | _, _ | _, _⟩ := x <;> rfl

/-- Settles O13: the frames, the fields by arithmetic, the bodies as they are laid out, and the codes by their tables. -/
theorem outgoingFramesHaveTheirBytes : Obligations.OutgoingFramesHaveTheirBytes := by
  refine ⟨⟨outBytes_reply, outBytes_report⟩, ⟨rfl, crc16_snoc⟩, ⟨fun n _ => ?_, fun n _ => u32_eq n, fun n _ => u48_eq n,
    fun v _ _ => i16_eq v, rfl, rfl, fun _ _ _ => ⟨rfl, rfl⟩, fun name h => ⟨length_wName h, rfl⟩⟩, ⟨fun x => ⟨rfl, rfl⟩,
    fun x => ⟨rfl, reportBody_capture x⟩, fun x => ⟨rfl, rfl⟩, fun x => ⟨rfl, reportBody_cycleChange x⟩, fun _ _ => ⟨rfl, rfl⟩,
    fun x => ⟨rfl, rfl⟩, fun x => ⟨rfl, reportBody_haltChange x⟩, fun x => ⟨rfl, rfl⟩, fun x => ⟨rfl, rfl⟩, fun _ _ => ⟨rfl, rfl⟩⟩,
    ⟨fun r => ?_, fun r => ?_⟩, ?_, ⟨fun d => ?_, fun c => ?_, fun c => ?_, fun m => ?_, fun w => ?_, fun r => ?_, fun t => ?_⟩,
    fun b => ⟨fun _ => roleOf_eq_some, fun _ => linkOf_eq_some, fun _ => lossPolicyOf_eq_some, fun _ => stopKindOf_eq_some,
      fun _ => trigLineOf_eq_some, fun _ => edgeOf_eq_some, fun _ => debounceOf_eq_some, fun _ => polarityOf_eq_some,
      fun _ => resetKindOf_eq_some⟩⟩
  · rw [u16_eq, ← ofNat8_mod n]
    rfl
  · cases r <;> rfl
  · cases r <;> rfl
  · refine ⟨rfl, rfl, rfl, rfl, rfl, rfl, rfl, rfl, rfl, rfl, rfl, rfl, rfl, rfl, rfl, rfl, rfl, rfl, rfl, rfl, rfl⟩
  · cases d with
    | trigger l => cases l <;> rfl
    | _ => rfl
  · cases c with
    | none => rfl
    | some c => unfold cycleStateCode; cases hp : c.phase <;> simp [hp]
  · cases c <;> rfl
  · cases m <;> rfl
  · cases w with
    | none => rfl
    | some w => unfold engineCode; cases hp : w.phase <;> simp [hp]
  · cases r <;> rfl
  · cases t <;> rfl

end Sys2Proof.Machine
end


section
/-! PROOFS. Replies are cached and sent, queued or held (O14). -/

namespace Sys2Proof.Machine

section
variable {s : State} {l : LinkId}

/-! ### Placing a reply -/

/-- R172: an idle transmitter with nothing queued takes a reply at once. -/
theorem placeReply_idle (x : Reply) (hr : (s.link l).replies = []) (ht : (s.link l).transmission = none) :
    (placeReply l x s).link l = { s.link l with transmission := some ⟨.reply x, outBytes (.reply x)⟩ } := by
  rw [placeReply_room x (by simp [hr]), startSending_link, State.link_withLink_self, State.link_withLink_self]
  simp [hr, ht]

/-- R172: behind a frame in transmission a reply waits. -/
theorem placeReply_busy (x : Reply) {y : Transmission} (hr : (s.link l).replies.length < 8)
    (ht : (s.link l).transmission = some y) :
    placeReply l x s = s.withLink l { s.link l with replies := (s.link l).replies ++ [x] } := by
  rw [placeReply_room x hr, startSending_link]
  simp [ht]

/-- Placing a reply leaves both caches and the request in a block's hands. -/
theorem placeReply_keeps (l : LinkId) (x : Reply) (s : State) : ((placeReply l x s).link l).inHand = (s.link l).inHand ∧
    ((placeReply l x s).link l).cache = (s.link l).cache ∧ ((placeReply l x s).link l).openCache = (s.link l).openCache := by
  by_cases h : (s.link l).replies.length < 8
  · rw [placeReply_room x h, startSending_link, State.link_withLink_self, State.link_withLink_self]
    split <;> exact ⟨rfl, rfl, rfl⟩
  · rw [placeReply_full x (Nat.not_lt.1 h), State.link_withLink_self]
    exact ⟨rfl, rfl, rfl⟩

/-! ### Caching a reply -/

theorem boundSession_withLink (h : Header) (l : LinkId) (k : Link) (s : State) :
    boundSession h (s.withLink l k) = boundSession h s := by cases l <;> rfl

theorem endedFor_withLink (b : EndBlock) (n : SessionIx) (l : LinkId) (k : Link) (s : State) :
    (s.withLink l k).endedFor b n = s.endedFor b n := by cases l <;> rfl

/-- R170: the last-request cache after a reply of a session. -/
def cacheAfter (h : Header) (x : Reply) (s : State) : Table (Option CacheEntry) 4 :=
  match boundSession h s with
  | none => (s.link h.link).cache
  | some n =>
    if s.endedFor .linkPort n then (s.link h.link).cache
    else (s.link h.link).cache.put n (some ⟨h.seq, { x with resetReply := false }⟩)

/-- R171: a SESSION_OPEN's reply becomes the open cache. -/
theorem cacheReply_sessionOpen (h : Header) (role : Byte) (c : RawSettings) (x : Reply) (o : Option SessionIx) (s : State) :
    cacheReply h (.sessionOpen role c) x o s =
      s.withLink h.link { s.link h.link with openCache := some ⟨h.seq, { x with resetReply := false }, o⟩ } := rfl

/-- R170: any other reply goes into its session's last-request cache. -/
theorem cacheReply_bound {h : Header} {r : Request} (hr : ∀ role c, r ≠ .sessionOpen role c) (x : Reply)
    (o : Option SessionIx) (s : State) :
    cacheReply h r x o s = s.withLink h.link { s.link h.link with cache := cacheAfter h x s } := by
  unfold cacheReply
  split
  · exact absurd rfl (hr _ _)
  · unfold cacheAfter
    have same : s = s.withLink h.link { s.link h.link with cache := (s.link h.link).cache } :=
      (State.withLink_link s h.link).symm
    cases hb : boundSession h s with
    | none => exact same
    | some n =>
      dsimp only
      split
      · exact same
      · rfl

/-- Caching changes nothing but the caches of the Link Port. -/
theorem cacheReply_link (h : Header) (r : Request) (x : Reply) (o : Option SessionIx) (s : State) :
    ∃ c e, (cacheReply h r x o s).link h.link = { s.link h.link with cache := c, openCache := e } := by
  by_cases hr : ∀ role c, r ≠ .sessionOpen role c
  · exact ⟨_, _, by rw [cacheReply_bound hr, State.link_withLink_self]⟩
  · push Not at hr
    obtain ⟨role, c, rfl⟩ := hr
    exact ⟨_, _, by rw [cacheReply_sessionOpen, State.link_withLink_self]⟩

end

/-- Settles O14: the reply is cached by its kind and placed by the room there is. -/
theorem answerSendsTheReply : Obligations.AnswerSendsTheReply := by
  intro h r a o s k t x
  let s' := s.withLink h.link { k with inHand := none }
  have hs' : s'.link h.link = { k with inHand := none } := State.link_withLink_self ..
  have ht : t = placeReply h.link x (cacheReply h r x o s') := rfl
  obtain ⟨c, e, hl⟩ := cacheReply_link h r x o s'
  obtain ⟨hand, cache, openCache⟩ := placeReply_keeps h.link x (cacheReply h r x o s')
  rw [← ht] at hand cache openCache
  refine ⟨fun ho => by rw [answer, ← ho], (only_answerOpened h (by simp) r a o).2 (.refl _ s), ?_, fun hr hx => ?_,
    fun y hr hx => ?_, fun hr => ?_, ?_, fun hr => ?_⟩
  · rw [hand, hl, hs']
  · rw [ht, placeReply_idle x (by rw [hl, hs']; exact hr) (by rw [hl, hs']; exact hx), hl, hs']
    exact ⟨rfl, hr, rfl⟩
  · rw [ht, placeReply_busy x (by rw [hl, hs']; exact hr) (by rw [hl, hs']; exact hx), State.link_withLink_self, hl, hs']
    exact ⟨hx, rfl, rfl⟩
  · rw [ht, placeReply_full x (by rw [hl, hs']; exact hr), State.link_withLink_self, hl, hs']
    refine ⟨rfl, rfl, fun hd => ?_, fun y hd => ?_⟩
    · cases e : k.dispatch with
      | stopped y => exact absurd e (hd y)
      | ready => simp
      | waiting y => simp
    · simp [hd]
  · rintro ⟨role, c, rfl⟩
    rw [openCache, cache, cacheReply_sessionOpen, State.link_withLink_self, hs']
    exact ⟨rfl, rfl⟩
  · rw [openCache, cache, cacheReply_bound hr, State.link_withLink_self, cacheAfter, boundSession_withLink, hs']
    refine ⟨rfl, fun n hn he => ?_, fun n hn he => ?_, fun hn => ?_⟩
    · simp [hn, s', endedFor_withLink, he]
      exact fun m hm e => absurd e.symm hm
    · simp [hn, s', endedFor_withLink, he]
    · simp [hn]

end Sys2Proof.Machine
end


section
/-! PROOFS. DISPATCH takes the oldest frame through the steps of R169 (O15). -/

namespace Sys2Proof.Machine

section
variable {s : State} {l : LinkId}

/-- R169: DISPATCH with a frame to take. -/
theorem exec_dispatch {f : InFrame} {rest : List InFrame} (hd : (s.link l).dispatch = .ready)
    (hh : (s.link l).inHand = none) (hi : (s.link l).input = f :: rest) :
    exec (.dispatch l) s = .next (dispatchFrame l f (s.withLink l { s.link l with input := rest })) := by
  show Host.Outcome.next (dispatchOldest l s) = _
  simp [dispatchOldest, hd, hh, hi]

/-- R169: DISPATCH with no frame to take, or with a request in a block's hands. -/
theorem exec_dispatch_none (h : (s.link l).dispatch ≠ .ready ∨ (s.link l).inHand ≠ none ∨ (s.link l).input = []) :
    exec (.dispatch l) s = .next s := by
  show Host.Outcome.next (dispatchOldest l s) = _
  simp only [dispatchOldest]
  split
  · next hd hh hi => simp [hd, hh, hi] at h
  · rfl

/-- Steps 1 and 2: the kind and the length. -/
theorem dispatchFrame_cases (l : LinkId) (f : InFrame) (s : State) :
    (parseRequest f.kind f.body = .unknownKind →
      dispatchFrame l f s = refuseUncached (headerOf l f) f.kind .unknownKind s) ∧
    (parseRequest f.kind f.body = .badLength →
      dispatchFrame l f s = refuseUncached (headerOf l f) f.kind .badLength s) ∧
    (∀ r, parseRequest f.kind f.body = .request r → dispatchFrame l f s = dispatchRequest (headerOf l f) r s) := by
  unfold dispatchFrame
  cases parseRequest f.kind f.body <;> simp

/-- Step 3: a SESSION_OPEN is compared with the open cache. -/
theorem dispatchRequest_sessionOpen {h : Header} {role : Byte} {c : RawSettings} :
    (∀ e, (s.link h.link).openCache = some e → e.seq = h.seq →
      dispatchRequest h (.sessionOpen role c) s = placeReply h.link e.reply s) ∧
    ((∀ e, (s.link h.link).openCache = some e → e.seq ≠ h.seq) →
      dispatchRequest h (.sessionOpen role c) s = handOver h (.sessionOpen role c) s) := by
  simp only [dispatchRequest, dispatchOpen]
  cases he : (s.link h.link).openCache with
  | none => simp
  | some e => exact ⟨fun e' h' hs => by cases h'; simp [hs], fun hs => by simp [hs e rfl]⟩

/-- Step 4: any other request needs a session that is OPEN on the link. -/
theorem dispatchRequest_unbound {h : Header} {r : Request} (hr : ∀ role c, r ≠ .sessionOpen role c)
    (hb : boundSession h s = none) : dispatchRequest h r s = refuseUncached h (kindOf r) .noSession s := by
  unfold dispatchRequest
  split
  · exact absurd rfl (hr _ _)
  · simp [dispatchBound, hb]

/-- Steps 4 to 7 for a session that is OPEN on the link. -/
theorem dispatchRequest_bound {h : Header} {r : Request} (hr : ∀ role c, r ≠ .sessionOpen role c) {n : SessionIx}
    (hb : boundSession h s = some n) :
    (s.isEnding n = true → dispatchRequest h r s = refuseUncached h (kindOf r) .noSession s) ∧
    (∀ e, s.isEnding n = false → (s.link h.link).cache.get n = some e → e.seq = h.seq →
      dispatchRequest h r s = placeReply h.link e.reply s) ∧
    (s.isEnding n = false → (∀ e, (s.link h.link).cache.get n = some e → e.seq ≠ h.seq) →
      (s.isControl n = true ∨ observeMaySend r = true → dispatchRequest h r s = handOver h r s) ∧
      (s.isControl n = false → observeMaySend r = false → dispatchRequest h r s = refuse h r .role s)) := by
  have bound : dispatchRequest h r s = dispatchBound h r s := by
    unfold dispatchRequest
    split
    · exact absurd rfl (hr _ _)
    · rfl
  rw [bound]
  refine ⟨fun he => by simp [dispatchBound, hb, he], fun e he hc hs => by simp [dispatchBound, hb, he, hc, hs], fun he hc => ?_⟩
  have uncached : dispatchBound h r s = if s.isControl n || observeMaySend r then handOver h r s else refuse h r .role s := by
    simp only [dispatchBound, hb, he]
    cases hg : (s.link h.link).cache.get n with
    | none => simp
    | some e => simp [hc e hg]
  rw [uncached]
  exact ⟨fun h => if_pos (by simpa using h), fun h h' => if_neg (by simp [h, h'])⟩

end

theorem eq_of_ofLength {b : List Byte} {n : Nat} {r r' : Request} (h : ofLength b n r' = .request r) : r' = r := by
  unfold ofLength at h
  split at h
  · cases h; rfl
  · cases h

/-- R183: a body that is read as a request has that request's kind. -/
theorem kindOf_of_parseRequest {k : Byte} {b : List Byte} {r : Request} (h : parseRequest k b = .request r) : kindOf r = k := by
  have code {r' : Request} {n : Nat} (hr : r' = r) (hk : k.toNat = n) (hn : (kindOf r').toNat = n) : kindOf r = k := by
    subst hr
    exact BitVec.eq_of_toNat_eq (hn.trans hk.symm)
  unfold parseRequest at h
  split at h
  case h_16 hk =>
    split at h
    · cases h
    · exact code (eq_of_ofLength h) hk rfl
  case h_33 => cases h
  all_goals next hk => exact code (eq_of_ofLength h) hk rfl

/-- Settles O15: the frame is taken by `exec_dispatch`, and what its body is read as decides the step that answers it. -/
theorem dispatchFollowsItsSteps : Obligations.DispatchFollowsItsSteps := by
  refine fun l s => ⟨exec_dispatch_none, fun f rest hd hh hi => ?_⟩
  intro u h
  obtain ⟨unknown, badLength, request⟩ := dispatchFrame_cases l f u
  have bound : boundSession h u = boundSession h s := boundSession_withLink ..
  have ending (n : SessionIx) : u.isEnding n = s.isEnding n := by cases l <;> rfl
  have control (n : SessionIx) : u.isControl n = s.isControl n := by cases l <;> rfl
  have link : u.link h.link = { s.link l with input := rest } := State.link_withLink_self ..
  rw [exec_dispatch hd hh hi]
  refine ⟨fun hp => congrArg _ (unknown hp), fun hp => congrArg _ (badLength hp), fun role c hp => ?_,
    fun r hp hr => ⟨fun hb => ?_, fun n hb => ?_⟩⟩
  · obtain ⟨again, fresh⟩ := dispatchRequest_sessionOpen (s := u) (h := h) (role := role) (c := c)
    rw [link] at again fresh
    exact ⟨fun e he hs => congrArg _ ((request _ hp).trans (again e he hs)),
      fun he => congrArg _ ((request _ hp).trans (fresh he))⟩
  · rw [← kindOf_of_parseRequest hp]
    exact congrArg _ ((request _ hp).trans (dispatchRequest_unbound hr (bound.trans hb)))
  · obtain ⟨ended, cached, fresh⟩ := dispatchRequest_bound (s := u) (h := h) hr (bound.trans hb)
    rw [link, ending] at cached fresh
    rw [ending, kindOf_of_parseRequest hp] at ended
    rw [control] at fresh
    exact ⟨fun he => congrArg _ ((request _ hp).trans (ended he)),
      fun e he hc hs => congrArg _ ((request _ hp).trans (cached e he hc hs)),
      fun he hc => ⟨fun hm => congrArg _ ((request _ hp).trans ((fresh he hc).1 hm)),
        fun hm ho => congrArg _ ((request _ hp).trans ((fresh he hc).2 hm ho))⟩⟩

end Sys2Proof.Machine
end


section
/-! PROOFS. How a request command reaches its block (O16). -/

namespace Sys2Proof.Machine

/-! ### The command of a request -/

/-- The SET_ADD's own seal does not wait. -/
theorem sealWaits_eq_false {h : Header} {s : State} (hn : ∀ m inc x, .sealAsked m inc h x ∉ s.notices) :
    sealWaits h s = false := by
  refine List.any_eq_false.2 fun x hx => ?_
  split
  · next m inc g k =>
    rintro hg
    exact hn m inc k (of_decide_eq_true hg ▸ hx)
  · exact Bool.false_ne_true

theorem sealWaits_eq_true {h : Header} {s : State} {m : SessionIx} {inc x : Nat} (hn : .sealAsked m inc h x ∈ s.notices) :
    sealWaits h s = true := List.any_eq_true.2 ⟨_, hn, decide_eq_true rfl⟩

/-- A request command goes through the steps, and its block takes the request by a rule of its own; a SET_ADD whose own
seal waits stays. -/
theorem exec_commandOf (h : Header) (r : Request) : ∃ body : State → State,
    (∀ s, (commandOf h r).wellFormed = true → exec (commandOf h r) s = .next (runRequest h r body s) ∨
      sealWaits h s = true ∧ exec (commandOf h r) s = .next s) ∧
    ((∀ role c, r ≠ .sessionOpen role c) → ∃ b, body = takeRequest (serverOf r) h r b) := by
  cases r
  case sessionOpen role c => exact ⟨_, fun s _ => .inl rfl, fun hr => absurd rfl (hr role c)⟩
  case setAdd f items =>
    refine ⟨takeRequest (.told .setAssembler) h (.setAdd f items) (setAddBody h f items), fun s hw => ?_, fun _ => ⟨_, rfl⟩⟩
    have short : ¬ maxFrameItems < items.length := by
      simpa [commandOf, Instr.wellFormed] using hw
    show execSetAdd h f items s = _ ∨ _ ∧ execSetAdd h f items s = _
    rw [execSetAdd, if_neg short]
    cases hs : sealWaits h s with
    | true => exact .inr ⟨rfl, rfl⟩
    | false => exact .inl rfl
  all_goals exact ⟨_, fun s _ => .inl rfl, fun _ => ⟨_, rfl⟩⟩

/-- The command of a request whose seal does not wait. -/
theorem exec_commandOf_noSeal (h : Header) (r : Request) : ∃ body : State → State,
    (∀ s, (commandOf h r).wellFormed = true → (∀ m inc x, .sealAsked m inc h x ∉ s.notices) →
      exec (commandOf h r) s = .next (runRequest h r body s)) ∧
    ((∀ role c, r ≠ .sessionOpen role c) → ∃ b, body = takeRequest (serverOf r) h r b) := by
  obtain ⟨body, run, hb⟩ := exec_commandOf h r
  refine ⟨body, fun s hw hn => (run s hw).resolve_right fun e => ?_, hb⟩
  rw [sealWaits_eq_false hn] at e
  cases e.1

section
variable {h : Header} {r : Request} {s : State}

/-- R169: a request that has just arrived goes through the steps, and is at its block or answered. -/
theorem exec_arrives (hw : (commandOf h r).wellFormed = true) (hn : NothingBefore h s)
    (hs : ∀ m inc x, .sealAsked m inc h x ∉ s.notices) :
    (dispatchRequest h r (refreshLease h.link h.session s) = handOver h r (refreshLease h.link h.session s) →
      exec (commandOf h r) s = exec (commandOf h r) (handOver h r (refreshLease h.link h.session s))) ∧
    (((dispatchRequest h r (refreshLease h.link h.session s)).link h.link).inHand = none →
      exec (commandOf h r) s = .next (dispatchRequest h r (refreshLease h.link h.session s))) := by
  obtain ⟨body, run, -⟩ := exec_commandOf_noSeal h r
  rw [run s hw hs]
  refine ⟨fun hd => ?_, fun hd => ?_⟩
  · have hand : ((handOver h r (refreshLease h.link h.session s)).link h.link).inHand = some (h, r) := by simp [handOver]
    rw [run _ hw (by simpa [handOver] using hs), runRequest_inHand _ hand, runRequest, bringIn_arrives hn, hd]
    exact congrArg _ (if_pos hand)
  · rw [runRequest, bringIn_arrives hn]
    exact congrArg _ (if_neg (by simp [hd]))

/-- R186: a request in its block's hands is checked before its block's own rule applies. -/
theorem exec_inHand (hw : (commandOf h r).wellFormed = true) (hr : ∀ role c, r ≠ .sessionOpen role c)
    (hi : (s.link h.link).inHand = some (h, r)) (hs : ∀ m inc x, .sealAsked m inc h x ∉ s.notices) :
    ∃ b, exec (commandOf h r) s = .next (takeRequest (serverOf r) h r b s) := by
  obtain ⟨body, run, hb⟩ := exec_commandOf_noSeal h r
  obtain ⟨b, rfl⟩ := hb hr
  exact ⟨b, by rw [run s hw hs, runRequest_inHand _ hi]⟩

/-- R169: a request that is the oldest frame of its link is dispatched, and its block takes it if it has it then. -/
theorem exec_oldest {f : InFrame} {rest : List InFrame} (hw : (commandOf h r).wellFormed = true)
    (hd : (s.link h.link).dispatch = .ready) (hi : (s.link h.link).inHand = none) (hf : (s.link h.link).input = f :: rest)
    (hn : f.session = h.session) (hq : f.seq = h.seq) (hp : parseRequest f.kind f.body = .request r)
    (hs : ∀ m inc x, .sealAsked m inc h x ∉ s.notices) :
    (((dispatchOldest h.link s).link h.link).inHand = some (h, r) →
      exec (commandOf h r) s = exec (commandOf h r) (dispatchOldest h.link s)) ∧
    (((dispatchOldest h.link s).link h.link).inHand ≠ some (h, r) →
      exec (commandOf h r) s = .next (dispatchOldest h.link s)) := by
  obtain ⟨body, run, -⟩ := exec_commandOf_noSeal h r
  have brought : bringIn h r s = dispatchOldest h.link s := by simp [bringIn, hd, hi, hf, frameIs, hn, hq, hp]
  have notices : (dispatchOldest h.link s).notices = s.notices :=
    (show OnlyChanges [.linkA, .linkB] s _ from (only_dispatchOldest h.link (linkPart_mem (by simp) (by simp) _)).2 (.refl _ s))
      .notices (by simp)
  rw [run s hw hs, runRequest, brought]
  refine ⟨fun hh => ?_, fun hh => congrArg _ (if_neg hh)⟩
  rw [run _ hw (by rwa [notices]), runRequest_inHand _ hh]
  exact congrArg _ (if_pos hh)

/-- Assumption 8: a request that is neither in its block's hands nor next on its link. -/
theorem exec_notNext (hw : (commandOf h r).wellFormed = true) (hh : (s.link h.link).inHand ≠ some (h, r))
    (hb : (s.link h.link).dispatch ≠ .ready ∨ (s.link h.link).inHand ≠ none ∨
      ∃ f rest, (s.link h.link).input = f :: rest ∧ ¬ (f.session = h.session ∧ f.seq = h.seq ∧
        parseRequest f.kind f.body = .request r)) : exec (commandOf h r) s = .next s := by
  have brought : bringIn h r s = s := by
    simp only [bringIn]
    split
    · next hd hi hf => simp [hd, hi, hf] at hb
    · next f rest hd hi hf =>
      simp only [hd, hi, hf, List.cons.injEq, ne_eq, not_true_eq_false, false_or] at hb
      obtain ⟨f', rest', ⟨rfl, rfl⟩, hb⟩ := hb
      exact if_neg (by simpa [frameIs, and_assoc] using hb)
    · rfl
  obtain ⟨body, run, -⟩ := exec_commandOf h r
  obtain e | ⟨-, e⟩ := run s hw
  · rw [e, runRequest, brought]
    exact congrArg _ (if_neg hh)
  · exact e

end

/-! ### The encoding check -/

theorem optOk_iff {α : Type} {o : Opt α} {ok : α → Bool} :
    optOk o ok = true ↔ o.presence = 0 ∨ o.presence = 1 ∧ ok o.value = true := by simp [optOk]

theorem flagOf_isSome {b : Byte} : (flagOf b).isSome = true ↔ b = 0 ∨ b = 1 := by
  unfold flagOf
  by_cases h0 : b = 0
  · simp [h0]
  · by_cases h1 : b = 1
    · simp [h1]
    · simp only [h0, h1]
      decide

theorem nameOk_iff {n : RawName} : nameOk n = true ↔
    n.len.toNat ≤ 8 ∧ ∀ c ∈ n.chars.toList.take n.len.toNat, 0x20 ≤ c.toNat ∧ c.toNat ≤ 0x7E := by
  simp [nameOk, nameOf]

theorem settingsOk_iff {x : RawSettings} : settingsOk x = true ↔
    (x.name.presence = 0 ∨ x.name.presence = 1 ∧ x.name.value.len.toNat ≤ 8 ∧
      ∀ c ∈ x.name.value.chars.toList.take x.name.value.len.toNat, 0x20 ≤ c.toNat ∧ c.toNat ≤ 0x7E) ∧
    (x.lease.presence = 0 ∨ x.lease.presence = 1 ∧ True) ∧ (x.quota.presence = 0 ∨ x.quota.presence = 1 ∧ True) ∧
    (x.lowMark.presence = 0 ∨ x.lowMark.presence = 1 ∧ True) ∧ (x.retry.presence = 0 ∨ x.retry.presence = 1 ∧ True) ∧
    (x.slotChange.presence = 0 ∨ x.slotChange.presence = 1 ∧ (x.slotChange.value = 0 ∨ x.slotChange.value = 1)) ∧
    (x.haltChange.presence = 0 ∨ x.haltChange.presence = 1 ∧ (x.haltChange.value = 0 ∨ x.haltChange.value = 1)) ∧
    (x.sessionLost.presence = 0 ∨ x.sessionLost.presence = 1 ∧ (x.sessionLost.value = 0 ∨ x.sessionLost.value = 1)) ∧
    (x.deviation.presence = 0 ∨ x.deviation.presence = 1 ∧ (x.deviation.value = 0 ∨ x.deviation.value = 1)) := by
  simp only [settingsOk, Bool.and_eq_true, optOk_iff, nameOk_iff, flagOf_isSome, and_assoc]

/-- An enumeration's codes are those up to its last. -/
theorem enumOf_isSome {b : Byte} : ((roleOf b).isSome = true ↔ b.toNat ≤ 1) ∧ ((linkOf b).isSome = true ↔ b.toNat ≤ 1) ∧
    ((lossPolicyOf b).isSome = true ↔ b.toNat ≤ 1) ∧ ((latePolicyOf b).isSome = true ↔ b.toNat ≤ 1) ∧
    ((stopKindOf b).isSome = true ↔ b.toNat ≤ 1) ∧ ((trigLineOf b).isSome = true ↔ b.toNat ≤ 1) ∧
    ((polarityOf b).isSome = true ↔ b.toNat ≤ 1) ∧ ((resetKindOf b).isSome = true ↔ b.toNat ≤ 1) ∧
    ((edgeOf b).isSome = true ↔ b.toNat ≤ 2) ∧ ((listModeOf b).isSome = true ↔ b.toNat ≤ 2) ∧
    ((debounceOf b).isSome = true ↔ b.toNat ≤ 4) := by
  unfold roleOf linkOf lossPolicyOf latePolicyOf stopKindOf trigLineOf polarityOf resetKindOf edgeOf listModeOf debounceOf
  refine ⟨?_, ?_, ?_, ?_, ?_, ?_, ?_, ?_, ?_, ?_, ?_⟩
  all_goals
    split <;> simp only [Option.isSome_some, Option.isSome_none, true_iff, false_iff, Bool.false_eq_true, imp_false] at * <;>
      omega

/-- Settles O16: what each lemma says of a request command, and R186's check request by request. -/
theorem requestsReachTheirBlock : Obligations.RequestsReachTheirBlock := by
  refine ⟨fun h r s hw hn hs => exec_arrives hw hn hs, fun h r s hw hr hi hs => ?_,
    ⟨fun h r f rest s hw hd hi hf hn hq hp hs => ⟨_, rfl, exec_oldest hw hd hi hf hn hq hp hs⟩,
      fun h r s hw hh hb => exec_notNext hw hh hb⟩, fun h f items m inc x s hw hn => ?_, fun r => ?_⟩
  · obtain ⟨b, e⟩ := exec_inHand hw hr hi hs
    rw [e]
    refine ⟨fun he => ?_, fun he hb => ?_, fun n he hb hd => ?_⟩
    · simp [takeRequest, he]
    · simp [takeRequest, he, hb]
    · simp [takeRequest, he, hb, hd]
  · have short : ¬ maxFrameItems < items.length := by simpa [commandOf, Instr.wellFormed] using hw
    show execSetAdd h f items s = _
    rw [execSetAdd, if_neg short, if_pos (sealWaits_eq_true hn)]
  · intro flag opt name settings
    have enums (b : Byte) := enumOf_isSome (b := b)
    cases r <;>
      simp only [encodingOk, Bool.and_eq_true, decide_eq_true_eq, flagOf_isSome, settingsOk_iff, enums, and_assoc, flag, opt, name,
        settings]

end Sys2Proof.Machine
end


section
/-! PROOFS. What moves a receiver (O17). -/

namespace Sys2Proof.Machine

/-! ### Characters -/

/-- R164: what a character of a partial frame makes of the frame. -/
theorem Link.append_eq (k : Link) (bytes : List Byte) (byte : Byte) (gap : Nat) : k.append bytes byte gap =
    if (rd8 (bytes ++ [byte]) 0).toNat < 5 ∨ 245 < (rd8 (bytes ++ [byte]) 0).toNat then k.crcError
    else if (bytes ++ [byte]).length < (rd8 (bytes ++ [byte]) 0).toNat + 3 then
      { k with receiver := .frame (bytes ++ [byte]) gap }
    else if crcAgrees (bytes ++ [byte]) then { k with receiver := .hunt, complete := k.complete ++ [bytes ++ [byte]] }
    else k.crcError := by
  unfold Link.append
  cases hb : bytes ++ [byte] with
  | nil => simp at hb
  | cons l rest =>
    have head : rd8 (l :: rest) 0 = l := rfl
    have outside : lengthOk l = false ↔ l.toNat < 5 ∨ 245 < l.toNat := by
      simp [lengthOk]
      omega
    simp only [head, frameLength, Bool.not_eq_true', outside]
    rfl

theorem frameBytesOk_iff {bytes : List Byte} : frameBytesOk bytes = true ↔
    5 ≤ (rd8 bytes 0).toNat ∧ (rd8 bytes 0).toNat ≤ 245 ∧ bytes.length = (rd8 bytes 0).toNat + 3 := by
  cases bytes with
  | nil => simp [frameBytesOk, rd8]
  | cons l rest => simp [frameBytesOk, rd8, and_assoc]

theorem rd8_zero_append {a : List Byte} (h : a ≠ []) (b : List Byte) : rd8 (a ++ b) 0 = rd8 a 0 := by
  cases a with
  | nil => exact absurd rfl h
  | cons x xs => rfl

/-- R164: the rest of a whole frame completes the frame. -/
theorem Link.characters_frame (k : Link) (gap : Nat) (rest : List Byte) : ∀ (done : List Byte) (g : Nat), rest ≠ [] →
    frameBytesOk (done ++ rest) = true → crcAgrees (done ++ rest) = true →
    rest.foldl (fun x b => x.character b true gap) { k with receiver := .frame done g } =
      { k with receiver := .hunt, complete := k.complete ++ [done ++ rest] } := by
  induction rest with
  | nil => exact fun _ _ h => absurd rfl h
  | cons b bs ih =>
    intro done g _ hok hcrc
    have split : done ++ b :: bs = done ++ [b] ++ bs := by simp
    rw [split] at hok hcrc ⊢
    obtain ⟨low, high, length⟩ := frameBytesOk_iff.1 hok
    rw [rd8_zero_append (by simp)] at low high length
    rw [List.length_append] at length
    have first : Link.character { k with receiver := .frame done g } b true gap =
        if bs = [] then { k with receiver := .hunt, complete := k.complete ++ [done ++ [b]] }
        else { k with receiver := .frame (done ++ [b]) gap } := by
      show Link.append _ done b gap = _
      rw [Link.append_eq, if_neg (by omega)]
      by_cases h : bs = []
      · subst h
        rw [List.length_nil] at length
        rw [List.append_nil] at hcrc
        rw [if_neg (by omega), if_pos hcrc, if_pos rfl]
      · have : 0 < bs.length := List.length_pos_iff.2 h
        rw [if_pos (by omega), if_neg h]
    rw [List.foldl_cons, first]
    split
    · next h => subst h; simp
    · next h => exact ih _ _ h hok hcrc

/-- R164: the characters of a whole frame. -/
theorem Link.characters_whole (k : Link) (bytes : List Byte) (gap : Nat) (hk : k.receiver = .hunt)
    (hok : frameBytesOk bytes = true) (hcrc : crcAgrees bytes = true) :
    (startByte :: bytes).foldl (fun x b => x.character b true gap) k = { k with complete := k.complete ++ [bytes] } := by
  have start : k.character startByte true gap = { k with receiver := .frame [] gap } := by simp [Link.character, hk]
  have some : bytes ≠ [] := by rintro rfl; cases hok
  rw [List.foldl_cons, start, k.characters_frame gap bytes [] gap some hok hcrc]
  cases k
  cases hk
  rfl

/-! ### Line events -/

section
variable (l : LinkId) (s : State)

theorem exec_characterReceived (byte : Byte) (stop : Bool) : exec (.characterReceived l byte stop) s =
    .next (s.withLink l ((s.link l).character byte stop (s.clock.uptime + 2000))) := rfl

theorem withLink_same {k : Link} (h : k = s.link l) : s.withLink l k = s := by rw [h, State.withLink_link]

end

/-- Settles O17: a frame by induction on its characters, and each event by the receiver's state. -/
theorem lineEventsMoveTheReceiver : Obligations.LineEventsMoveTheReceiver := by
  refine ⟨fun k bytes gap => k.characters_whole bytes gap, fun l s => ?_⟩
  intro k crcError
  refine ⟨fun byte stop hk => ?_, fun byte bytes gap hk => ?_, fun byte bytes gap hk => ?_, fun byte stop hk => ?_,
    fun bytes gap hk => ?_, fun hk => ?_, fun hk => ?_, fun t hk => ?_, ?_, fun t hk ht hb => ?_, fun hk => ?_⟩
  · have e : (s.link l).receiver = .hunt := hk
    rw [exec_characterReceived, Link.character, e]
    by_cases h : stop = true ∧ byte = 0xD5
    · rw [if_pos h]
      simp [h, startByte, k]
    · rw [if_neg h]
      refine congrArg _ (withLink_same l s (if_neg ?_))
      rwa [Bool.and_eq_true, decide_eq_true_eq]
  · have e : (s.link l).receiver = .frame bytes gap := hk
    rw [exec_characterReceived, Link.character, e]
    rfl
  · have e : (s.link l).receiver = .frame bytes gap := hk
    intro all len
    rw [exec_characterReceived, Link.character, e]
    simp only [if_true, Link.append_eq]
    split
    · rfl
    · split
      · rfl
      · split <;> rfl
  · have e : (s.link l).receiver = .lineBreak := hk
    rw [exec_characterReceived, Link.character, e]
    exact congrArg _ (withLink_same l s rfl)
  · have e : (s.link l).receiver = .frame bytes gap := hk
    show execGapDeadlineExpiry l s = _
    simp [execGapDeadlineExpiry, e, State.elapsed, changeLink, k, bump, Config.heldCount]
  · show execGapDeadlineExpiry l s = _
    unfold execGapDeadlineExpiry
    split
    · next e => exact absurd e (hk _ _)
    · rfl
    · rfl
  · have e : (s.link l).spacingSince = none := hk
    show execLineGoesToSpacing l s = _
    simp [execLineGoesToSpacing, e, changeLink, k]
  · have e : (s.link l).spacingSince = some t := hk
    show execLineGoesToSpacing l s = _
    simp [execLineGoesToSpacing, e]
  · show Host.Outcome.next (s.withLink l _) = _
    cases e : (s.link l).receiver <;> simp [e, k]
  · have e : (s.link l).spacingSince = some t := hk
    show execLinkBreak l s = _
    have hb' : (s.link l).receiver ≠ .lineBreak := hb
    simp only [execLinkBreak, e, State.elapsed, breakTime, ht, hb', decide_true, ne_eq, not_false_eq_true, Bool.and_self,
      if_true]
    show Host.Outcome.next (post (.linkBroken l) (s.withLink l (s.link l).broken)) = _
    cases hd : (s.link l).dispatch <;> simp [Link.broken, hd, k, bump, Config.heldCount]
  · show execLinkBreak l s = _
    unfold execLinkBreak
    split
    · next t e =>
      rw [if_neg]
      have e' : k.spacingSince = some t := e
      simp only [e', Option.some.injEq, reduceCtorEq, false_or] at hk
      simp only [State.elapsed, breakTime, Bool.and_eq_true, decide_eq_true_eq, not_and_or, ne_eq, not_not]
      obtain h | ⟨t', rfl, h⟩ := hk
      · exact .inr h
      · exact .inl fun hc => absurd (of_decide_eq_true hc) (Nat.not_le.2 h)
    · rfl

end Sys2Proof.Machine
end


section
/-! PROOFS. Complete frames are taken (O18). -/

namespace Sys2Proof.Machine

section
variable {l : LinkId} {s u w : State} {f : InFrame}

/-! ### Replies made at reception -/

/-- R167, R168: a reply made at reception is sent, waits, or is not made. -/
theorem placeOrDiscard_cases (x : Reply) (w : State) :
    (8 ≤ (w.link l).replies.length → placeOrDiscard l x w = w) ∧
    (∀ y, (w.link l).replies.length < 8 → (w.link l).transmission = some y →
      placeOrDiscard l x w = w.withLink l { w.link l with replies := (w.link l).replies ++ [x] }) ∧
    (∀ q rest, (w.link l).replies.length < 8 → (w.link l).transmission = none → (w.link l).replies ++ [x] = q :: rest →
      placeOrDiscard l x w = w.withLink l
        { w.link l with replies := rest, transmission := some ⟨.reply q, outBytes (.reply q)⟩ }) := by
  have placed (h : (w.link l).replies.length < 8) : placeOrDiscard l x w =
      startSending l (w.withLink l { w.link l with replies := (w.link l).replies ++ [x] }) := if_pos h
  refine ⟨fun h => if_neg (Nat.not_lt.2 h), fun y h ht => ?_, fun q rest h ht hq => ?_⟩
  · rw [placed h, startSending_link]
    simp [ht]
  · rw [placed h, startSending_link]
    simp [ht, hq]

/-! ### Leases -/

/-- R152: the lease that a frame refreshes. -/
theorem refreshLease_some {b : Byte} {n : SessionIx} {r : Session} (hb : sessionOf b = some n) (hr : s.session n = some r)
    (hl : r.link = l) (he : r.ending = none) : refreshLease l b s =
      s.withSession n (some { r with deadline := some (min (s.clock.rig + r.lease * 1000) (2 ^ 48 - 1)) }) := by
  simp only [refreshLease, hb, hr, hl, he]
  rfl

theorem refreshLease_none {b : Byte} (h : ∀ n r, sessionOf b = some n → s.session n = some r → r.link ≠ l ∨ r.ending ≠ none) :
    refreshLease l b s = s := by
  obtain e | ⟨n, r, hb, hr, hl, he, -⟩ := refreshLease_cases l b s
  · exact e
  · exact (h n r hb hr).elim (fun e => absurd hl e) fun e => absurd he e

/-- Refreshing a lease changes no more of a session than its deadline. -/
theorem refreshLease_session (l : LinkId) (b : Byte) (s : State) (n : SessionIx) : ∃ g : Session → Option Nat,
    (refreshLease l b s).session n = (s.session n).map fun r => { r with deadline := g r } := by
  have same : s.session n = (s.session n).map fun r => { r with deadline := r.deadline } := by
    cases s.session n <;> rfl
  obtain e | ⟨m, q, hb, hq, -, -, e⟩ := refreshLease_cases l b s
  · exact ⟨Session.deadline, by rw [e]; exact same⟩
  · by_cases hm : m = n
    · subst hm
      exact ⟨fun _ => some (s.after (q.lease * 1000)), by rw [e, State.session_withSession, if_pos rfl, hq]; rfl⟩
    · exact ⟨Session.deadline, by rw [e, State.session_withSession, if_neg hm]; exact same⟩

/-! ### Frames taken by their class -/

theorem takeFrame_request (hc : f.cls.toNat = 1) : takeFrame l f u = offerRequest l f (refreshLease l f.session u) := by
  simp [takeFrame, hc]

theorem takeFrame_ack (hc : f.cls.toNat = 4) : takeFrame l f u = handAck l f (refreshLease l f.session u) := by
  simp [takeFrame, hc]

theorem takeFrame_other (h1 : f.cls.toNat ≠ 1) (h4 : f.cls.toNat ≠ 4) : takeFrame l f u =
    placeOrDiscard l (receptionReply f .refused (some .unknownKind)) (refreshLease l f.session u) := by
  unfold takeFrame
  dsimp only
  split
  · next h => exact absurd h h1
  · next h => exact absurd h h4
  · rfl

/-- R167: an ACK of a session that is OPEN, not ending and bound to the link is handed to the Report Unit. -/
theorem handAck_some {n : SessionIx} {r : Session} (hb : sessionOf f.session = some n) (hr : w.session n = some r)
    (hl : r.link = l) (he : r.ending = none) (hbody : f.body = []) :
    handAck l f w = post (.ack l n r.incarnation f.seq.toNat) w := by
  simp [handAck, hb, hr, hl, he, hbody]

theorem handAck_none (h : ∀ n r, sessionOf f.session = some n → w.session n = some r →
    r.link ≠ l ∨ r.ending ≠ none ∨ f.body ≠ []) : handAck l f w = w := by
  unfold handAck
  split
  · rfl
  · next n hb =>
    split
    · rfl
    · next r hr =>
      refine if_neg fun hc => ?_
      simp only [Bool.and_eq_true, decide_eq_true_eq, Option.isNone_iff_eq_none] at hc
      obtain ⟨⟨hl, he⟩, hbody⟩ := hc
      exact (h n r hb hr).elim (fun e => e hl) fun e => e.elim (fun e => e he) fun e => e hbody

/-- R167: what FRAME_RECEIVED takes. -/
theorem receiveFrame_takes {bytes : List Byte} (h : (∃ rest, (s.link l).complete = bytes :: rest ∧
      u = s.withLink l { s.link l with complete := rest }) ∨
    (s.link l).complete = [] ∧ (s.link l).receiver = .hunt ∧ crcAgrees bytes = true ∧ u = s) :
    receiveFrame l bytes s = takeFrame l (readFrame bytes) u := by
  obtain ⟨rest, hc, rfl⟩ | ⟨hc, hr, hcrc, rfl⟩ := h
  · simp [receiveFrame, hc]
  · simp [receiveFrame, hc, hr, arriveFrame, hcrc]

end

/-- Settles O18: the frame is taken by its class, and what is answered at reception by the room there is. -/
theorem framesAreTaken : Obligations.FramesAreTaken := by
  intro l bytes s hok k f
  have exec : exec (.frameReceived l bytes) s = .next (receiveFrame l bytes s) := if_pos hok
  rw [exec]
  refine ⟨fun hc hr hcrc => ?_, fun u hu => ?_⟩
  · have hc' : (s.link l).complete = [] := hc
    have hr' : (s.link l).receiver = .hunt := hr
    simp only [receiveFrame, hc', hr', arriveFrame, hcrc]
    rfl
  · intro v j answered sends
    rw [receiveFrame_takes hu]
    have sessions (n : SessionIx) : u.session n = s.session n := by
      obtain ⟨rest, -, rfl⟩ | ⟨-, -, -, rfl⟩ := hu
      · exact State.session_withLink ..
      · rfl
    have clock : u.clock = s.clock := by
      obtain ⟨rest, -, rfl⟩ | ⟨-, -, -, rfl⟩ := hu
      · simp
      · rfl
    have link : j = u.link l := refreshLease_link ..
    have kept : j.replies = k.replies ∧ j.transmission = k.transmission ∧ j.input = k.input := by
      rw [link]
      obtain ⟨rest, -, rfl⟩ | ⟨-, -, -, rfl⟩ := hu
      · rw [State.link_withLink_self]; exact ⟨rfl, rfl, rfl⟩
      · exact ⟨rfl, rfl, rfl⟩
    obtain ⟨replies, transmission, input⟩ := kept
    have sent (x : Reply) (w : State) (hw : (w.link l).replies = k.replies ∧ (w.link l).transmission = k.transmission)
        (ht : takeFrame l f u = placeOrDiscard l x w) : sends x w := by
      obtain ⟨full, busy, idle⟩ := placeOrDiscard_cases (l := l) x w
      rw [hw.1] at full busy idle
      rw [hw.2] at busy idle
      rw [← ht, ← receiveFrame_takes hu] at full busy idle
      exact ⟨fun h => congrArg _ (full h), fun y h hy => congrArg _ (busy y h hy),
        fun q rest h hy hq => congrArg _ (idle q rest h hy hq)⟩
    refine ⟨fun n r hn hr hl he => ?_, fun h => ?_, fun hc hi => ?_, fun hc hi => ?_, fun n r hc hn hr hl he hb => ?_,
      fun ⟨hc, h⟩ => ?_, fun h1 h4 => ?_⟩
    · rw [← clock]
      exact refreshLease_some hn ((sessions n).trans hr) hl he
    · exact refreshLease_none fun n r hn hr => h n r hn ((sessions n).symm.trans hr)
    · rw [takeFrame_request hc, offerRequest, if_pos]
      · rfl
      · show j.input.length < 4
        rw [input]; exact hi
    · refine sent _ _ ?_ ?_
      · rw [State.link_withLink_self]; exact ⟨replies, transmission⟩
      · rw [takeFrame_request hc, offerRequest, if_neg]
        · rfl
        · show ¬ j.input.length < 4
          rw [input]; exact Nat.not_lt.2 hi
    · obtain ⟨g, hg⟩ := refreshLease_session l f.session u n
      rw [sessions, hr] at hg
      rw [takeFrame_ack hc, handAck_some hn hg hl he hb]
    · rw [takeFrame_ack hc, handAck_none fun n q hn hq => ?_]
      obtain ⟨g, hg⟩ := refreshLease_session l f.session u n
      rw [hq, sessions] at hg
      cases hr : s.session n with
      | none => rw [hr] at hg; cases hg
      | some r =>
        rw [hr] at hg
        cases hg
        exact h n r hn hr
    · exact sent _ _ ⟨replies, transmission⟩ (takeFrame_other h1 h4)

end Sys2Proof.Machine
end


section
/-! PROOFS. The end of a frame (O19). -/

namespace Sys2Proof.Machine

section
variable {l : LinkId} {s : State}

/-- The Link Port whose transmitter is free and takes the next frame. -/
def Link.next (k : Link) : Link :=
  match k.replies, k.reports with
  | r :: rest, _ => { k with replies := rest, transmission := some ⟨.reply r, outBytes (.reply r)⟩ }
  | [], f :: rest => { k with reports := rest, transmission := some ⟨.report f, outBytes (.report f)⟩ }
  | [], [] => { k with transmission := none }

theorem startSending_freed (l : LinkId) (s : State) :
    startSending l (changeLink l (fun k => { k with transmission := none }) s) = s.withLink l (s.link l).next := by
  rw [startSending_link]
  cases hr : (s.link l).replies <;> cases hf : (s.link l).reports <;>
    simp [changeLink, Link.next, hr, hf]

/-- R169: with nothing held the dispatch has nothing to move. -/
theorem moveHeldReply_none (h : (s.link l).dispatch = .ready ∨ (s.link l).dispatch = .stopped none) :
    moveHeldReply l s = s := by
  unfold moveHeldReply
  obtain h | h := h <;> simp [h]

/-- R169: a held reply moves into the room, behind a frame in transmission. -/
theorem moveHeldReply_held {y : Reply} {d : DispatchState} {x : Transmission}
    (h : (s.link l).dispatch = .waiting y ∧ d = .ready ∨ (s.link l).dispatch = .stopped (some y) ∧ d = .stopped none)
    (hr : (s.link l).replies.length < 8) (ht : (s.link l).transmission = some x) :
    moveHeldReply l s = s.withLink l { s.link l with replies := (s.link l).replies ++ [y], dispatch := d } := by
  have moved : moveHeldReply l s =
      startSending l (s.withLink l { s.link l with replies := (s.link l).replies ++ [y], dispatch := d }) := by
    have room : (s.link l).replies.length < Config.maxReplies := hr
    simp only [moveHeldReply, room, if_true]
    obtain ⟨h, rfl⟩ | ⟨h, rfl⟩ := h <;> simp [h]
  rw [moved, startSending_link]
  simp [ht]

/-- R172, R161: what the end of a frame is told to. -/
theorem tellSent_parts (l : LinkId) (x : OutFrame) (s : State) : (tellSent l x s).link l = s.link l ∧
    (∀ f, x = .report f → (tellSent l x s).notices = s.notices ++ [.frameEnd l f.session f.uid] ∧
      (tellSent l x s).sessions = s.sessions) ∧
    (∀ r, x = .reply r → (tellSent l x s).notices = s.notices ∧
      (tellSent l x s).sessions = { s.sessions with resetDue := s.sessions.resetDue || r.resetReply }) := by
  cases x with
  | report f =>
    refine ⟨by simp [tellSent, post], fun g hg => ?_, fun _ hr => OutFrame.noConfusion hr⟩
    cases hg
    exact ⟨rfl, rfl⟩
  | reply r =>
    refine ⟨?_, fun _ hf => OutFrame.noConfusion hf, fun q hq => ?_⟩
    · by_cases hr : r.resetReply = true <;> simp [tellSent, hr]
    · cases hq
      cases hr : r.resetReply <;> simp [tellSent, hr]

end

/-- Settles O19: the transmitter takes its next frame, and then the dispatch moves what it holds. -/
theorem frameSentFreesTheTransmitter : Obligations.FrameSentFreesTheTransmitter := by
  intro l s k
  refine ⟨fun h => ?_, fun x h => ?_⟩
  · have h' : (s.link l).transmission = none := h
    show execFrameSent l s = _
    simp [execFrameSent, h']
  · have h' : (s.link l).transmission = some x := h
    obtain ⟨link, report, reply⟩ := tellSent_parts l x.frame s
    have only : OnlyChanges [.linkA, .linkB] (tellSent l x.frame s) (sendNext l (tellSent l x.frame s)) :=
      (only_sendNext l (linkPart_mem (by simp) (by simp) l)).2 (.refl _ _)
    have sent : sendNext l (tellSent l x.frame s) = moveHeldReply l ((tellSent l x.frame s).withLink l k.next) := by
      rw [sendNext, startSending_freed, link]
    have same {q : Link} (hd : k.dispatch = .ready ∨ k.dispatch = .stopped none) (hq : k.next = q)
        (hqd : q.dispatch = k.dispatch) : (sendNext l (tellSent l x.frame s)).link l = q := by
      rw [sent, hq, moveHeldReply_none (by rw [State.link_withLink_self, hqd]; exact hd), State.link_withLink_self]
    refine ⟨sendNext l (tellSent l x.frame s), by show execFrameSent l s = _; simp [execFrameSent, h'],
      fun f hf => ?_, fun r hr => ?_, fun hd => ⟨fun r rest hr => ?_, fun f rest hr hf => ?_, fun hr hf => ?_⟩,
      fun y r rest d hd hr hl => ?_⟩
    · rw [only .notices (by simp), only .sessions (by simp)]
      exact report f hf
    · rw [only .notices (by simp), only .sessions (by simp)]
      exact reply r hr
    · exact same hd (by simp [Link.next, hr]) rfl
    · exact same hd (by simp [Link.next, hr, hf]) rfl
    · exact same hd (by simp [Link.next, hr, hf]) rfl
    · have next : k.next = { k with replies := rest, transmission := some ⟨.reply r, outBytes (.reply r)⟩ } := by
        simp [Link.next, hr]
      rw [sent, next, moveHeldReply_held (y := y) (d := d) (x := ⟨.reply r, outBytes (.reply r)⟩)
        (by simpa using hd) (by simpa using hl) (by simp)]
      simp

end Sys2Proof.Machine
end


section
/-! PROOFS. TIME_SET and DEVICE_CONFIG (O21). -/

namespace Sys2Proof.Machine

section
variable {s : State} {n : SessionIx} {c : ChanIx}

/-! ### What a TIME_SET makes of each record -/

theorem session_setTime (x : Nat) (s : State) (n : SessionIx) :
    (setTime x s).session n = (s.session n).map (shiftLease (x - s.clock.rig)) := by
  simp [setTime, shiftSessions, State.session, shiftTrigger, shiftEngine, shiftSets, shiftClaims, State.withSets]

theorem channel_setTime (x : Nat) (s : State) (c : ChanIx) :
    (setTime x s).channel c = (s.channel c).map (shiftRamp (x - s.clock.rig)) := by
  simp [setTime, shiftSessions, State.channel, shiftTrigger, shiftEngine, shiftSets, shiftClaims, State.withSets]

theorem shiftLease_eq (d : Int) (r : Session) : shiftLease d r =
    if r.ending = none then { r with deadline := r.deadline.map (shiftTime d) } else r := by
  unfold shiftLease
  cases r.ending <;> rfl

/-- R9: what a TIME_SET makes of a channel with a ramp. -/
theorem shiftRamp_ramp (d : Int) {x : Channel} {r : Ramp} (hr : x.ramp = some r) :
    ((r.endTime : Int) + d < 0 → shiftRamp d x = { x with ramp := none }) ∧
    (0 ≤ (r.endTime : Int) + d → (r.startTime : Int) + d < 0 → shiftRamp d x = { x with
      ramp := some { r with start := x.interpolated (Int.toNat (-d)), startTime := 0, endTime := shiftTime d r.endTime } }) ∧
    (0 ≤ (r.endTime : Int) + d → 0 ≤ (r.startTime : Int) + d → shiftRamp d x = { x with
      ramp := some { r with startTime := shiftTime d r.startTime, endTime := shiftTime d r.endTime } }) := by
  simp only [shiftRamp, hr]
  exact ⟨fun h => if_pos h, fun h h' => by rw [if_neg (by omega), if_pos h'],
    fun h h' => by rw [if_neg (by omega), if_neg (by omega)]⟩

theorem shiftTime_bounds (d : Int) (t : Nat) : ((t : Int) + d < 0 → shiftTime d t = 0) ∧
    (0 ≤ (t : Int) + d → (shiftTime d t : Int) = min ((t : Int) + d) (2 ^ 48 - 1)) := by
  unfold shiftTime capTime Config.maxTime
  constructor
  · intro h
    rw [Int.toNat_of_nonpos (by omega)]
    rfl
  · intro h
    omega

end

/-- Settles O21: the requests by their rules, and a TIME_SET part by part. -/
theorem timeBaseTakesItsRequests : Obligations.TimeBaseTakesItsRequests := by
  refine ⟨fun h n margin s a => serve_atBlock a _, fun h n time s a => ⟨fun hu => ?_, fun hs hc => ?_⟩, fun time s => ?_,
    shiftTime_bounds⟩
  · have inUse : timeInUse s = true := by
      obtain ⟨x, hx, ht⟩ | ⟨m, c, hc⟩ := hu
      · exact Bool.or_eq_true_iff.2 (.inl (List.any_eq_true.2 ⟨x, hx, ht⟩))
      · exact Bool.or_eq_true_iff.2 (.inr (List.any_eq_true.2 ⟨m, List.mem_finRange m, by simp [hc]⟩))
    exact (serve_atBlock a _).trans (by simp [timeSetBody, inUse])
  · have free : timeInUse s = false := by
      simp only [timeInUse, Bool.or_eq_false_iff, List.any_eq_false]
      exact ⟨fun x hx => by simp [hs x hx], fun m _ => by simp [hc m]⟩
    exact (serve_atBlock a _).trans (by simp [timeSetBody, free])
  · intro d t
    refine ⟨rfl, rfl, rfl, fun n => ?_, rfl, fun x hx => ?_, fun hx => ?_, fun c hc => ?_, fun c x hc hr => ?_,
      fun c x r hc hr => ?_, rfl, ?_, fun l => ?_, rfl, rfl, rfl⟩
    · rw [session_setTime]
      exact congrArg (Option.map · _) (funext (shiftLease_eq d))
    · show shiftHaltEntry d s.claims.haltEntry = _
      rw [hx]
      rfl
    · show shiftHaltEntry d s.claims.haltEntry = _
      rw [hx]
      rfl
    · rw [channel_setTime, hc]
      rfl
    · rw [channel_setTime, hc]
      simp [shiftRamp, hr]
    · obtain ⟨gone, rebased, moved⟩ := shiftRamp_ramp d hr
      rw [channel_setTime, hc]
      exact ⟨fun h => congrArg some (gone h), fun h h' => congrArg some (rebased h h'), fun h h' => congrArg some (moved h h')⟩
    · rfl
    · cases l <;> rfl

end Sys2Proof.Machine
end


section
/-! PROOFS. What numbers of channels, slots and sessions stand for. -/

namespace Sys2Proof.Machine

section
variable {b first last : Byte} {a c : ChanIx}

theorem chanOf_eq_none (h : 31 < b.toNat) : chanOf b = none := dif_neg (by omega)

theorem chanOf_eq_some : chanOf b = some c ↔ b.toNat = c.val := by
  unfold chanOf
  split
  · rw [Option.some.injEq, Fin.ext_iff]
  · next h => exact ⟨nofun, fun e => absurd (e ▸ c.isLt) h⟩

theorem slotOf_eq_none (h : 4 ≤ b.toNat) : slotOf b = none := dif_neg (by omega)

theorem sessionOf_eq_none (h : b = 0 ∨ 4 < b.toNat) : sessionOf b = none := by
  unfold sessionOf
  obtain rfl | h := h
  · rfl
  · exact dif_neg (by omega)

theorem sessionOf_eq_some {n : SessionIx} : sessionOf b = some n ↔ b.toNat = n.val + 1 := by
  unfold sessionOf
  by_cases h0 : b = 0
  · subst h0
    simp
  · have : b.toNat ≠ 0 := fun e => h0 (BitVec.eq_of_toNat_eq e)
    by_cases h : b.toNat - 1 < 4
    · rw [dif_pos h, if_neg h0, Option.some.injEq, Fin.ext_iff]
      show b.toNat - 1 = n.val ↔ _
      omega
    · rw [dif_neg h]
      exact ⟨nofun, fun e => absurd n.isLt (by omega)⟩

theorem rangeOf_eq_some : rangeOf first last = some (a, c) ↔ chanOf first = some a ∧ chanOf last = some c ∧ a ≤ c := by
  unfold rangeOf
  split
  · next a' c' ha hc =>
    rw [ha, hc, Option.some.injEq, Option.some.injEq]
    split
    · next h => exact ⟨fun e => by cases e; exact ⟨rfl, rfl, h⟩, fun ⟨e, e', _⟩ => by rw [e, e']⟩
    · next h => exact ⟨nofun, fun ⟨e, e', h'⟩ => absurd (e ▸ e' ▸ h') h⟩
  · next h => exact ⟨nofun, fun ⟨ha, hc, _⟩ => (h a c ha hc).elim⟩

theorem rangeOf_eq_none : rangeOf first last = none ↔ 31 < first.toNat ∨ 31 < last.toNat ∨ last.toNat < first.toNat := by
  by_cases hf : 31 < first.toNat
  · simp [rangeOf, chanOf_eq_none hf, hf]
  · by_cases hl : 31 < last.toNat
    · simp [rangeOf, chanOf_eq_none hl, hl]
    · have low : chanOf first = some ⟨first.toNat, by omega⟩ := dif_pos _
      have high : chanOf last = some ⟨last.toNat, by omega⟩ := dif_pos _
      simp only [rangeOf, low, high, hf, hl, false_or]
      split
      · next h =>
        rw [Fin.mk_le_mk] at h
        exact ⟨nofun, fun e => absurd h (by omega)⟩
      · next h =>
        rw [Fin.mk_le_mk] at h
        exact ⟨fun _ => by omega, fun _ => rfl⟩

end

end Sys2Proof.Machine
end


section
/-! PROOFS. What the status requests answer (O22). -/

namespace Sys2Proof.Machine

section
variable {h : Header} {n : SessionIx} {s : State} {v : Server} {r : Request} {body : SessionIx → State → State}

/-- A request at its block whose body answers in a known way. -/
theorem serve_eq {u : State} (a : AtBlock v h r n s) (hb : body n s = u) : serve v h r body s = .next u :=
  (serve_atBlock a body).trans (congrArg _ hb)

/-- A request of its session that fails R186, or whose own rule refuses it BAD_FIELD. -/
theorem serve_refuseBadField (hi : (s.link h.link).inHand = some (h, r)) (hs : boundSession h s = some n)
    (he : endedAt v n s = false) (hb : encodingOk r = true → body n s = refuse h r .badField s) :
    serve v h r body s = .next (refuse h r .badField s) := by
  cases hr : encodingOk r with
  | false => exact serve_badField hi hr body
  | true => exact serve_eq ⟨hi, hs, he, hr⟩ (hb hr)

/-! ### Bytes -/

theorem haltStatus_eq (x : Option Halted) : haltStatus x =
    match x with
    | none => List.replicate 11 0
    | some x => u8 1 ++ u8 1 ++ u8 (haltCauseCode x.cause) ++
        u8 (match x.cause with
          | .request m => m.val + 1
          | .line | .reset => 0) ++ u8 1 ++ u48 x.time := by
  obtain _ | ⟨cause, time⟩ := x
  · rfl
  · cases cause <;> rfl

theorem rateBytes_eq (r : LinkRate) :
    rateBytes r = u32 (match r with | .baud921600 => 921600 | .baud460800 => 460800) := by cases r <;> rfl

theorem flatMap_allSessions (f : SessionIx → List Byte) : allSessions.flatMap f = f 0 ++ f 1 ++ f 2 ++ f 3 := by
  have e : allSessions.flatMap f = f 0 ++ (f 1 ++ (f 2 ++ (f 3 ++ []))) := rfl
  simp [e]

theorem slotStatusBytes_eq (x : Slot) (now : Nat) : slotStatusBytes x now =
    u8 (slotStateCode x.state) ++ u8 (readingCode x.reading) ++ u48 x.stateTime ++
      wOpt 1 (fun r => u8 (railCode r)) x.rail ++ wOpt 1 (fun f => u8 (faultCode f)) x.fault ++ wFlag x.held ++
      (match x.descriptor with
        | none => List.replicate 11 0
        | some d => u8 1 ++ u8 (if d.valid then 0 else 1) ++ [d.railCode] ++ u16 d.model ++ u32 d.serial ++
            u8 d.count ++ u8 d.entries.length ++ d.entries.flatMap fun e =>
              [e.kind] ++ i16 e.lower ++ i16 e.upper ++ i16 e.safe ++ u16 e.tolerance ++ u16 e.settle) ++
      u48 now := by
  unfold slotStatusBytes
  cases x.descriptor with
  | none => simp [wOpt, wList, u8]
  | some d =>
    simp only [wOpt, wList, List.append_assoc]
    rfl

/-- R58: an open set in full. -/
theorem openInFull_eq (m : SessionIx) (o : OpenSet) : openInFull m o =
    u8 (m.val + 1) ++ u8 (dueKindCode o.due) ++
      (match o.due with
        | .atTime t => u8 1 ++ u48 t
        | .now | .after _ _ | .trigger _ | .offset _ => List.replicate 7 0) ++
      dueFields o.due ++ u8 (latePolicyCode o.late) ++ wFlag o.capture ++ wFlag o.sync ++ wList itemBytes o.items ++
      (match o.spoiled with
        | none => [0, 0, 0]
        | some c => u8 1 ++ u8 1 ++ u8 c.val) := by
  have spoiled : wFlag o.spoiled.isSome ++ wOpt 1 (fun c : ChanIx => u8 c.val) o.spoiled =
      match o.spoiled with
      | none => [0, 0, 0]
      | some c => u8 1 ++ u8 1 ++ u8 c.val := by cases o.spoiled <;> rfl
  have dueTime : wOpt 6 u48 (openDueTime o.due) =
      match o.due with
      | .atTime t => u8 1 ++ u48 t
      | .now | .after _ _ | .trigger _ | .offset _ => List.replicate 7 0 := by cases o.due <;> rfl
  rw [openInFull, dueTime, List.append_assoc _ (wFlag _) (wOpt _ _ _), spoiled]
  rfl

/-- R100: the bytes of a cycle. -/
theorem cycleStatusBytes_some {m : SessionIx} {p : Nat} {s : State} {c : Cycle} (hc : s.cycle m = some c) :
    cycleStatusBytes m p s =
      u8 (cycleStateCode (some c)) ++ u8 (m.val + 1) ++ u8 1 ++ u48 c.firstStart ++ u8 1 ++ u32 c.period ++
      u8 1 ++ u32 c.repeats ++ u8 1 ++ u32 c.begun ++ wOpt 6 u48 c.current ++
      (match c.phase with
        | .stopping k => u8 1 ++ u8 (stopKindCode k)
        | .building | .running => [0, 0]) ++
      u8 ((c.members.drop p).take 8).length ++ ((c.members.drop p).take 8).flatMap (memberEntry s) ++
      wFlag (decide (8 < (c.members.drop p).length)) ++ u48 s.clock.rig := by
  have stop : wOpt 1 (fun k => u8 (stopKindCode k)) (stopKindIn c) =
      match c.phase with
      | .stopping k => u8 1 ++ u8 (stopKindCode k)
      | .building | .running => [0, 0] := by
    unfold stopKindIn
    cases c.phase <;> rfl
  rw [← stop, cycleStatusBytes, hc]
  simp only [wOpt, wList, Option.bind_some, List.append_assoc]
  rfl

end

/-! ### The requests -/

section
variable {h : Header} {n : SessionIx} {s : State}

theorem exec_deviceStatus (a : AtBlock .sessionTable h .deviceStatus n s) :
    exec (.deviceStatus h) s = .next (answer h .deviceStatus (doneWith (deviceStatusBytes s)) s) := serve_atBlock a _

theorem exec_linkStatus {link clear : Byte} {l : LinkId} (a : AtBlock (.told .linkPort) h (.linkStatus link clear) n s)
    (hl : linkOf link = some l) : exec (.linkStatus h link clear) s =
      .next (if clear = 1 then
        (answer h (.linkStatus link clear) (doneWith (linkStatusBytes l s)) s).withLink l
          { (answer h (.linkStatus link clear) (doneWith (linkStatusBytes l s)) s).link l with
            crcErrors := 0, gapErrors := 0, busyReplies := 0, breaks := 0 }
      else answer h (.linkStatus link clear) (doneWith (linkStatusBytes l s)) s) := by
  refine serve_eq a ?_
  simp only [linkStatusBody, hl, flagSet, decide_eq_true_eq]
  rfl

end

/-- Settles O22: every request by its own equation, with its bytes laid out as R18 to R173 give them. -/
theorem statusRequestsReadTheState : Obligations.StatusRequestsReadTheState := by
  intro h n s now halt itemsOf dueOf
  have halted : haltStatus s.trigger.halted = halt := haltStatus_eq _
  have items (xs : List Item) : wList itemBytes xs = itemsOf xs := rfl
  have due (d : Due) : dueFields d = dueOf d := by cases d <;> rfl
  refine ⟨fun a => ?_, fun a => ?_, fun link clear l a hl => ?_, fun slot k a hk => ?_,
    fun first last b c a hb hc hbc hd => ?_, fun session position m a hm hp => ?_, fun session first setId a hs => ?_,
    fun first x hlast hx => ?_, fun session first setId a => ⟨fun x hx => ?_, fun hx => ?_⟩,
    fun session first setId m a hm => ⟨fun o ho => ?_, fun ho => ?_⟩, fun link clear hi hs he hb => ?_, fun slot a hb => ?_,
    fun first last a hb => ?_, fun session position a hb => ?_, fun session first setId a hb => ?_,
    fun session first setId a hb => ?_, fun mode session first setId hi hs he hb => ?_⟩
  · intro session chans sets b
    rw [exec_deviceStatus a]
    have sessions (m : SessionIx) : sessionStatus s m = session m := by
      simp only [sessionStatus, session]
      cases s.session m <;> rfl
    rw [deviceStatusBytes, halted, rateBytes_eq, flatMap_allSessions, sessions, sessions, sessions, sessions, channelCounts,
      busStatus]
    simp only [List.append_assoc]
    rfl
  · refine serve_eq a ?_
    dsimp only
    rw [triggerStatusBytes, halted]
    rfl
  · intro k bound t
    rw [exec_linkStatus a hl]
    have sessions : boundSessions l s = bound :=
      List.filter_congr fun m _ => by unfold boundTo; cases s.session m <;> rfl
    have bytes : answer h (.linkStatus link clear) (doneWith (linkStatusBytes l s)) s = t := by
      rw [linkStatusBytes, sessions, rateBytes_eq]
      simp only [wList, List.append_assoc, t]
      rfl
    rw [bytes]
  · intro x
    refine serve_eq a ?_
    simp only [slotStatusBody, hk, slotStatusBytes_eq] <;> rfl
  · intro entry range
    have range' : rangeOf first last = some (b, c) := rangeOf_eq_some.2 ⟨hb, hc, hbc⟩
    have entries : channelEntry s = entry := by
      funext c
      simp only [channelEntry, entry]
      cases s.channel c with
      | none => rfl
      | some x =>
        dsimp only
        cases x.owned <;> simp [wOpt, u8, sessionNumber]
    refine serve_eq a ?_
    have narrow : ¬ c.val - b.val > 3 := by omega
    simp only [channelReadBody, range', narrow, if_false, entries]
    rfl
  · intro entry
    have entries : memberEntry s = entry := by
      funext id
      simp only [memberEntry, entry]
      cases s.findSet id <;> rfl
    have answered : exec (.cycleStatus h session position) s =
        .next (answer h (.cycleStatus session position) (doneWith (cycleStatusBytes m position.toNat s)) s) := by
      refine serve_eq a ?_
      simp only [cycleStatusBody, hm]
      exact if_neg (by omega)
    refine ⟨fun hc => ?_, fun c hc => ?_⟩
    · rw [answered, cycleStatusBytes, entries, hc]
      simp [wOpt, wList, u8, wFlag, cycleStateCode, sessionNumber, now]
    · intro rest stop
      rw [answered, cycleStatusBytes_some hc, entries] <;> rfl
  · intro walk entry
    refine serve_eq a ?_
    have entries : summaryEntry = entry := by
      funext x
      simp only [summaryEntry, entry]
      cases x.due <;> rfl
    have walked : summaryWalk session first.toNat s = walk := rfl
    have mode : listModeOf 0 = some .summary := rfl
    have low : ¬ 4 < session.toNat := by omega
    simp only [setListBody, mode, low, if_false, walked, entries]
    rfl
  · have top := hlast x hx
    unfold rankedFrom
    dsimp only
    split
    · simp [top]
    · next hg =>
      have none : s.sets.any (fun y => decide (s.schedule.lastSeal < y.sealNo)) = false :=
        List.any_eq_false.2 fun y hy => by simpa using hlast y hy
      rw [if_neg (by omega), none]
      exact ⟨nofun, fun h => absurd h (by omega)⟩
  · refine serve_eq a ?_
    have mode : listModeOf 1 = some .one := rfl
    simp only [setListBody, mode, hx, setInFull, items, due]
    rfl
  · refine serve_eq a ?_
    have mode : listModeOf 1 = some .one := rfl
    simp only [setListBody, mode, hx]
  · refine serve_eq a ?_
    have mode : listModeOf 2 = some .openSet := rfl
    simp only [setListBody, mode, hm, ho, openInFull_eq, items, due] <;> rfl
  · refine serve_eq a ?_
    have mode : listModeOf 2 = some .openSet := rfl
    simp only [setListBody, mode, hm, ho]
  · refine serve_refuseBadField hi hs he fun hok => ?_
    obtain hb | hb := hb
    · simp [linkStatusBody, hb]
    · simp [encodingOk, hb] at hok
  · exact serve_eq a (by simp [slotStatusBody, slotOf_eq_none hb])
  · refine serve_eq a ?_
    unfold channelReadBody
    cases hr : rangeOf first last with
    | none => rfl
    | some r =>
      obtain ⟨b, c⟩ := r
      obtain ⟨low, high, le⟩ := rangeOf_eq_some.1 hr
      rw [chanOf_eq_some] at low high
      rw [Fin.le_def] at le
      exact if_pos (by omega)
  · refine serve_eq a ?_
    unfold cycleStatusBody
    cases hm : sessionOf session with
    | none => rfl
    | some m =>
      refine if_pos ?_
      rw [← or_assoc] at hb
      exact hb.resolve_left fun h => by rw [sessionOf_eq_none h] at hm; cases hm
  · refine serve_eq a ?_
    have mode : listModeOf 0 = some .summary := rfl
    simp only [setListBody, mode, hb, if_true]
  · refine serve_eq a ?_
    have mode : listModeOf 2 = some .openSet := rfl
    simp only [setListBody, mode, sessionOf_eq_none hb]
  · refine serve_refuseBadField hi hs he fun hok => ?_
    have := enumOf_isSome (b := mode) |>.2.2.2.2.2.2.2.2.2.1.1 hok
    omega

end Sys2Proof.Machine
end


section
/-! PROOFS. SESSION_OPEN and SESSION_CONFIG (O23). -/

namespace Sys2Proof.Machine

section
variable {h : Header} {n : SessionIx} {s : State} {role : Byte} {raw : RawSettings}

theorem lowestClosed_eq_none (hn : ∀ n, s.session n ≠ none) : lowestClosed s = none :=
  List.find?_eq_none.2 fun n _ => by simpa [Option.isNone_iff_eq_none] using hn n

theorem lowestClosed_eq_some (hn : s.session n = none) (hl : ∀ m, m < n → s.session m ≠ none) :
    lowestClosed s = some n := by
  refine List.find?_eq_some_iff_getElem.2 ⟨by simp [hn], n.val, by simp [allSessions], by simp [allSessions], fun j hj => ?_⟩
  have := hl ⟨j, hj.trans n.isLt⟩ hj
  simpa [allSessions, Option.isSome_iff_ne_none] using this

/-- R149: a SESSION_OPEN in the Session Table's hands. -/
theorem exec_sessionOpen (hi : (s.link h.link).inHand = some (h, .sessionOpen role raw)) :
    exec (.sessionOpen h role raw) s = .next (sessionOpenBody h role raw s) :=
  congrArg _ (runRequest_inHand _ hi)

theorem sessionOpenBody_badField (hb : roleOf role = none ∨ encodingOk (.sessionOpen role raw) = false ∨ h.session ≠ 0 ∨
    settingsInRange (settingsOf raw) = false) :
    sessionOpenBody h role raw s = refuse h (.sessionOpen role raw) .badField s := by
  simp only [sessionOpenBody]
  cases hk : roleOf role with
  | none => rfl
  | some k =>
    dsimp only
    split
    · rfl
    · next he =>
      split
      · rfl
      · next h0 =>
        have sound : encodingOk (.sessionOpen role raw) = true := by simpa using he
        have zero : h.session = 0 := not_ne_iff.1 h0
        exact if_pos (by simpa [hk, sound, zero] using hb)

theorem sessionOpenBody_ok {k : Role} (hk : roleOf role = some k) (he : encodingOk (.sessionOpen role raw) = true)
    (h0 : h.session = 0) (hr : settingsInRange (settingsOf raw) = true) :
    sessionOpenBody h role raw s = match lowestClosed s with
      | none => refuse h (.sessionOpen role raw) .tableFull s
      | some n => answerOpened h (.sessionOpen role raw) (openReply n k (settingsOf raw) s) (some n)
          (openSession h.link n k (settingsOf raw) s) := by
  simp [sessionOpenBody, hk, he, h0, hr] <;> rfl

/-- R149: the Report Unit, the Schedule, the Cycle Unit and the Link Port keep nothing of an earlier session of the id. -/
theorem openSession_clears (l : LinkId) (n : SessionIx) (k : Role) (c : Settings) (s : State) :
    (openSession l n k c s).lists n = ReportLists.reset ∧ (openSession l n k c s).schedule.armed.get n = false ∧
      (openSession l n k c s).cycle n = none ∧ ((openSession l n k c s).link l).cache.get n = none := by
  refine ⟨?_, ?_, ?_, ?_⟩
  · simp [openSession, State.lists, withArmed, State.withCycle, State.withLists]
  · simp [openSession, withArmed, State.withCycle, State.withLists]
  · simp [openSession, State.cycle, withArmed, State.withCycle, State.withLists]
  · simp [openSession]

theorem settingsInRange_iff (c : Settings) : settingsInRange c = true ↔
    (∀ v, c.lease = some v → 100 ≤ v ∧ v ≤ 60000) ∧ (∀ v, c.quota = some v → v ≤ 512) ∧
      (∀ v, c.lowMark = some v → v ≤ 64) ∧ ∀ v, c.retry = some v → 20 ≤ v ∧ v ≤ 2000 := by
  simp [settingsInRange, Option.all_eq_true, and_assoc]

end

/-- Settles O23: each request by the first check that fails, or by the record it makes. -/
theorem sessionsOpenAndAreConfigured : Obligations.SessionsOpenAndAreConfigured := by
  refine ⟨fun h role raw s hi => ⟨fun hb => ?_, fun k hk he h0 hr => ⟨fun hn => ?_, fun n hn hl => ?_⟩⟩,
    fun h raw n k s a hk => ⟨fun hr => ?_, fun q hr hq hu => ?_, fun hr hq => ?_⟩, fun raw => ?_, settingsInRange_iff⟩
  · rw [exec_sessionOpen hi, sessionOpenBody_badField hb]
  · rw [exec_sessionOpen hi, sessionOpenBody_ok hk he h0 hr, lowestClosed_eq_none hn]
  · intro lease t
    obtain ⟨lists, armed, cycle, cache⟩ := openSession_clears h.link n k (settingsOf raw) s
    refine ⟨?_, ?_, fun m hm => ?_, lists, armed, cycle, cache⟩
    · rw [exec_sessionOpen hi, sessionOpenBody_ok hk he h0 hr, lowestClosed_eq_some hn hl]
      rfl
    · rw [openSession_session, if_pos rfl]
      rfl
    · rw [openSession_session, if_neg hm.symm]
  · exact serve_eq a (by simp [sessionConfigBody, hk, hr])
  · exact serve_eq a (by simp [sessionConfigBody, hk, hr, hq, hu])
  · intro k' t reply count
    have settings : k.withSettings (settingsOf raw) s.clock.rig = k' := by
      unfold Session.withSettings
      cases hc : (settingsOf raw).lease <;> simp [k', hc, capTime, Config.maxTime]
    have fits : (settingsOf raw).quota.any (fun q => decide (q < k.inUse)) = false := by
      cases hc : (settingsOf raw).quota with
      | none => rfl
      | some q => simpa using hq q hc
    have answered : exec (.sessionConfig h raw) s = .next (answer h (.sessionConfig raw) reply (rearm n (settingsOf raw) t)) := by
      refine serve_eq a ?_
      simp only [sessionConfigBody, hk, hr, fits, settings]
      rfl
    rw [answered]
    refine ⟨fun hm => by rw [rearm, hm], fun m hm => ?_⟩
    rw [rearm, hm]
    rfl
  · exact ⟨rfl, rfl, rfl, rfl, rfl, rfl, rfl, rfl, rfl⟩

end Sys2Proof.Machine
end


section
/-! PROOFS. How teardowns begin and finish (O24). -/

namespace Sys2Proof.Machine

/-! ### The beginning -/

/-- R155: the notices of a session's end, in the order in which they are handed over. -/
def endNotices (n : SessionIx) : List Notice := endBlocks.map fun b => .sessionEnd b n

/-- R154: a record whose teardown begins, unless it has begun. -/
def Session.begun (c : EndingCause) (now : Nat) (k : Session) : Session :=
  if k.ending = none then { k with ending := some ⟨c, now, false, false, false⟩, deadline := none } else k

/-- R155: the session is OPEN and its teardown has not begun. -/
def stillServed (s : State) (n : SessionIx) : Bool := (s.session n).any fun k => k.ending.isNone

section
variable {s : State} {c : EndingCause} {n : SessionIx}

theorem beginTeardown_closed (h : s.session n = none) : beginTeardown c n s = s := by simp [beginTeardown, h]

theorem beginTeardown_ending {k : Session} {e : Ending} (h : s.session n = some k) (he : k.ending = some e) :
    beginTeardown c n s = s := by simp [beginTeardown, h, he]

theorem beginTeardown_served {k : Session} (h : s.session n = some k) (he : k.ending = none) : beginTeardown c n s =
    postAll (endNotices n) (s.withSession n (some
      { k with ending := some ⟨c, s.clock.rig, false, false, false⟩, deadline := none })) := by
  simp [beginTeardown, h, he, endNotices]

/-- What the beginning of a teardown makes of the records and of the notices. -/
theorem beginTeardown_parts (c : EndingCause) (n : SessionIx) (s : State) :
    (∀ m, (beginTeardown c n s).session m = if n = m then (s.session m).map (Session.begun c s.clock.rig) else s.session m) ∧
    (beginTeardown c n s).notices = s.notices ++ if stillServed s n then endNotices n else [] := by
  have same (h : (s.session n).map (Session.begun c s.clock.rig) = s.session n) (m : SessionIx) :
      s.session m = if n = m then (s.session m).map (Session.begun c s.clock.rig) else s.session m := by
    split
    · next e => rw [← e, h]
    · rfl
  cases hn : s.session n with
  | none =>
    rw [beginTeardown_closed hn]
    exact ⟨same (by rw [hn]; rfl), by simp [stillServed, hn]⟩
  | some k =>
    cases he : k.ending with
    | some e =>
      rw [beginTeardown_ending hn he]
      exact ⟨same (by rw [hn]; simp [Session.begun, he]), by simp [stillServed, hn, he]⟩
    | none =>
      rw [beginTeardown_served hn he]
      refine ⟨fun m => ?_, by simp [stillServed, hn, he, postAll, State.withSession]⟩
      show (s.withSession n _).session m = _
      rw [State.session_withSession]
      split
      · next e => rw [← e, hn]; simp [Session.begun, he]
      · rfl

/-- R154: the teardowns of several sessions. -/
theorem foldl_beginTeardown (c : EndingCause) (ns : List SessionIx) (hns : ns.Nodup) (s : State) :
    let t := ns.foldl (fun u n => beginTeardown c n u) s
    OnlyChanges [.sessions, .notices] s t ∧
    (∀ m, t.session m = if m ∈ ns then (s.session m).map (Session.begun c s.clock.rig) else s.session m) ∧
    t.notices = s.notices ++ (ns.filter (stillServed s)).flatMap endNotices := by
  induction ns generalizing s with
  | nil => exact ⟨.refl _ s, fun m => by simp, by simp⟩
  | cons n ns ih =>
    obtain ⟨hn, hns⟩ := List.nodup_cons.1 hns
    obtain ⟨only, sessions, notices⟩ := ih hns (beginTeardown c n s)
    have first : OnlyChanges [.sessions, .notices] s (beginTeardown c n s) :=
      (only_beginTeardown (by simp) (by simp) c n).2 (.refl _ s)
    obtain ⟨session₁, notices₁⟩ := beginTeardown_parts c n s
    have clock : (beginTeardown c n s).clock = s.clock := first .clock (by simp)
    refine ⟨first.trans only, fun m => ?_, ?_⟩
    · rw [List.foldl_cons, sessions, session₁, clock]
      by_cases hm : n = m
      · subst hm
        simp [hn]
      · simp [hm, Ne.symm hm]
    · have served : ns.filter (stillServed (beginTeardown c n s)) = ns.filter (stillServed s) :=
        List.filter_congr fun m hm => by
          have ne : n ≠ m := fun e => hn (e ▸ hm)
          simp [stillServed, session₁, ne]
      rw [List.foldl_cons, notices, served, notices₁, List.filter_cons]
      split <;> simp

/-! ### The end -/

/-- R156: an answer of a teardown, once it may be taken. -/
theorem exec_teardownAnswer {b : AnswerBlock} {k : Session} {e : Ending}
    (hh : headNotice (.teardownAnswer b n) s = some (.teardownAnswer b n)) (hk : s.session n = some k)
    (he : k.ending = some e) : exec (.teardownAnswer n b) s = .next (
      if (e.note b).complete = true ∧ ∃ x ∈ s.sets, x.owner = n ∧ x.state = .applying then s
      else if (e.note b).complete then post (.claimSessionEnd n)
        ((dropNotice (.teardownAnswer b n) s).withSession n (some { k with ending := some (e.note b) }))
      else (dropNotice (.teardownAnswer b n) s).withSession n (some { k with ending := some (e.note b) })) := by
  let u := dropNotice (.teardownAnswer b n) s
  have hu : u.session n = some k := hk
  have last : lastAnswer b n u = (e.note b).complete := by simp [lastAnswer, hu, he]
  have applying : noneApplying n u = false ↔ ∃ x ∈ s.sets, x.owner = n ∧ x.state = .applying := by
    simp only [noneApplying, List.all_eq_false]
    refine exists_congr fun x => and_congr_right fun _ => ?_
    cases hx : x.state <;> simp [SealedSet.waiting, hx]
  have taken : takeTeardownAnswer b n u = if (e.note b).complete then
      post (.claimSessionEnd n) (u.withSession n (some { k with ending := some (e.note b) }))
      else u.withSession n (some { k with ending := some (e.note b) }) := by
    simp only [takeTeardownAnswer, hu, he]
  by_cases hw : (e.note b).complete = true ∧ ∃ x ∈ s.sets, x.owner = n ∧ x.state = .applying
  · rw [if_pos hw]
    refine congrArg _ (onNotice_left hh (if_pos ?_))
    show (lastAnswer b n u && !noneApplying n u) = true
    rw [last, hw.1, applying.2 hw.2]
    rfl
  · rw [if_neg hw, ← taken]
    refine congrArg _ (onNotice_some hh (if_neg ?_))
    show ¬ (lastAnswer b n u && !noneApplying n u) = true
    rw [last, Bool.and_eq_true, Bool.not_eq_true', applying]
    exact hw

/-- R157, R38: what keeps a record from being closed. -/
theorem endUnfinished_iff {k : Session} (hk : s.session n = some k) :
    endUnfinished n s = true ↔ (∃ b, .sessionEnd b n ∈ s.notices) ∨ (∃ c, .itemsReturn n c ∈ s.notices) ∨ 0 < k.inUse ∨
      (∃ c, s.owns n c = true) ∨ ∃ w ∈ s.claims.waits, w.session = n := by
  have notices : (s.notices.any fun x =>
      match x with
      | .sessionEnd _ m => m = n
      | .itemsReturn m _ => m = n
      | _ => false) = true ↔ (∃ b, .sessionEnd b n ∈ s.notices) ∨ ∃ c, .itemsReturn n c ∈ s.notices := by
    rw [List.any_eq_true]
    constructor
    · rintro ⟨x, hx, h⟩
      split at h
      · obtain rfl := of_decide_eq_true h; exact .inl ⟨_, hx⟩
      · obtain rfl := of_decide_eq_true h; exact .inr ⟨_, hx⟩
      · cases h
    · rintro (⟨b, h⟩ | ⟨c, h⟩)
      · exact ⟨_, h, decide_eq_true rfl⟩
      · exact ⟨_, h, decide_eq_true rfl⟩
  have items : s.itemsInUse n = k.inUse := by simp [State.itemsInUse, hk]
  unfold endUnfinished
  rw [Bool.or_eq_true, Bool.or_eq_true, Bool.or_eq_true]
  refine (or_congr_left (or_congr_left (or_congr_left notices))).trans ?_
  rw [decide_eq_true_eq, items, or_assoc, or_assoc, or_assoc, Nat.pos_iff_ne_zero]
  simp [allChannels]

end

/-- Settles O24: the beginning by what one teardown makes of records and notices, the end by what holds it up. -/
theorem teardownsBeginAndFinish : Obligations.TeardownsBeginAndFinish := by
  refine ⟨⟨fun c n s => ⟨beginTeardown_closed, fun k e => beginTeardown_ending, fun k => beginTeardown_served⟩,
    fun h n s a => serve_atBlock a _, fun n k t s hk ht => ?_, fun n k i s hh hk => ?_, fun l s hh => ?_⟩,
    fun n b k e s hh hk he => ?_, fun n k e s hh hk he => ?_⟩
  · show execLeaseExpiry n s = _
    simp [execLeaseExpiry, hk, ht, State.reached]
  · have hk' : (dropNotice (.retriesExhausted n) s).session n = some k := hk
    exact congrArg _ (onNotice_some hh (by simp only [hk']))
  · obtain ⟨only, sessions, notices⟩ := foldl_beginTeardown .linkBreak
      (allSessions.filter (boundTo l (dropNotice (.linkBroken l) s))) ((List.nodup_finRange 4).filter _)
      (dropNotice (.linkBroken l) s)
    have same (n : SessionIx) : (dropNotice (.linkBroken l) s).session n = s.session n := rfl
    have bound (n : SessionIx) : boundTo l (dropNotice (.linkBroken l) s) n = (s.session n).any fun k => k.link = l := by
      simp only [boundTo, same]
      cases s.session n <;> rfl
    refine ⟨_, congrArg Host.Outcome.next (onNotice_some hh rfl), ?_, fun n => ?_, ?_⟩
    · exact OnlyChanges.trans (t := dropNotice (.linkBroken l) s) (by simp [dropNotice]) only
    · rw [sessions, same]
      cases hk : s.session n with
      | none => simp
      | some k =>
        have member : n ∈ allSessions.filter (boundTo l (dropNotice (.linkBroken l) s)) ↔ k.link = l := by
          rw [List.mem_filter, bound, hk]
          simp [allSessions]
        by_cases hl : k.link = l
        · rw [if_pos (member.2 hl)]
          show (some k).map (Session.begun .linkBreak s.clock.rig) = _
          simp [Session.begun, hl]
        · rw [if_neg (member.not.2 hl)]
          simp [hl]
    · rw [notices, List.filter_filter]
      congr 2
      refine List.filter_congr fun n _ => ?_
      rw [bound, stillServed, same]
      cases s.session n with
      | none => rfl
      | some k => simp [Bool.and_comm]
  · intro e' last t
    have note : e.note b = e' := by cases b <;> simp [Ending.note, e']
    have complete : (e.note b).complete = last := by rw [note]; rfl
    rw [exec_teardownAnswer hh hk he, complete, note]
    refine ⟨fun hl => ?_, fun hl ha => ?_, fun hl ha => ?_⟩
    · rw [if_neg (by simp [hl]), if_neg (by simp [hl])]
    · rw [if_neg (by simpa [hl] using ha), if_pos hl]
    · rw [if_pos ⟨hl, ha⟩]
  · intro t
    let u := dropNotice (.recordClose n) s
    have hu : u.session n = some k := hk
    have kept {x : Notice} (hx : noticeLane x ≠ .recordClose n) : x ∈ u.notices ↔ x ∈ s.notices :=
      List.mem_eraseP_of_neg (by simpa using hx)
    have unfinished : endUnfinished n u = true ↔ (∃ b, .sessionEnd b n ∈ s.notices) ∨ (∃ c, .itemsReturn n c ∈ s.notices) ∨
        0 < k.inUse ∨ (∃ c, s.owns n c = true) ∨ ∃ w ∈ s.claims.waits, w.session = n := by
      rw [endUnfinished_iff hu]
      simp only [kept (x := .sessionEnd _ n) (by simp [noticeLane]), kept (x := .itemsReturn n _) (by simp [noticeLane])]
      rfl
    refine ⟨fun h => congrArg _ (onNotice_left hh (if_pos (unfinished.2 h))), fun h1 h2 h3 h4 h5 => ?_⟩
    have finished : ¬ endUnfinished n u = true := by
      rw [unfinished]
      simp [h1, h2, h3, h4]
      exact h5
    refine congrArg _ (onNotice_some hh ((if_neg finished).trans (congrArg some ?_)))
    simp only [closeRecord, show (dropNotice (.recordClose n) s).session n = some k from hk, he]
    rfl

end Sys2Proof.Machine
end


section
/-! PROOFS. What each block drops of an ended session (O25). -/

namespace Sys2Proof.Machine

/-! ### The Schedule: sets of a session removed one after the other -/

/-- R56: sets of one session are removed without report, and are no longer listed by its cycle. -/
def removeSets (xs : List SealedSet) (s : State) : State :=
  xs.foldl (fun t x => dropMember x.owner x.id (removeSet x t)) s

theorem dropMember_parts (n : SessionIx) (id : Nat) (s : State) :
    (dropMember n id s).schedule = s.schedule ∧ (dropMember n id s).notices = s.notices ∧
      ∀ m, m ≠ n → (dropMember n id s).cycle m = s.cycle m := by
  unfold dropMember
  split
  · exact ⟨rfl, rfl, fun m hm => by simp [hm.symm]⟩
  · exact ⟨rfl, rfl, fun _ _ => rfl⟩

theorem removeSets_parts {n : SessionIx} (xs : List SealedSet) (hn : ∀ x ∈ xs, x.owner = n) (s : State) :
    (removeSets xs s).schedule = { s.schedule with
      sets := s.sets.filter fun y => !(xs.map (·.id)).contains y.id
      ready := (xs.map (·.id)).foldl List.erase s.schedule.ready } ∧
    (removeSets xs s).notices = s.notices ++ xs.map (fun x => .itemsReturn n x.items.length) ∧
    ∀ m, m ≠ n → (removeSets xs s).cycle m = s.cycle m := by
  induction xs generalizing s with
  | nil => exact ⟨by simp [removeSets, State.sets], by simp [removeSets], fun _ _ => rfl⟩
  | cons x xs ih =>
    obtain ⟨schedule, notices, cycle⟩ := ih (fun y hy => hn y (.tail _ hy)) (dropMember x.owner x.id (removeSet x s))
    obtain ⟨schedule₁, notices₁, cycle₁⟩ := dropMember_parts x.owner x.id (removeSet x s)
    have owner : x.owner = n := hn x (.head _)
    refine ⟨?_, ?_, fun m hm => ?_⟩
    · rw [removeSets, List.foldl_cons, ← removeSets, schedule, State.sets, schedule₁]
      simp [removeSet, post, State.withSets, State.withReady, State.withSchedule, State.withNotices, State.sets,
        List.filter_filter, Bool.and_comm]
    · rw [removeSets, List.foldl_cons, ← removeSets, notices, notices₁]
      simp [removeSet, post, State.withNotices, State.withReady, State.withSets, State.withSchedule, owner]
    · rw [removeSets, List.foldl_cons, ← removeSets, cycle m hm, cycle₁ m (owner ▸ hm)]
      rfl

/-- With distinct ids, the sets left are those not picked. -/
theorem filter_notPicked {xs : List SealedSet} (hx : (xs.map (·.id)).Nodup) (p : SealedSet → Bool) :
    (xs.filter fun y => !((xs.filter p).map (·.id)).contains y.id) = xs.filter fun y => !p y := by
  refine List.filter_congr fun y hy => congrArg _ ?_
  rw [Bool.eq_iff_iff, List.contains_iff_mem, List.mem_map]
  constructor
  · rintro ⟨z, hz, e⟩
    obtain ⟨mem, picked⟩ := List.mem_filter.1 hz
    exact List.inj_on_of_nodup_map hx mem hy e ▸ picked
  · exact fun h => ⟨y, List.mem_filter.2 ⟨hy, h⟩, rfl⟩

/-- R56: an id stays on the Ready List unless it is one of those taken off. -/
theorem mem_foldl_erase {l ids : List Nat} (hl : l.Nodup) (id : Nat) :
    id ∈ ids.foldl List.erase l ↔ id ∈ l ∧ id ∉ ids := by
  rw [← List.diff_eq_foldl]
  exact List.Nodup.mem_diff_iff hl

/-! ### The Link Port and the Report Unit -/

theorem forget_eq (k : Link) (n : SessionIx) : k.forget n = { k with
    cache := k.cache.put n none
    openCache := if k.openCache.any (fun e => e.session = some n) then none else k.openCache } := by
  unfold Link.forget
  cases k.openCache <;> simp

theorem tearReports_lists (n m : SessionIx) (s : State) : (tearReports n s).lists m =
    if n = m then { s.lists n with held := [], outstanding := [], dropped := 0, torn := true } else s.lists m := by
  rw [tearReports, State.lists, (only_withdrawFrames (ps := [.linkA, .linkB]) (by simp) (by simp) n _).2 (.refl _ _)
    .reports (by simp), ← State.lists]
  simp

theorem tearReports_link {n : SessionIx} {s : State} {k : Session} (hk : s.session n = some k) :
    (tearReports n s).link k.link =
      { s.link k.link with reports := (s.link k.link).reports.filter fun f => f.session ≠ n } := by
  have still : (s.withLists n { s.lists n with held := [], outstanding := [], dropped := 0, torn := true }).session n =
    some k := hk
  have others : (fun f : ReportFrame => !(decide (f.session = n) && true)) = fun f => decide (f.session ≠ n) := by
    funext f
    simp
  simp only [tearReports, withdrawFrames, still, others]
  cases k.link <;> rfl

/-! ### The engine -/

theorem dropCaptures_eq (n : SessionIx) (s : State) : dropCaptures n s =
    let gone := s.engine.captures.filter fun e => e.owner = n
    let t := s.withEngine { s.engine with captures := s.engine.captures.filter fun e => e.owner ≠ n }
    if gone = [] then t else post (.withdraw (.readbacks (gone.map (·.entry)))) t := by
  simp only [dropCaptures, List.map_eq_nil_iff] <;> rfl

section
variable {n : SessionIx} {s : State} {w : Work}

theorem endSessionEngine_other (h : ∀ w, s.engine.work = some w → w.owner ≠ n) :
    endSessionEngine n s = post (.teardownAnswer .applyEngine n) s := by
  unfold endSessionEngine
  cases hw : s.engine.work with
  | none => rfl
  | some w => exact if_pos (h w hw)

theorem endSessionEngine_staging (hw : s.engine.work = some w) (ho : w.owner = n) (hp : w.phase = .staging) :
    endSessionEngine n s = postAll
      ([.withdraw (.stages w.take)] ++ (if w.abandon then [] else [.busRequest .applyEngine .abandon]) ++
        [.outcome w.take w.setId .removed, .teardownAnswer .applyEngine n])
      (s.withEngine { s.engine with work := none }) := by
  simp only [endSessionEngine, hw, ho, hp, queueAbandon]
  cases w.abandon <;> simp [settled, handOutcome, post, postAll, State.withWork, State.withNotices, State.withEngine]

theorem endSessionEngine_committing (hw : s.engine.work = some w) (ho : w.owner = n) (hp : w.phase = .committing) :
    endSessionEngine n s = post (.withdraw (.commit w.take)) (s.withEngine { s.engine with
      work := some { w with phase := .withdrawing, cause := some .sessionEnd, ended := true } }) := by
  simp [endSessionEngine, hw, ho, hp, withdrawCommit, State.withWork]

theorem endSessionEngine_late (hw : s.engine.work = some w) (ho : w.owner = n)
    (hp : w.phase = .withdrawing ∨ w.phase = .recording) :
    endSessionEngine n s = s.withEngine { s.engine with work := some { w with ended := true } } := by
  obtain hp | hp := hp <;> simp [endSessionEngine, hw, ho, hp, State.withWork]

end

/-! ### The Claim Unit -/

theorem owns_iff {s : State} {n : SessionIx} {c : ChanIx} :
    s.owns n c = true ↔ ∃ x p, s.channel c = some x ∧ x.owned = some ⟨n, p⟩ := by
  unfold State.owns
  cases s.channel c with
  | none => simp
  | some x =>
    simp only [decide_eq_true_eq, Channel.owner, Option.map_eq_some_iff, Option.some.injEq, exists_and_left,
      exists_eq_left']
    exact ⟨fun ⟨o, ho, e⟩ => ⟨o.policy, by rw [ho, ← e]⟩, fun ⟨p, ho⟩ => ⟨_, ho, rfl⟩⟩

theorem ownsSafe_iff {s : State} {n : SessionIx} {c : ChanIx} :
    ownsSafe n s c = true ↔ ∃ x, s.channel c = some x ∧ x.owned = some ⟨n, .safe⟩ := by
  unfold ownsSafe
  cases s.channel c <;> simp

/-- Settles O25: each block takes its notice, and does with what it holds what its own lemma says. -/
theorem blocksDropAnEndedSession : Obligations.BlocksDropAnEndedSession := by
  refine ⟨fun n s => ⟨fun hh k hk => ?_, fun hh k o hk ho => ?_, fun hh ho => ?_, fun hh hn => ?_, fun hh => ?_,
    fun hh => ?_, fun hh => ?_, fun hh => ?_, fun hh => ?_⟩,
    fun n s => ⟨dropCaptures_eq n s, endSessionEngine_other, fun w hw ho => ⟨endSessionEngine_staging hw ho,
      endSessionEngine_committing hw ho, endSessionEngine_late hw ho⟩⟩,
    fun n c s => ⟨owns_iff, ownsSafe_iff⟩⟩
  · intro u j
    have still : u.session n = some k := hk
    refine congrArg Host.Outcome.next (onNotice_some hh ?_)
    simp only [u, still, ← forget_eq, j]
  · let u := dropNotice (.sessionEnd .setAssembler n) s
    have still : u.session n = some k := hk
    refine ⟨post (.teardownAnswer .setAssembler n) (discardOpenSet n o u),
      congrArg Host.Outcome.next (onNotice_some hh ?_), ?_, fun m hm => ?_, ?_, ?_, ?_⟩
    · have there : u.openSet n = some o := ho
      rw [endSessionAssembler, there]
    · exact (discardOpenSet_openSet n o u n).trans (if_pos rfl)
    · exact (discardOpenSet_openSet n o u m).trans (if_neg hm.symm)
    · exact discardOpenSet_poolFree n o u
    · exact (discardOpenSet_session n o u still n).trans (if_pos rfl)
    · show (discardOpenSet n o u).notices ++ _ = _
      rw [show (discardOpenSet n o u).notices = u.notices from discardOpenSet_frame n o u .notices (by simp)]
  · refine congrArg Host.Outcome.next (onNotice_some hh ?_)
    have none : (dropNotice (.sessionEnd .setAssembler n) s).openSet n = none := ho
    rw [endSessionAssembler, none]
  · let u := dropNotice (.sessionEnd .schedule n) s
    let gone := s.sets.filter fun x => x.owner = n && x.waiting
    have hu : exec (.sessionEndSchedule n) s =
      .next (post (.teardownAnswer .schedule n) (withArmed n false (removeSets gone u))) :=
      congrArg Host.Outcome.next (onNotice_some hh rfl)
    have owner : ∀ x ∈ gone, x.owner = n := fun x hx => by
      simpa using (Bool.and_eq_true_iff.1 (List.mem_filter.1 hx).2).1
    obtain ⟨schedule, notices, cycle⟩ := removeSets_parts gone owner u
    have left : (removeSets gone u).sets = s.sets.filter fun x => !(x.owner = n && x.waiting) := by
      rw [State.sets, schedule]
      exact filter_notPicked hn _
    have ready : (removeSets gone u).schedule.ready = (gone.map (·.id)).foldl List.erase s.schedule.ready := by
      rw [schedule]
      rfl
    refine ⟨_, hu, ?_, cycle, left, ?_, fun hr id => ?_, ?_⟩
    · exact (only_post (by simp) _).2 ((only_endSessionSchedule (by simp) (by simp) (by simp) n).2
        ((only_dropNotice (by simp) _).2 (.refl _ s)))
    · show { (removeSets gone u).schedule with armed := (removeSets gone u).schedule.armed.put n false } = _
      rw [show (post (.teardownAnswer .schedule n) (withArmed n false (removeSets gone u))).sets
        = (removeSets gone u).sets from rfl, State.sets, schedule]
      rfl
    · show id ∈ (removeSets gone u).schedule.ready ↔ _
      rw [ready, mem_foldl_erase hr]
      refine and_congr_right fun _ => ?_
      simp only [List.mem_map, List.mem_filter, gone, SealedSet.waiting, Bool.and_eq_true, decide_eq_true_eq]
      grind
    · show (removeSets gone u).notices ++ _ = _
      rw [notices]
  · exact congrArg Host.Outcome.next (onNotice_some hh rfl)
  · exact congrArg Host.Outcome.next (onNotice_some hh rfl)
  · exact congrArg Host.Outcome.next (onNotice_some hh rfl)
  · exact congrArg Host.Outcome.next (onNotice_some hh rfl)
  · let u := dropNotice (.sessionEnd .reportUnit n) s
    refine ⟨tearReports n u, congrArg Host.Outcome.next (onNotice_some hh rfl), ?_, fun m hm => ?_, fun k hk => ?_⟩
    · exact (tearReports_lists n n u).trans (if_pos rfl)
    · exact (tearReports_lists n m u).trans (if_neg hm.symm)
    · have link := tearReports_link (s := u) hk
      exact ⟨congrArg (·.reports) link, congrArg (·.transmission) link⟩

end Sys2Proof.Machine
end


section
/-! PROOFS. CLAIM and the grant pass (O26), and CHANNEL_CONFIG (O28). -/

namespace Sys2Proof.Machine

/-! ### Reports -/

section
variable {line : ReportLine} {n : SessionIx} {r : Report} {s : State} {k : Session}

theorem sessionReport_open (h : s.session n = some k) :
    sessionReport line n r s = post (.report line (some (n, k.incarnation)) r) s := by simp [sessionReport, h]

theorem sessionReport_closed (h : s.session n = none) : sessionReport line n r s = s := by simp [sessionReport, h]

end

/-! ### Ranges -/

section
variable {a b c : ChanIx} {s : State} {n : SessionIx}

theorem inRange_iff : inRange a b c = true ↔ a ≤ c ∧ c ≤ b := by simp [inRange]

theorem rangeHasAbsent_iff : rangeHasAbsent a b s = true ↔ ∃ c, a ≤ c ∧ c ≤ b ∧ s.channel c = none := by
  simp [rangeHasAbsent, allChannels, inRange, and_assoc]

theorem rangeFreeFor_iff : rangeFreeFor n a b s = true ↔ ∀ c, a ≤ c → c ≤ b →
    ∃ x, s.channel c = some x ∧ (x.owner = none ∨ x.owner = some n) := by
  simp only [rangeFreeFor, allChannels, List.all_eq_true, List.mem_finRange, true_imp_iff]
  refine forall_congr' fun c => ?_
  cases s.channel c with
  | none => simp [inRange, imp_iff_not_or]
  | some x => simp [inRange, imp_iff_not_or, or_assoc]

/-- R10: a grant changes the ownership of the range's channels alone. -/
theorem channel_grantRange (p : LossPolicy) : (grantRange n a b p s).channel c = (s.channel c).map fun x =>
    if a ≤ c ∧ c ≤ b then { x with owned := some ⟨n, p⟩ } else x := by
  simp only [grantRange, channel_changeChannels, inRange_iff, Channel.grantedTo]
  cases s.channel c <;> rfl

end

/-! ### CLAIM -/

section
variable {h : Header} {first last policy : Byte} {wait : Half} {n : SessionIx} {s : State} {a b : ChanIx} {p : LossPolicy}

theorem claimBody_badField (hb : 31 < first.toNat ∨ 31 < last.toNat ∨ last.toNat < first.toNat ∨ 60000 < wait.toNat) :
    claimBody h first last policy wait n s = refuse h (.claim first last policy wait) .badField s := by
  unfold claimBody
  dsimp only
  split
  · next a b p hr _ =>
    have inside : ¬ (31 < first.toNat ∨ 31 < last.toNat ∨ last.toNat < first.toNat) :=
      fun e => by rw [rangeOf_eq_none.2 e] at hr; cases hr
    exact if_pos (by omega)
  · rfl

/-- R10: CLAIM with sound fields. -/
theorem claimBody_eq (hr : rangeOf first last = some (a, b)) (hp : lossPolicyOf policy = some p) (hw : wait.toNat ≤ 60000) :
    claimBody h first last policy wait n s =
      let r : Request := .claim first last policy wait
      if rangeHasAbsent a b s then refuse h r .absent s
      else if rangeFreeFor n a b s then
        let t := answer h r (doneWith (u8 0)) (grantRange n a b p s)
        if s.claims.waits.any fun e => e.session = n then grantPass t else t
      else if wait = 0 then refuse h r .held s
      else if 8 ≤ s.claims.waits.length || 2 ≤ (s.claims.waits.filter fun e => e.session = n).length then
        refuse h r .waitListFull s
      else answer h r (doneWith (u8 1)) (s.withWaits (s.claims.waits ++
        [{ session := n, first := a, last := b, policy := p
           deadline := s.after (wait.toNat * 1000), seq := h.seq.toNat }])) := by
  simp only [claimBody, hr, hp, Nat.not_lt.2 hw, if_false] <;> rfl

end

/-- Settles O26: the body by the first case of R10's table that holds, and the pass entry by entry. -/
theorem claimsAreGrantedOrWait : Obligations.ClaimsAreGrantedOrWait := by
  refine ⟨fun h first last policy wait n s at_ => ⟨fun hb => serve_eq at_ (claimBody_badField hb),
    fun a b p ha hb hab hp hw => ?_⟩, fun _ => rfl, fun e s => ⟨fun free => ?_, fun ⟨c, hc, hc', taken⟩ => ?_⟩⟩
  · have body := claimBody_eq (h := h) (n := n) (s := s) (rangeOf_eq_some.2 ⟨ha, hb, hab⟩) hp hw
    refine ⟨fun absent => ?_, fun free => ⟨?_, fun c => channel_grantRange p, (only_grantRange (by simp) n a b p).2 (.refl _ s),
      rfl⟩, fun present other => ?_⟩
    · exact serve_eq at_ (body.trans (if_pos (rangeHasAbsent_iff.2 absent)))
    · have present : ¬ rangeHasAbsent a b s = true := fun e => by
        obtain ⟨c, hc, hc', none⟩ := rangeHasAbsent_iff.1 e
        obtain ⟨x, hx, -⟩ := free c hc hc'
        simp [none] at hx
      exact serve_eq at_ (body.trans ((if_neg present).trans (if_pos (rangeFreeFor_iff.2 free))))
    · have present' : ¬ rangeHasAbsent a b s = true := fun e => by
        obtain ⟨c, hc, hc', none⟩ := rangeHasAbsent_iff.1 e
        exact present c hc hc' none
      have held : ¬ rangeFreeFor n a b s = true := fun e => by
        obtain ⟨c, x, m, hc, hc', hx, hm, ne⟩ := other
        obtain ⟨y, hy, owner⟩ := rangeFreeFor_iff.1 e c hc hc'
        cases hx.symm.trans hy
        simp [hm, ne] at owner
      have waits := body.trans ((if_neg present').trans (if_neg held))
      refine ⟨fun zero => serve_eq at_ (waits.trans (if_pos zero)), fun ne full => ?_, fun ne room room' => ?_⟩
      · exact serve_eq at_ (waits.trans ((if_neg ne).trans (if_pos (by simpa using full))))
      · exact serve_eq at_ (waits.trans ((if_neg ne).trans (if_neg (by simp; omega))))
  · intro t
    have granted : grantEntry s e = claimResult e .granted none t := if_pos (rangeFreeFor_iff.2 free)
    exact ⟨fun k hk => granted.trans (sessionReport_open hk), fun hn => granted.trans (sessionReport_closed hn)⟩
  · refine if_neg fun free => ?_
    obtain ⟨x, hx, owner⟩ := rangeFreeFor_iff.1 free c hc hc'
    have := taken x hx
    tauto

/-- R17: CHANNEL_CONFIG for a present channel. -/
theorem channelConfigBody_eq {h : Header} {channel : Byte} {lower upper safe : Half} {n : SessionIx} {s : State} {c : ChanIx}
    {x : Channel} (hc : chanOf channel = some c) (hx : s.channel c = some x) :
    channelConfigBody h channel lower upper safe n s =
      let r : Request := .channelConfig channel lower upper safe
      if x.owner ≠ some n then refuse h r .notOwned s
      else if ¬ (x.descLower ≤ signed lower ∧ signed lower ≤ signed safe ∧ signed safe ≤ signed upper ∧
          signed upper ≤ x.descUpper) then refuse h r .outOfLimits s
      else if ¬ (signed lower ≤ x.commanded ∧ x.commanded ≤ signed upper) then refuse h r .outOfLimits s
      else if s.sets.any fun y => y.owner = n && y.writes c then refuse h r .inUse s
      else answer h r (doneWith []) (spoil n [c] (s.withChannels (s.claims.channels.put c
        (some { x with lower := signed lower, upper := signed upper, safe := signed safe })))) := by
  simp only [channelConfigBody, hc, hx, changeChannel] <;> rfl

/-- Settles O28: the body by the first check of R17 that fails. -/
theorem channelConfigFollowsItsTable : Obligations.ChannelConfigFollowsItsTable := by
  refine fun h channel lower upper safe n s at_ => ⟨fun hb => serve_eq at_ ?_, fun c hc => ⟨fun hx => serve_eq at_ ?_,
    fun x hx => ?_⟩⟩
  · simp only [channelConfigBody, chanOf_eq_none hb]
  · simp only [channelConfigBody, hc, hx]
  · have body := channelConfigBody_eq (h := h) (lower := lower) (upper := upper) (safe := safe) (n := n) hc hx
    intro ordered inside written
    have uses : (s.sets.any fun y => y.owner = n && y.writes c) = true ↔ written := by
      simp [written]
    refine ⟨fun other => serve_eq at_ (body.trans (if_pos other)), fun own bad => serve_eq at_ ?_,
      fun own ho hi hw => serve_eq at_ ?_, fun own ho hi hw => serve_eq at_ ?_⟩
    · rw [body]
      dsimp only
      rw [if_neg (not_not.2 own)]
      by_cases ho : ordered
      · exact (if_neg (not_not.2 ho)).trans (if_pos (bad.resolve_left (not_not.2 ho)))
      · exact if_pos ho
    · exact body.trans ((if_neg (not_not.2 own)).trans ((if_neg (not_not.2 ho)).trans ((if_neg (not_not.2 hi)).trans
        (if_pos (uses.2 hw)))))
    · exact body.trans ((if_neg (not_not.2 own)).trans ((if_neg (not_not.2 ho)).trans ((if_neg (not_not.2 hi)).trans
        (if_neg (mt uses.1 hw)))))

end Sys2Proof.Machine
end


section
/-! PROOFS. RELEASE, and what becomes of channels that leave their owner (O27). -/

namespace Sys2Proof.Machine

/-! ### Safe drives -/

section
variable {k : SlotIx} {c : ChanIx}

theorem mem_slotChannels : c ∈ slotChannels k ↔ slotOfChan c = k := by
  simp only [slotChannels, List.mem_map, List.mem_finRange, true_and, chanAt, slotOfChan, Fin.ext_iff]
  exact ⟨fun ⟨i, hi⟩ => by omega, fun hk => ⟨⟨c.val % 8, by omega⟩, by dsimp only; omega⟩⟩

theorem slotChannels_indices (k : SlotIx) : ((slotChannels k).map indexOfChan).Nodup := by
  have indices : (slotChannels k).map indexOfChan = (List.finRange 8).map Fin.val := by
    simp only [slotChannels, List.map_map]
    refine List.map_congr_left fun i _ => ?_
    simp only [Function.comp_apply, indexOfChan, chanAt]
    omega
  rw [indices]
  decide

end

/-- R8: the index and the working safe value of a channel that is driven safe. -/
def drivenValue (driven : ChanIx → Bool) (s : State) (c : ChanIx) : Option (Nat × Int) :=
  match s.channel c with
  | some x => if driven c then some (indexOfChan c, x.safe) else none
  | none => none

/-- R8: what a slot's DRIVE_SAFE names. -/
def drivenValues (driven : ChanIx → Bool) (s : State) (k : SlotIx) : List (Nat × Int) :=
  (slotChannels k).filterMap (drivenValue driven s)

/-- R8: the slots that get a DRIVE_SAFE, with what it names. -/
def driveSafes (driven : ChanIx → Bool) (s : State) : List (SlotIx × List (Nat × Int)) :=
  allSlots.filterMap fun k =>
    if drivenValues driven s k = [] || !s.bus.live.get k then none else some (k, drivenValues driven s k)

section
variable {driven : ChanIx → Bool} {s : State} {k : SlotIx} {c : ChanIx} {d : Nat × Int}

theorem drivenValue_eq_some : drivenValue driven s c = some d ↔
    ∃ y, s.channel c = some y ∧ driven c = true ∧ d = (indexOfChan c, y.safe) := by
  unfold drivenValue
  cases s.channel c with
  | none => simp
  | some x => cases driven c <;> simp [eq_comm]

theorem queueDriveSafe_eq (driven : ChanIx → Bool) (s : State) : queueDriveSafe driven s =
    postAll ((driveSafes driven s).map fun d => .busRequest .claimUnit (.driveSafe d.1 d.2)) s := by
  unfold queueDriveSafe driveSafes
  rw [List.map_filterMap]
  refine congrArg (postAll · s) (congrArg (allSlots.filterMap ·) (funext fun k => ?_))
  show (if drivenValues driven s k = [] || !s.bus.live.get k then none
    else some (Notice.busRequest .claimUnit (.driveSafe k (drivenValues driven s k)))) = _
  split <;> rfl

theorem mem_drivenValues {i : Nat} {v : Int} : (i, v) ∈ drivenValues driven s k ↔
    ∃ c y, s.channel c = some y ∧ driven c = true ∧ slotOfChan c = k ∧ i = indexOfChan c ∧ v = y.safe := by
  simp only [drivenValues, List.mem_filterMap, mem_slotChannels, drivenValue_eq_some, Prod.mk.injEq]
  exact ⟨fun ⟨c, hk, y, hy, hd, e⟩ => ⟨c, y, hy, hd, hk, e⟩, fun ⟨c, y, hy, hd, hk, e⟩ => ⟨c, hk, y, hy, hd, e⟩⟩

theorem drivenValues_indices : ((drivenValues driven s k).map (·.1)).Nodup := by
  refine (slotChannels_indices k).sublist ?_
  unfold drivenValues
  induction slotChannels k with
  | nil => exact .refl _
  | cons c cs ih =>
    rw [List.filterMap_cons, List.map_cons]
    split
    · exact ih.cons _
    · next d hd =>
      obtain ⟨y, -, -, rfl⟩ := drivenValue_eq_some.1 hd
      exact ih.cons_cons _

theorem mem_driveSafes {d : SlotIx × List (Nat × Int)} : d ∈ driveSafes driven s ↔
    drivenValues driven s d.1 ≠ [] ∧ s.bus.live.get d.1 = true ∧ d.2 = drivenValues driven s d.1 := by
  simp only [driveSafes, List.mem_filterMap, Option.ite_none_left_eq_some, Option.some.injEq, Bool.or_eq_true,
    decide_eq_true_eq, Bool.not_eq_true', not_or, Bool.not_eq_false, allSlots, List.mem_finRange, true_and]
  constructor
  · rintro ⟨k, ⟨hv, hl⟩, rfl⟩
    exact ⟨hv, hl, rfl⟩
  · rintro ⟨hv, hl, e⟩
    exact ⟨d.1, ⟨hv, hl⟩, Prod.ext rfl e.symm⟩

theorem driveSafes_slots : ((driveSafes driven s).map (·.1)).Nodup := by
  have slots : allSlots.Nodup := List.nodup_finRange 4
  refine slots.sublist ?_
  unfold driveSafes
  induction allSlots with
  | nil => exact .refl _
  | cons k ks ih =>
    rw [List.filterMap_cons]
    split
    · exact ih.cons _
    · next d hd =>
      simp only [Option.ite_none_left_eq_some, Option.some.injEq] at hd
      obtain ⟨-, rfl⟩ := hd
      exact ih.cons_cons _

theorem slot_mem_driveSafes : k ∈ (driveSafes driven s).map (·.1) ↔ s.bus.live.get k = true ∧
    ∃ c y, s.channel c = some y ∧ driven c = true ∧ slotOfChan c = k := by
  have some_value : drivenValues driven s k ≠ [] ↔ ∃ c y, s.channel c = some y ∧ driven c = true ∧ slotOfChan c = k := by
    rw [← List.isEmpty_eq_false_iff, List.isEmpty_eq_false_iff_exists_mem]
    exact ⟨fun ⟨d, hd⟩ => have ⟨c, y, hy, hc, hk, _⟩ := mem_drivenValues.1 hd; ⟨c, y, hy, hc, hk⟩,
      fun ⟨c, y, hy, hc, hk⟩ => ⟨(indexOfChan c, y.safe), mem_drivenValues.2 ⟨c, y, hy, hc, hk, rfl, rfl⟩⟩⟩
  rw [← some_value, List.mem_map]
  constructor
  · rintro ⟨d, hd, rfl⟩
    obtain ⟨hv, hl, -⟩ := mem_driveSafes.1 hd
    exact ⟨hl, hv⟩
  · exact fun ⟨hl, hv⟩ => ⟨(k, drivenValues driven s k), mem_driveSafes.2 ⟨hv, hl, rfl⟩, rfl⟩

end

/-! ### Channels that leave their owner -/

/-- R16, R19: the records after channels have left their owner. -/
theorem channel_freeChannels (freed driven : ChanIx → Bool) (s : State) (c : ChanIx) :
    (freeChannels freed driven s).channel c = (s.channel c).map fun x =>
      if freed c then if driven c then x.drivenSafe.freed else x.freed else x := by
  have same : (queueDriveSafe driven s).channel c = s.channel c := rfl
  rw [freeChannels, channel_changeChannels, same]
  cases s.channel c with
  | none => rfl
  | some x => cases freed c <;> rfl

/-! ### RELEASE -/

section
variable {h : Header} {first last toSafe force : Byte} {n : SessionIx} {s : State} {a b : ChanIx}

/-- R15, R16: RELEASE of a range. -/
theorem releaseBody_eq (hr : rangeOf first last = some (a, b)) : releaseBody h first last toSafe force n s =
    let r : Request := .release first last toSafe force
    let cs := ownedIn n a b s
    let writers := s.sets.filter fun x => x.owner = n && x.writesAny cs
    let lost := cs.map fun c => (⟨c, n⟩ : LostChannel)
    let t := answer h r (doneWith (u8 cs.length))
      (freeChannels cs.contains (fun c => decide (toSafe = 1) && cs.contains c) (cancelLostAll .channelReleased lost s))
    if writers.any (fun x => !x.waiting) || (!writers.isEmpty && !flagSet force) then refuse h r .inUse s
    else if cs = [] then t else grantPass (post (.lostToAssembler lost) t) := by
  simp only [releaseBody, hr] <;> rfl

end

/-- Settles O27: the body by R15's cases; records, drives and lists by the lemmas on `freeChannels`. -/
theorem releaseFreesChannels : Obligations.ReleaseFreesChannels := by
  refine ⟨fun h first last toSafe force n s at_ => ⟨fun hb => serve_eq at_ ?_, fun a b ha hb hab => ?_⟩,
    fun freed driven s => ⟨fun c x hx hf => ?_, fun c x hx hf hd => ?_, fun c x hx hf hd => ?_, fun c hc => ?_, rfl,
      driveSafes driven s, ?_, driveSafes_slots, fun k => slot_mem_driveSafes, fun d hd => ?_⟩⟩
  · simp only [releaseBody, rangeOf_eq_none.2 hb]
  · intro cs writers
    have body := releaseBody_eq (h := h) (toSafe := toSafe) (force := force) (n := n) (s := s)
      (rangeOf_eq_some.2 ⟨ha, hb, hab⟩)
    have used : (writers.any (fun x => !x.waiting) || (!writers.isEmpty && !flagSet force)) = true ↔
        (∃ x ∈ writers, x.state = .applying) ∨ (writers ≠ [] ∧ force ≠ 1) := by
      simp only [Bool.or_eq_true, List.any_eq_true, Bool.and_eq_true, Bool.not_eq_true', List.isEmpty_eq_false_iff, flagSet,
        SealedSet.waiting, decide_eq_false_iff_not, not_not, ne_eq]
    refine ⟨fun hu => serve_eq at_ (body.trans (if_pos (used.2 hu))), fun waiting may => ?_⟩
    intro lost t
    have free : ¬ (writers.any (fun x => !x.waiting) || (!writers.isEmpty && !flagSet force)) = true := fun e => by
      obtain ⟨x, hx, ha⟩ | ⟨hw, hf⟩ := used.1 e
      · exact waiting x hx ha
      · exact may.elim hw hf
    exact ⟨fun none => serve_eq at_ (body.trans ((if_neg free).trans (if_pos none))),
      fun some => serve_eq at_ (body.trans ((if_neg free).trans (if_neg some)))⟩
  · rw [channel_freeChannels, hx, Option.map_some, hf]
    rfl
  · rw [channel_freeChannels, hx, Option.map_some, hf, hd]
    rfl
  · rw [channel_freeChannels, hx, Option.map_some, hf, hd]
    rfl
  · rw [channel_freeChannels, hc]
    rfl
  · rw [freeChannels, queueDriveSafe_eq]
    rfl
  · obtain ⟨-, -, values⟩ := mem_driveSafes.1 hd
    rw [values]
    exact ⟨drivenValues_indices, fun i v => mem_drivenValues⟩

end Sys2Proof.Machine
end


section
/-! PROOFS. Channels that come and go with their slot (O29). -/

namespace Sys2Proof.Machine

theorem slotChannels_eq (k : SlotIx) : slotChannels k = allChannels.filter fun c => slotOfChan c = k := by
  revert k
  decide

/-! ### Entries whose range has lost a channel -/

/-- R3: the lowest of some channels in the range of a wait entry. -/
def absentIn (gone : List ChanIx) (e : WaitEntry) : Option ChanIx :=
  allChannels.find? fun c => gone.contains c && inRange e.first e.last c

/-- R3: the CLAIM_RESULT of an entry whose range has lost a channel. -/
def absentResult (gone : List ChanIx) (s : State) (e : WaitEntry) : Option Notice :=
  match absentIn gone e, s.session e.session with
  | some c, some r => some (.report .claimUnit (some (e.session, r.incarnation)) (.claimResult
      { outcome := .absent, first := e.first, last := e.last, seq := e.seq, lost := some c }))
  | _, _ => none

theorem absentResult_of_sessions {s t : State} (h : t.sessions = s.sessions) (gone : List ChanIx) :
    absentResult gone t = absentResult gone s := by
  funext e
  unfold absentResult State.session
  rw [h]

/-- R3: one entry of the Claim Wait List. -/
def dropAbsentWait (gone : List ChanIx) (s : State) (e : WaitEntry) : State :=
  match absentIn gone e with
  | some c => claimResult e .absent (some c) (s.withWaits (s.claims.waits.erase e))
  | none => s

theorem dropAbsentWait_parts (gone : List ChanIx) (s : State) (e : WaitEntry) :
    (dropAbsentWait gone s e).claims =
      (if (absentIn gone e).isSome then { s.claims with waits := s.claims.waits.erase e } else s.claims) ∧
    (dropAbsentWait gone s e).sessions = s.sessions ∧
    (dropAbsentWait gone s e).notices = s.notices ++ (absentResult gone s e).toList := by
  unfold dropAbsentWait absentResult claimResult
  cases absentIn gone e with
  | none => simp
  | some c =>
    cases hs : s.session e.session with
    | none =>
      dsimp only
      rw [sessionReport_closed (by exact hs)]
      exact ⟨rfl, rfl, (List.append_nil _).symm⟩
    | some r =>
      dsimp only
      rw [sessionReport_open (by exact hs)]
      exact ⟨rfl, rfl, rfl⟩

/-- The entries before the one that the pass has come to are those that stay. -/
theorem foldl_dropAbsentWait (gone : List ChanIx) (stay rest : List WaitEntry) (s : State)
    (hs : s.claims.waits = stay ++ rest) (hstay : ∀ e ∈ stay, absentIn gone e = none) :
    let t := rest.foldl (dropAbsentWait gone) s
    t.claims = { s.claims with waits := stay ++ rest.filter fun e => (absentIn gone e).isNone } ∧
      t.notices = s.notices ++ rest.filterMap (absentResult gone s) := by
  induction rest generalizing stay s with
  | nil => exact ⟨by rw [List.filter_nil, ← hs]; rfl, (List.append_nil _).symm⟩
  | cons e rest ih =>
    obtain ⟨claims₁, sessions₁, notices₁⟩ := dropAbsentWait_parts gone s e
    have notices_cons : s.notices ++ (absentResult gone s e).toList ++ rest.filterMap (absentResult gone s) =
        s.notices ++ (e :: rest).filterMap (absentResult gone s) := by
      rw [List.append_assoc, List.filterMap_cons]
      cases absentResult gone s e <;> rfl
    cases he : absentIn gone e with
    | none =>
      rw [he] at claims₁
      obtain ⟨claims, notices⟩ := ih (stay ++ [e]) (dropAbsentWait gone s e) (by rw [claims₁]; simpa using hs) (by
        simpa [or_imp, forall_and, he] using hstay)
      refine ⟨?_, ?_⟩
      · rw [List.foldl_cons, claims, claims₁, List.filter_cons]
        simp [he]
      · rw [List.foldl_cons, notices, notices₁, absentResult_of_sessions sessions₁, notices_cons]
    | some c =>
      have gone_e : e ∉ stay := fun h => by simp [hstay e h] at he
      have erased : (stay ++ e :: rest).erase e = stay ++ rest := by
        rw [List.erase_append_right _ gone_e, List.erase_cons_head]
      rw [he, hs, erased] at claims₁
      obtain ⟨claims, notices⟩ := ih stay (dropAbsentWait gone s e) (by rw [claims₁]; rfl) hstay
      refine ⟨?_, ?_⟩
      · rw [List.foldl_cons, claims, claims₁, List.filter_cons]
        simp [he]
      · rw [List.foldl_cons, notices, notices₁, absentResult_of_sessions sessions₁, notices_cons]

theorem dropAbsentWaits_parts (gone : List ChanIx) (s : State) :
    (dropAbsentWaits gone s).claims =
      { s.claims with waits := s.claims.waits.filter fun e => (absentIn gone e).isNone } ∧
    (dropAbsentWaits gone s).notices = s.notices ++ s.claims.waits.filterMap (absentResult gone s) :=
  foldl_dropAbsentWait gone [] s.claims.waits s rfl (fun _ h => nomatch h)

/-! ### The channels of a slot -/

/-- R3: the channels that a slot loses. -/
def goneChannels (k : SlotIx) (s : State) : List ChanIx := (slotChannels k).filter fun c => (s.channel c).isSome

/-- R3: the lost channels that had an owner, with it. -/
def lostChannels (k : SlotIx) (s : State) : List LostChannel := allChannels.filterMap fun c =>
  if slotOfChan c = k then (s.channel c).bind fun x => x.owner.map fun n => ⟨c, n⟩ else none

section
variable {k : SlotIx} {s : State} {c : ChanIx} {n : SessionIx}

theorem mem_goneChannels : c ∈ goneChannels k s ↔ slotOfChan c = k ∧ (s.channel c).isSome = true := by
  rw [goneChannels, List.mem_filter, mem_slotChannels]

theorem mem_lostChannels : ⟨c, n⟩ ∈ lostChannels k s ↔ slotOfChan c = k ∧ ∃ x, s.channel c = some x ∧ x.owner = some n := by
  simp only [lostChannels, List.mem_filterMap, Option.ite_none_right_eq_some, Option.bind_eq_some_iff,
    Option.map_eq_some_iff, LostChannel.mk.injEq, allChannels, List.mem_finRange, true_and]
  constructor
  · rintro ⟨c', hk, x, hx, n', hn, rfl, rfl⟩
    exact ⟨hk, x, hx, hn⟩
  · exact fun ⟨hk, x, hx, hn⟩ => ⟨c, hk, x, hx, n, hn, rfl, rfl⟩

/-- R3: what becomes of the channels, and who is told. -/
theorem makeAbsent_eq (k : SlotIx) (s : State) : makeAbsent k s =
    let t := dropAbsentWaits (goneChannels k s) (changeChannels (fun c x => if slotOfChan c = k then none else some x) s)
    if lostChannels k s = [] then t
    else postAll [.lostToAssembler (lostChannels k s), .lostToSchedule (lostChannels k s)] t := by
  have lost : (goneChannels k s).filterMap (fun c => match s.channel c with
      | some x => x.owner.map fun n => (⟨c, n⟩ : LostChannel)
      | none => none) = lostChannels k s := by
    rw [goneChannels, slotChannels_eq, List.filter_filter, List.filterMap_filter, lostChannels]
    refine List.filterMap_congr fun c _ => ?_
    cases s.channel c <;> simp
  rw [← lost]
  rfl

end

/-- Settles O29: the records by `makePresent`, the lost channels, entries and notices by `makeAbsent_eq`. -/
theorem channelsComeAndGoWithTheirSlot : Obligations.ChannelsComeAndGoWithTheirSlot := by
  refine ⟨fun k d held s hh => ?_, fun k s hh => ?_⟩
  · let u := dropNotice (.slotToClaim k) s
    have record (c : ChanIx) : (makePresent k d held u).channel c = if slotOfChan c = k then
        (d.entries[indexOfChan c]?).bind fun e =>
          (channelKindOf e.kind).map fun kind => freshChannel kind e (heldValue held (indexOfChan c))
        else s.channel c := by
      refine (Table.get_tab _ c).trans ?_
      split
      · cases d.entries[indexOfChan c]? with
        | none => rfl
        | some e =>
          dsimp only [Option.bind_some]
          cases channelKindOf e.kind <;> rfl
      · rfl
    refine ⟨makePresent k d held u, congrArg Host.Outcome.next (onNotice_some hh rfl), rfl, rfl, fun c hc => ?_,
      fun c hc hl => ?_, fun c e kind hc he hkind => ?_⟩
    · rw [record, if_neg hc]
    · rw [record, if_pos hc, List.getElem?_eq_none hl]
      rfl
    · rw [record, if_pos hc, he, Option.bind_some, hkind]
      refine ⟨fun hh => ?_, fun v hv => ?_⟩
      · subst hh
        rfl
      · subst hv
        rfl
  · let u := dropNotice (.slotToClaim k) s
    let v := changeChannels (fun c x => if slotOfChan c = k then none else some x) u
    let t := dropAbsentWaits (goneChannels k s) v
    let told := if lostChannels k s = [] then t
      else postAll [.lostToAssembler (lostChannels k s), .lostToSchedule (lostChannels k s)] t
    obtain ⟨claims, notices⟩ := dropAbsentWaits_parts (goneChannels k s) v
    have toldClaims : told.claims = t.claims := by
      simp only [told]
      split <;> rfl
    have channel (c : ChanIx) : told.channel c = if slotOfChan c = k then none else s.channel c := by
      have kept : told.channel c = v.channel c := by rw [State.channel, toldClaims, claims, State.channel]
      rw [kept, channel_changeChannels]
      show (s.channel c).bind _ = _
      split <;> cases s.channel c <;> rfl
    refine ⟨told, congrArg Host.Outcome.next (onNotice_some hh (congrArg some (makeAbsent_eq k u))), fun c hc => ?_,
      fun c hc => ?_, ?_⟩
    · rw [channel, if_pos hc]
    · rw [channel, if_neg hc]
    · intro gone named lost
      have named_eq (e : WaitEntry) : absentIn (goneChannels k s) e = named e := by
        refine congrArg (fun p => allChannels.find? p) (funext fun c => ?_)
        have contains : (goneChannels k s).contains c = gone c := by
          rw [Bool.eq_iff_iff, List.contains_iff_mem, mem_goneChannels]
          simp [gone]
        simp only [contains, inRange, Bool.and_assoc]
      refine ⟨fun e c hc => ?_, fun c n => mem_lostChannels, ?_, ?_⟩
      · obtain ⟨holds, first⟩ := Fin.find?_eq_some_iff.1 (Fin.find?_eq_find?_finRange.trans hc)
        simp only [Bool.and_eq_true, decide_eq_true_eq] at holds
        obtain ⟨⟨present, low⟩, high⟩ := holds
        refine ⟨present, low, high, fun d hd hlow => ?_⟩
        simpa [hlow, hd.le.trans high] using first d hd
      · rw [toldClaims, claims]
        simp only [named_eq] <;> rfl
      · have results : told.notices = v.notices ++ v.claims.waits.filterMap (absentResult (goneChannels k s) v) ++
            if lostChannels k s = [] then [] else [.lostToAssembler (lostChannels k s), .lostToSchedule (lostChannels k s)] := by
          rw [← notices]
          simp only [told]
          split
          · exact (List.append_nil _).symm
          · rfl
        refine results.trans (congrArg (fun l => v.notices ++ l ++ _) (List.filterMap_congr fun e _ => ?_))
        rw [absentResult, named_eq] <;> rfl

end Sys2Proof.Machine
end


section
/-! PROOFS. Commit records at the Claim Unit (O30); its expiries, halt entry and the values of a SAFE_ALL (O31). -/

namespace Sys2Proof.Machine

/-! ### Commit records -/

theorem safeOvertaken_iff {queued : Bool} {haltEntry : Option Nat} {commit : Nat} :
    safeOvertaken queued haltEntry commit = true ↔ queued = true ∨ ∃ t, haltEntry = some t ∧ commit ≤ t := by
  simp [safeOvertaken, Option.any_eq_true]

theorem changeChannel_present {c : ChanIx} {x : Channel} {s : State} (hx : s.channel c = some x) (f : Channel → Channel) :
    changeChannel c f s = s.withChannels (s.claims.channels.put c (some (f x))) := by simp [changeChannel, hx]

theorem changeChannel_absent {c : ChanIx} {s : State} (hx : s.channel c = none) (f : Channel → Channel) :
    changeChannel c f s = s := by simp [changeChannel, hx]

/-- Settles O30: each record by R76's cases. -/
theorem commitRecordsReachTheChannels : Obligations.CommitRecordsReachTheChannels := by
  refine ⟨fun rs queued s hh => congrArg Host.Outcome.next (onNotice_some hh rfl), fun queued s r => ?_,
    fun x t => ⟨fun hr => ?_, fun r hr => ⟨fun done => ?_, fun running => ?_⟩⟩⟩
  · intro overtaken
    refine ⟨fun hx => changeChannel_absent hx _, fun x hx => ⟨fun ho => ?_, fun ho h0 => ?_, fun ho h0 => ?_⟩⟩
    · refine (changeChannel_present hx _).trans ?_
      rw [if_pos (safeOvertaken_iff.2 ho)]
      rfl
    · refine (changeChannel_present hx _).trans ?_
      rw [if_neg (mt safeOvertaken_iff.1 ho), Channel.committed, newRamp, if_pos h0]
    · refine (changeChannel_present hx _).trans ?_
      rw [if_neg (mt safeOvertaken_iff.1 ho), Channel.committed, newRamp, if_neg h0.ne']
      rfl
  · simp only [Channel.interpolated, hr]
  · simp only [Channel.interpolated, hr, if_pos done]
  · simp only [Channel.interpolated, hr, if_neg (Nat.not_le.2 running)]

/-! ### Expiries, halt entry and SAFE_ALL -/

theorem channel_driveRecordsSafe (s : State) (c : ChanIx) :
    (driveRecordsSafe s).channel c = (s.channel c).map Channel.drivenSafe := by
  rw [driveRecordsSafe, channel_changeChannels]
  cases s.channel c <;> rfl

/-- R138: the values of the SAFE_ALL in progress. -/
theorem giveSafeValues_eq {p : InProgress} {s : State} (hp : s.bus.current = some p) (ht : p.txn = .safeAll) :
    giveSafeValues s = modulesCarryOut p.attemptNo (fun k m => m.safeAll k (safeValuesOf s)) (s.withBus { s.bus with
      current := some { p with safeValues := some (safeValuesOf s), wire := txnBytes .safeAll (some (safeValuesOf s)) } }) := by
  simp only [giveSafeValues, hp, ht, if_true]

/-- Settles O31: each event by its own definition; the modules by `module_modulesCarryOut`. -/
theorem claimUnitExpiriesHaltAndSafeValues : Obligations.ClaimUnitExpiriesHaltAndSafeValues := by
  refine ⟨fun c x r s hx hr => congrArg Host.Outcome.next ?_, fun i e k s he hk => congrArg Host.Outcome.next ?_,
    fun time s hh => ?_, fun p s hh hp ht => ?_⟩
  · simp only [hx, hr, State.reached, decide_eq_true_eq, changeChannel_present hx]
  · simp only [he, State.reached, decide_eq_true_eq]
    exact if_congr Iff.rfl (sessionReport_open hk) rfl
  · let u := dropNotice (.halt .claimUnit) s
    refine ⟨driveRecordsSafe (u.withClaims { u.claims with haltEntry := time }),
      congrArg Host.Outcome.next (onNotice_some hh rfl), rfl, rfl, rfl, fun c => ?_⟩
    exact channel_driveRecordsSafe _ c
  · intro values
    let u := dropNotice .safeAllValues s
    let v := u.withBus { u.bus with
      current := some { p with safeValues := some values, wire := txnBytes .safeAll (some values) } }
    obtain ⟨w, hw⟩ : ∃ w, w = modulesCarryOut p.attemptNo (fun k m => m.safeAll k values) v := ⟨_, rfl⟩
    have given : giveSafeValues u = w := (giveSafeValues_eq (s := u) hp ht).trans hw.symm
    have only : OnlyChanges [.modules] v w := hw ▸ (only_modulesCarryOut (by simp) _ _).2 (.refl _ v)
    have bus : w.bus = v.bus := only .bus (by simp)
    have notices : w.notices = u.notices := only .notices (by simp)
    have claims : w.claims = s.claims := only .claims (by simp)
    refine ⟨driveRecordsSafe w, congrArg Host.Outcome.next (onNotice_some hh (by rw [given])), bus,
      fun k => ?_, notices, congrArg (·.waits) claims, congrArg (·.haltEntry) claims, fun c => ?_⟩
    · show w.module k = _
      rw [hw]
      exact module_modulesCarryOut _ _ v k
    · rw [channel_driveRecordsSafe, State.channel, claims]
      rfl

end Sys2Proof.Machine
end


section
/-! PROOFS. SET_OPEN (O32) and SET_ADD (O33). -/

namespace Sys2Proof.Machine

/-! ### SET_OPEN -/

section
variable {kind late : Byte} {time : Time} {predecessor : Half} {delay offset : Long} {d : Due} {p : LatePolicy}

theorem dueOf_isSome (hk : kind.toNat ≤ 5) : ∃ d, dueOf kind time predecessor delay offset = some d := by
  unfold dueOf
  generalize kind.toNat = v at *
  interval_cases v <;> exact ⟨_, rfl⟩

/-- R23: the due kind by its code. -/
theorem dueOf_spec (hd : dueOf kind time predecessor delay offset = some d) :
    match kind.toNat with
    | 0 => d = .now
    | 1 => d = .atTime time.toNat
    | 2 => d = .after predecessor.toNat delay.toNat
    | 3 => d = .trigger .trig0
    | 4 => d = .trigger .trig1
    | 5 => d = .offset offset.toNat
    | _ => False := by
  unfold dueOf at hd
  split at hd <;> cases hd <;> simp only [*]

/-- R23: the predecessor of an AFTER set is 1 to 65534. -/
theorem duePredecessorOk_eq_false (hd : dueOf kind time predecessor delay offset = some d) :
    duePredecessorOk d = false ↔ kind = 2 ∧ (predecessor.toNat = 0 ∨ predecessor.toNat = 65535) := by
  have two : kind = 2 ↔ kind.toNat = 2 := ⟨fun e => e ▸ rfl, fun e => BitVec.eq_of_toNat_eq e⟩
  have range : predecessor.toNat < 65536 := predecessor.isLt
  rw [two]
  unfold dueOf at hd
  split at hd <;> cases hd
  case h_3 e =>
    simp only [duePredecessorOk, Bool.and_eq_false_iff, decide_eq_false_iff_not, e, true_and]
    omega
  all_goals simp_all [duePredecessorOk]

theorem latePolicyOf_spec (hp : latePolicyOf late = some p) : late = 0 ∧ p = .apply ∨ late = 1 ∧ p = .discard := by
  unfold latePolicyOf at hp
  split at hp <;> cases hp
  · next e => exact .inl ⟨BitVec.eq_of_toNat_eq e, rfl⟩
  · next e => exact .inr ⟨BitVec.eq_of_toNat_eq e, rfl⟩

end

/-- Settles O32: with R186's sound encoding the body answers by the first check of R23 that fails. -/
theorem setOpenFollowsItsTable : Obligations.SetOpenFollowsItsTable := by
  intro h kind late capture sync time predecessor delay offset n k s r i a hk badPredecessor
  have sound : (kind.toNat ≤ 5 ∧ (latePolicyOf late).isSome) := by
    have := a.encoding
    simp only [r, encodingOk, Bool.and_eq_true, decide_eq_true_eq] at this
    exact this.1.1
  obtain ⟨d, hd⟩ := dueOf_isSome (time := time) (predecessor := predecessor) (delay := delay) (offset := offset) sound.1
  obtain ⟨p, hp⟩ := Option.isSome_iff_exists.1 sound.2
  have bad : duePredecessorOk d = false ↔ badPredecessor := duePredecessorOk_eq_false hd
  have good (hb : ¬ badPredecessor) : ¬ (!duePredecessorOk d) = true := by simpa using mt bad.1 hb
  refine ⟨fun hb => serve_eq a ?_, fun o hb ho => serve_eq a ?_, fun hb ho => ⟨d, p, dueOf_spec hd, latePolicyOf_spec hp,
    serve_eq a ?_⟩⟩
  · simp only [setOpenBody, hd, hp]
    exact if_pos (by simpa using bad.2 hb)
  · simp only [setOpenBody, hd, hp, ho]
    exact if_neg (good hb)
  · simp only [setOpenBody, hd, hp, ho]
    refine (if_neg (good hb)).trans ?_
    simp only [mayAdd, hk, flagSet] <;> rfl

/-! ### The items of a SET_ADD -/

section
variable {n : SessionIx} {earlier : List Byte} {i : RawItem} {s : State}

/-- R25: the first failure among the items, by the checks of each with the channels before it. -/
theorem firstItemFault_none (position : Nat) (items : List RawItem) :
    firstItemFault n s position earlier items = none ↔ ∀ j i, items[j]? = some i →
      itemFault n (((items.take j).map (·.channel)).reverse ++ earlier) i s = none := by
  induction items generalizing position earlier with
  | nil => simp [firstItemFault]
  | cons x xs ih =>
    rw [firstItemFault]
    cases hx : itemFault n earlier x s with
    | some r =>
      refine ⟨nofun, fun h => ?_⟩
      have := h 0 x rfl
      simp [hx] at this
    | none =>
      refine (ih _).trans ⟨fun h j i hi => ?_, fun h j i hi => ?_⟩
      · cases j with
        | zero =>
          cases hi
          simpa using hx
        | succ j => simpa using h j i hi
      · simpa using h (j + 1) i hi

theorem firstItemFault_some {position p : Nat} {items : List RawItem} {reason : Reason}
    (hp : ∀ j i, j < p → items[j]? = some i →
      itemFault n (((items.take j).map (·.channel)).reverse ++ earlier) i s = none)
    (hi : items[p]? = some i)
    (hr : itemFault n (((items.take p).map (·.channel)).reverse ++ earlier) i s = some reason) :
    firstItemFault n s position earlier items = some (reason, position + p, i.channel) := by
  induction items generalizing position earlier p with
  | nil => simp at hi
  | cons x xs ih =>
    rw [firstItemFault]
    cases p with
    | zero =>
      cases hi
      rw [show itemFault n earlier i s = some reason by simpa using hr]
      rfl
    | succ p =>
      rw [show itemFault n earlier x s = none by simpa using hp 0 x (Nat.succ_pos p) rfl]
      refine (ih (position := position + 1) (fun j i hj hi => ?_) hi (by simpa using hr)).trans ?_
      · simpa using hp (j + 1) i (Nat.succ_lt_succ hj) hi
      · rw [Nat.add_assoc, Nat.add_comm 1]

theorem itemOf_isSome (h : itemFault n earlier i s = none) : (itemOf i).isSome := by
  unfold itemFault at h
  unfold itemOf
  cases hc : chanOf i.channel with
  | none => simp [hc] at h
  | some c => rfl

/-- R27: items whose channels are sound are all kept. -/
theorem filterMap_itemOf {items : List RawItem} (h : ∀ i ∈ items, (itemOf i).isSome) :
    (items.filterMap itemOf).map some = items.map itemOf := by
  induction items with
  | nil => rfl
  | cons i items ih =>
    obtain ⟨x, hx⟩ := Option.isSome_iff_exists.1 (h i (.head _))
    rw [List.filterMap_cons_some hx, List.map_cons, List.map_cons, hx, ih fun i hi => h i (.tail _ hi)]

theorem itemOf_eq_some {x : Item} (h : itemOf i = some x) :
    x.channel.val = i.channel.toNat ∧ x.target = i.target.toInt ∧ x.ramp = i.ramp.toNat := by
  obtain ⟨c, hc, rfl⟩ := Option.map_eq_some_iff.1 h
  exact ⟨(chanOf_eq_some.1 hc).symm, rfl, rfl⟩

/-- R25: the checks of one item whose channel the session owns. -/
theorem itemFault_owned {c : ChanIx} {x : Channel} (hc : chanOf i.channel = some c) (hx : s.channel c = some x)
    (ho : x.owner = some n) : itemFault n earlier i s =
      if ¬ (x.lower ≤ signed i.target ∧ signed i.target ≤ x.upper) then some .outOfLimits
      else if x.kind = .digital ∧ ¬ ((signed i.target = 0 ∨ signed i.target = 1) ∧ i.ramp = 0) then some .badField
      else if earlier.contains i.channel then some .duplicateChannel
      else none := by
  simp only [itemFault, hc, hx]
  exact if_neg (not_not.2 ho)

end

/-! ### SET_ADD -/

section
variable {h : Header} {sealFlag : Byte} {items : List RawItem} {n : SessionIx} {k : Session} {o : OpenSet} {s : State}

theorem exec_setAdd {u : State} (a : AtBlock (.told .setAssembler) h (.setAdd sealFlag items) n s)
    (hl : items.length ≤ 47) (hw : ∀ m inc x, .sealAsked m inc h x ∉ s.notices)
    (hu : setAddBody h sealFlag items n s = u) : exec (.setAdd h sealFlag items) s = .next u := by
  have waits : ¬ sealWaits h s = true := by simp [sealWaits_eq_false hw]
  exact (if_neg (Nat.not_lt.2 hl)).trans ((if_neg waits).trans (serve_eq a hu))

/-- R24 to R29: the detail of a refused SET_ADD. -/
theorem setAddRefusal_eq (hk : s.session n = some k) (reason : Reason) (position : Option Nat) (channel : Option Byte)
    (taken : Nat) : setAddRefusal n reason position channel taken s =
      { outcome := .refused, reason := some reason
        body := wOpt 1 u8 position ++ wOpt 1 (fun c : Byte => [c]) channel ++ u8 taken ++
          u8 (match s.openSet n with | some p => p.items.length | none => 0) ++ u16 k.inUse ++ u16 s.assembler.poolFree
        resetReply := false } := by
  simp only [setAddRefusal, setAddDetail, State.itemsInUse, hk] <;> rfl

/-- R26: what is left of SET_ADD once the open set takes its items. -/
theorem setAddBody_passes (hl : items.length ≤ 16) (ho : s.openSet n = some o) (hsp : o.spoiled = none)
    (h32 : o.items.length + items.length ≤ 32) (hk : s.session n = some k)
    (hf : firstItemFault n s 0 (o.items.map fun i => BitVec.ofNat 8 i.channel.val) items = none) :
    setAddBody h sealFlag items n s =
      let r : Request := .setAdd sealFlag items
      if k.quota < k.inUse + items.length then answer h r (setAddRefusal n .quota none none 0 s) s
      else if s.assembler.poolFree < items.length then answer h r (setAddRefusal n .poolFull none none 0 s) s
      else
        let t := takeItems n o (items.filterMap itemOf) s
        if flagSet sealFlag then askSeal h r n items.length t
        else answer h r (doneWith (addedCounts n items.length t)) t := by
  simp only [setAddBody, Nat.not_lt.2 hl, if_false, ho, hsp, Nat.not_lt.2 h32, hf, quotaOf, State.itemsInUse, hk] <;> rfl

end

/-! ### Taken items -/

section
variable (n : SessionIx) (o : OpenSet) (kept : List Item) (s : State)

theorem takeItems_openSet (m : SessionIx) : (takeItems n o kept s).openSet m =
    if n = m then some { o with items := o.items ++ kept } else s.openSet m := by
  rw [takeItems, openSet_of_assembler_eq (changeInUse_assembler _ _ _)]
  simp

theorem takeItems_poolFree : (takeItems n o kept s).assembler.poolFree = s.assembler.poolFree - kept.length := by
  simp [takeItems]

theorem takeItems_session {k : Session} (hk : s.session n = some k) (m : SessionIx) :
    (takeItems n o kept s).session m =
      if n = m then some { k with inUse := k.inUse + kept.length } else s.session m := by
  rw [takeItems, changeInUse_of_session (k := k) (by simpa using hk)]
  simp

theorem takeItems_frame : OnlyChanges [.assembler, .sessions] s (takeItems n o kept s) :=
  (only_takeOpenItems (by simp) (by simp) n o kept).2 (.refl _ s)

end

/-- Settles O33: the items by R25's checks in order, the message by R24 to R26's, and what it adds by `takeItems`. -/
theorem setAddFollowsItsTable : Obligations.SetAddFollowsItsTable := by
  refine ⟨fun n earlier i s => ⟨fun hb => ?_, fun c hc => ⟨fun other => ?_, fun x hx ho => ?_⟩⟩, ?_, ?_⟩
  · simp only [itemFault, chanOf_eq_none hb]
  · simp only [itemFault, hc]
    cases hx : s.channel c with
    | none => rfl
    | some x => exact if_pos (other x hx)
  · intro inside digitalOk
    have checks := itemFault_owned (earlier := earlier) hc hx ho
    have digital : ¬ (x.kind = .digital ∧ ¬ ((signed i.target = 0 ∨ signed i.target = 1) ∧ i.ramp = 0)) ↔ digitalOk := by
      rw [not_and, not_not]
    refine ⟨fun hi => checks.trans (if_pos hi), fun hi hd => ?_, fun hi hd he => ?_, fun hi hd he => ?_⟩
    · exact checks.trans ((if_neg (not_not.2 hi)).trans (if_pos (not_not.1 (mt digital.1 hd))))
    · exact checks.trans ((if_neg (not_not.2 hi)).trans ((if_neg (digital.2 hd)).trans (if_pos (by simpa using he))))
    · exact checks.trans ((if_neg (not_not.2 hi)).trans ((if_neg (digital.2 hd)).trans (if_neg (by simpa using he))))
  · intro h sealFlag items n k s r a hk hl hw refused
    have refusal (reason : Reason) (position : Option Nat) (channel : Option Byte)
        (hb : setAddBody h sealFlag items n s = answer h r (setAddRefusal n reason position channel 0 s) s) :
        exec (.setAdd h sealFlag items) s = refused (s.openSet n) reason position channel :=
      exec_setAdd a hl hw (hb.trans (by rw [setAddRefusal_eq hk] <;> rfl))
    refine ⟨fun long => refusal _ _ _ (if_pos long), fun short ho => ?_, fun o short ho => ?_⟩
    · refine ho ▸ refusal _ _ _ ?_
      simp only [setAddBody, Nat.not_lt.2 short, if_false, ho] <;> rfl
    · rw [← ho]
      refine ⟨fun c hc => refusal _ _ _ ?_, fun hsp full => refusal _ _ _ ?_, fun hsp room => ?_⟩
      · simp only [setAddBody, Nat.not_lt.2 short, if_false, ho, hc] <;> rfl
      · simp only [setAddBody, Nat.not_lt.2 short, if_false, ho, hsp]
        exact if_pos full
      · intro there passes
        have all_pass (hp : passes items.length) : firstItemFault n s 0 there items = none :=
          (firstItemFault_none 0 items).2 fun j i hi => hp j i (List.getElem?_eq_some_iff.1 hi).1 hi
        refine ⟨fun p i reason hp hi hr => refusal _ _ _ ?_, fun hp above => refusal _ _ _ ?_,
          fun hp within empty => refusal _ _ _ ?_⟩
        · have first := firstItemFault_some (position := 0) hp hi hr
          simp only [setAddBody, Nat.not_lt.2 short, if_false, ho, hsp, Nat.not_lt.2 room]
          rw [first, Nat.zero_add]
        · exact (setAddBody_passes short ho hsp room hk (all_pass hp)).trans (if_pos above)
        · exact (setAddBody_passes short ho hsp room hk (all_pass hp)).trans
            ((if_neg (Nat.not_lt.2 within)).trans (if_pos empty))
  · intro h sealFlag items n k o s r there a hk ho hw short hsp room hp within enough
    have all_pass : firstItemFault n s 0 there items = none := (firstItemFault_none 0 items).2 hp
    have body := (setAddBody_passes (h := h) (sealFlag := sealFlag) short ho hsp room hk all_pass).trans
      ((if_neg (Nat.not_lt.2 within)).trans (if_neg (Nat.not_lt.2 enough)))
    let kept := items.filterMap itemOf
    have kept_map : kept.map some = items.map itemOf := filterMap_itemOf fun i hi => by
      obtain ⟨j, hj⟩ := List.mem_iff_getElem?.1 hi
      exact itemOf_isSome (hp j i hj)
    have length : kept.length = items.length := by simpa using congrArg List.length kept_map
    let t := takeItems n o kept s
    have openSet : t.openSet n = some { o with items := o.items ++ kept } := (takeItems_openSet n o kept s n).trans (if_pos rfl)
    have session : t.session n = some { k with inUse := k.inUse + items.length } :=
      (takeItems_session n o kept s hk n).trans ((if_pos rfl).trans (by rw [length]))
    have pool : t.assembler.poolFree = s.assembler.poolFree - items.length := length ▸ takeItems_poolFree n o kept s
    refine ⟨t, kept, takeItems_frame n o kept s, openSet, length, fun j i x hi hx => itemOf_eq_some ?_,
      fun m hm => (takeItems_openSet n o kept s m).trans (if_neg hm.symm), pool, session,
      fun m hm => (takeItems_session n o kept s hk m).trans (if_neg hm.symm), fun flag => exec_setAdd a (by omega) hw ?_,
      fun flag empty => exec_setAdd a (by omega) hw ?_, fun flag some => exec_setAdd a (by omega) hw ?_⟩
    · have := congrArg (·[j]?) kept_map
      simpa [hi, hx] using this.symm
    · subst flag
      refine body.trans ?_
      show answer h r (doneWith (addedCounts n items.length t)) t = _
      simp only [addedCounts, openSet, session, State.itemsInUse, pool, List.length_append, length] <;> rfl
    · subst flag
      have none : items.length = 0 ∧ o.items = [] ∧ kept = [] := by
        refine ⟨by omega, List.eq_nil_of_length_eq_zero (by omega), List.eq_nil_of_length_eq_zero (by omega)⟩
      obtain ⟨noItems, noOld, noNew⟩ := none
      refine body.trans ?_
      show askSeal h r n items.length t = _
      rw [askSeal, openSet]
      refine (if_pos (by simp [noOld, noNew])).trans ?_
      rw [setAddRefusal_eq session, openSet, pool, noItems]
      simp [noOld, noNew, wOpt, u8]
    · subst flag
      have items_ne : o.items ++ kept ≠ [] := fun e => by
        have := congrArg List.length e
        rw [List.length_append, List.length_nil] at this
        omega
      refine body.trans ?_
      show askSeal h r n items.length t = _
      rw [askSeal, openSet]
      refine (if_neg items_ne).trans ?_
      rw [incarnationOf, session]

end Sys2Proof.Machine
end


section
/-! PROOFS. Items handed back and channels lost at the Set Assembler (O35). -/

namespace Sys2Proof.Machine

/-- R34: the lowest of some channels that the open set writes. -/
def OpenSet.lowestOf (o : OpenSet) (cs : List ChanIx) : Option ChanIx :=
  allChannels.find? fun c => cs.contains c && o.items.any fun i => i.channel = c

/-- R34: an open set some of whose channels are lost. -/
def OpenSet.spoiledBy (o : OpenSet) (cs : List ChanIx) : OpenSet :=
  if o.spoiled = none then match o.lowestOf cs with
    | some c => { o with spoiled := some c }
    | none => o
  else o

theorem withOpenSet_same {n : SessionIx} {o : OpenSet} {s : State} (h : s.openSet n = some o) (m : SessionIx) :
    s.openSet m = if n = m then some o else s.openSet m := by
  split
  · next e => rw [← e, h]
  · rfl

/-- R34: only the session's own open set is examined. -/
theorem spoil_openSet (n : SessionIx) (cs : List ChanIx) (s : State) (m : SessionIx) :
    (spoil n cs s).openSet m = if n = m then (s.openSet n).map (·.spoiledBy cs) else s.openSet m := by
  cases ho : s.openSet n with
  | none =>
    simp only [spoil, ho]
    split
    · next e => rw [← e, ho]; rfl
    · rfl
  | some o =>
    simp only [spoil, ho, Option.map_some, OpenSet.spoiledBy, OpenSet.lowestOf]
    cases hs : o.spoiled with
    | some c => exact withOpenSet_same ho m
    | none =>
      simp only [if_true]
      generalize allChannels.find? _ = found
      cases found with
      | none => exact withOpenSet_same ho m
      | some c => exact State.openSet_withOpenSet ..

theorem spoil_poolFree (n : SessionIx) (cs : List ChanIx) (s : State) :
    (spoil n cs s).assembler.poolFree = s.assembler.poolFree := by
  unfold spoil
  repeat' split
  all_goals rfl

/-- R34: each open set is spoiled by its own lost channels. -/
theorem foldl_spoil (cs : SessionIx → List ChanIx) (ns : List SessionIx) (hn : ns.Nodup) (s : State) (m : SessionIx) :
    (ns.foldl (fun u n => spoil n (cs n) u) s).openSet m =
      if m ∈ ns then (s.openSet m).map (·.spoiledBy (cs m)) else s.openSet m := by
  induction ns generalizing s with
  | nil => rfl
  | cons n ns ih =>
    obtain ⟨fresh, rest⟩ := List.nodup_cons.1 hn
    rw [List.foldl_cons, ih rest, spoil_openSet]
    by_cases e : n = m
    · subst e
      simp [fresh]
    · simp [e, Ne.symm e]

theorem foldl_spoil_poolFree (cs : SessionIx → List ChanIx) (ns : List SessionIx) (s : State) :
    (ns.foldl (fun u n => spoil n (cs n) u) s).assembler.poolFree = s.assembler.poolFree := by
  induction ns generalizing s with
  | nil => rfl
  | cons n ns ih => exact (ih _).trans (spoil_poolFree _ _ _)

section
variable {o : OpenSet} {cs : List ChanIx} {c : ChanIx}

theorem lowestOf_eq_some : o.lowestOf cs = some c ↔ (c ∈ cs ∧ ∃ i ∈ o.items, i.channel = c) ∧
    ∀ d, d < c → ¬ (d ∈ cs ∧ ∃ i ∈ o.items, i.channel = d) := by
  have search : o.lowestOf cs = some c ↔ Fin.find? (fun c => cs.contains c && o.items.any fun i => i.channel = c) = some c := by
    rw [Fin.find?_eq_find?_finRange]
    rfl
  rw [search, Fin.find?_eq_some_iff]
  simp [imp_iff_not_or]

theorem lowestOf_eq_none (h : ∀ c, ¬ (c ∈ cs ∧ ∃ i ∈ o.items, i.channel = c)) : o.lowestOf cs = none := by
  cases ho : o.lowestOf cs with
  | none => rfl
  | some c => exact absurd (lowestOf_eq_some.1 ho).1 (h c)

end

/-- Settles O35: the returned items by the counts, the lost channels session by session. -/
theorem assemblerTakesReturnsAndLosses : Obligations.AssemblerTakesReturnsAndLosses := by
  refine ⟨fun n count k s hh hk => ?_, fun lost s hh => ?_⟩
  · let u := dropNotice (.itemsReturn n) s
    have session : (changePool (· + count) u).session n = some k := hk
    refine ⟨changeInUse n (· - count) (changePool (· + count) u), congrArg Host.Outcome.next (onNotice_some hh rfl), ?_⟩
    rw [changeInUse_of_session session]
    refine ⟨rfl, rfl, ?_, fun m hm => ?_, rfl⟩
    · rw [State.session_withSession, if_pos rfl]
    · rw [State.session_withSession, if_neg hm.symm]
      rfl
  · let u := dropNotice .lostToAssembler s
    let cs (n : SessionIx) := (lost.filter fun l => l.owner = n).map (·.channel)
    have mem_cs (n : SessionIx) (c : ChanIx) : c ∈ cs n ↔ ⟨c, n⟩ ∈ lost := by
      simp only [cs, List.mem_map, List.mem_filter, decide_eq_true_eq]
      exact ⟨fun ⟨l, ⟨hl, hn⟩, hc⟩ => by rwa [← hc, ← hn], fun h => ⟨⟨c, n⟩, ⟨h, rfl⟩, rfl⟩⟩
    refine ⟨allSessions.foldl (fun u n => spoil n (cs n) u) u, congrArg Host.Outcome.next (onNotice_some hh rfl),
      foldl_spoil_poolFree cs allSessions u, fun n => ?_⟩
    have openSet : (allSessions.foldl (fun u n => spoil n (cs n) u) u).openSet n =
        (s.openSet n).map (·.spoiledBy (cs n)) :=
      (foldl_spoil cs allSessions (List.nodup_finRange 4) u n).trans (if_pos (List.mem_finRange n))
    rw [openSet]
    refine ⟨fun ho => by rw [ho]; rfl, fun o ho => ?_⟩
    rw [ho, Option.map_some]
    intro hit
    have hit_iff (c : ChanIx) : (c ∈ cs n ∧ ∃ i ∈ o.items, i.channel = c) ↔ hit c := and_congr_left' (mem_cs n c)
    refine ⟨fun unhit => congrArg some ?_, fun c fresh hc first => congrArg some ?_⟩
    · unfold OpenSet.spoiledBy
      split
      · next fresh =>
        rw [lowestOf_eq_none fun c => mt (hit_iff c).1 (unhit.resolve_left (not_not.2 fresh) c)]
      · rfl
    · rw [OpenSet.spoiledBy, if_pos fresh, lowestOf_eq_some.2 ⟨(hit_iff c).2 hc, fun d hd => mt (hit_iff d).1 (first d hd)⟩]

end Sys2Proof.Machine
end


section
/-! PROOFS. The checks of a seal and the id it assigns (O36). -/

namespace Sys2Proof.Machine

section
variable {n : SessionIx} {h : Header} {r : Request} {taken inc : Nat} {k : Session} {o : OpenSet} {s : State}

/-- R30: the seal of the SET_ADD that is in its block's hands. -/
theorem exec_sealTaken (hh : headNotice (.sealAsked n) s = some (.sealAsked n inc h taken))
    (hi : (s.link h.link).inHand = some (h, r)) :
    exec (.sealTaken n) s = .next (takeSeal n inc h r taken (dropNotice (.sealAsked n) s)) := by
  refine congrArg Host.Outcome.next (onNotice_some hh ?_)
  have still : ((dropNotice (.sealAsked n) s).link h.link).inHand = some (h, r) := hi
  simp only [still, if_true]

/-- R29: the session is CLOSED, or its id has been opened anew. -/
theorem takeSeal_gone (hk : ∀ k, s.session n = some k → k.incarnation ≠ inc) (pos : 0 < inc) :
    takeSeal n inc h r taken s = answer h r
      { outcome := .refused, reason := some .noSession
        body := List.replicate 4 0 ++ u8 taken ++ u8 0 ++ u16 0 ++ u16 s.assembler.poolFree, resetReply := false } s := by
  have other : incarnationOf n s ≠ inc := by
    unfold incarnationOf
    split
    · next k h => exact hk k h
    · exact pos.ne
  simp [takeSeal, other, sealGone, setAddDetail, wOpt, u8]

/-- R29: the session's end has discarded the open set. -/
theorem takeSeal_discarded (hk : s.session n = some k) (ho : s.openSet n = none) :
    takeSeal n k.incarnation h r taken s = answer h r
      { outcome := .refused, reason := some .noSession
        body := List.replicate 4 0 ++ u8 taken ++ u8 0 ++ u16 k.inUse ++ u16 s.assembler.poolFree
        resetReply := false } s := by
  simp [takeSeal, incarnationOf, hk, ho, setAddRefusal_eq hk, wOpt, u8]

/-- R28: a seal refused by its first failed check. -/
theorem takeSeal_refused {reason : Reason} {channel : Option Byte} (hk : s.session n = some k) (ho : s.openSet n = some o)
    (hf : sealFault n o s = some (reason, channel)) : takeSeal n k.incarnation h r taken s = answer h r
      { outcome := .refused, reason := some reason
        body := [0, 0] ++ (match channel with | some c => [1, c] | none => [0, 0]) ++ u8 taken ++
          u8 o.items.length ++ u16 k.inUse ++ u16 s.assembler.poolFree
        resetReply := false } s := by
  simp only [takeSeal, incarnationOf, hk, ho, hf, setAddRefusal_eq hk, ne_eq, not_true, if_false]
  cases channel <;> simp [wOpt, u8] <;> rfl

theorem takeSeal_sealed (hk : s.session n = some k) (ho : s.openSet n = some o) (hf : sealFault n o s = none) :
    takeSeal n k.incarnation h r taken s = answer h r
      (doneWith (u8 taken ++ u8 o.items.length ++ u16 (chooseId 66 s.sets s.schedule.nextId) ++
        u32 ((s.schedule.lastSeal + 1) % 2 ^ 32) ++ u48 s.clock.rig)) (sealSet n o s) := by
  simp only [takeSeal, incarnationOf, hk, ho, hf, ne_eq, not_true, if_false] <;> rfl

/-- R28: a seal whose channels are owned, taken while the Schedule runs and has room. -/
theorem sealFault_due (he : s.endedFor .schedule n = false) (ho : ∀ i ∈ o.items, s.owns n i.channel = true)
    (hh : s.haltedFor .schedule = false) (hr : s.sets.length < 64) :
    sealFault n o s = (dueFault n o.due s).map fun r => (r, none) := by
  have owned : (o.items.find? fun i => !s.owns n i.channel) = none := List.find?_eq_none.2 (by simpa using ho)
  have room : ¬ Config.maxSets ≤ s.sets.length := Nat.not_le.2 hr
  simp [sealFault, he, owned, hh, room]

end

/-- Settles O36: the checks in R28's order; the id by `chooseId_of_room`. -/
theorem sealFollowsItsTable : Obligations.SealFollowsItsTable := by
  refine ⟨fun n h r taken inc s hh pos hi => ?_, fun n h r taken k o s hh hk hi ho => ?_, fun sets next room low => ?_⟩
  · intro u gone
    have run := exec_sealTaken hh hi
    refine ⟨fun other => run.trans (congrArg Host.Outcome.next (takeSeal_gone other pos)), fun k hk hinc none => ?_⟩
    subst hinc
    exact run.trans (congrArg Host.Outcome.next (takeSeal_discarded (s := u) hk none))
  · intro u refused owned
    have run := exec_sealTaken hh hi
    have refusal (reason : Reason) (channel : Option Byte) (hf : sealFault n o u = some (reason, channel)) :
        exec (.sealTaken n) s = refused reason channel := by
      have pool : u.assembler = s.assembler := rfl
      rw [run, takeSeal_refused (s := u) hk ho hf, pool] <;>
      cases channel <;> rfl
    have all_owned (ho : owned) : (o.items.find? fun i => !u.owns n i.channel) = none :=
      List.find?_eq_none.2 (by simpa using ho)
    refine ⟨fun he => refusal .noSession none ?_, fun p i he hp hn first => refusal .notOwned (some _) ?_,
      fun he ho hh => refusal .halted none ?_, fun he ho hh full => refusal .scheduleFull none ?_,
      fun he ho hh room => ?_⟩
    · simp [sealFault, he]
    · have found : (o.items.find? fun i => !u.owns n i.channel) = some i := by
        obtain ⟨len, get⟩ := List.getElem?_eq_some_iff.1 hp
        refine List.find?_eq_some_iff_getElem.2 ⟨by simp [hn], p, len, get, fun j hj => ?_⟩
        simpa using first j _ hj (List.getElem?_eq_getElem (hj.trans len))
      simp [sealFault, he, found]
    · simp [sealFault, he, all_owned ho, hh]
    · have full' : Config.maxSets ≤ u.sets.length := full
      simp [sealFault, he, all_owned ho, hh, full']
    · have due := sealFault_due he ho hh room
      refine ⟨fun p d hd other => refusal .predecessor none ?_, fun v hd other => refusal .cycleState none ?_,
        fun v c hd hc hp hm hv => refusal .badField none ?_,
        fun passes => run.trans (congrArg Host.Outcome.next (takeSeal_sealed (s := u) hk ‹_› ?_))⟩
      · rw [due, hd]
        simp only [dueFault]
        split
        · next x hx => rw [if_neg (other x hx)]; rfl
        · rfl
      · rw [due, hd]
        simp only [dueFault]
        split
        · next c hc =>
          split
          · next hp => rw [if_pos ((other c hc).resolve_left (not_not.2 hp))]; rfl
          · rfl
          · rfl
        · rfl
      · rw [due, hd]
        simp [dueFault, hc, hp, Nat.not_le.2 hm, hv]
      · rw [due]
        obtain ⟨t, hd | hd⟩ | ⟨l, hd⟩ | ⟨p, d, x, hd, hx, hn⟩ | ⟨v, c, hd, hc, hp, hm, hv⟩ := passes
        · simp [dueFault, hd]
        · simp [dueFault, hd]
        · simp [dueFault, hd]
        · simp [dueFault, hd, hx, hn]
        · simp [dueFault, hd, hc, hp, Nat.not_le.2 hm, Nat.not_le.2 hv]
  · intro after id
    have after_eq : after = nextSetId := by
      funext v
      simp only [after, nextSetId]
      split <;> split <;> omega
    obtain ⟨j, hj, hid, fits, before⟩ := chooseId_of_room room low
    obtain ⟨ne0, neTop, fresh⟩ := idQualifies_iff.1 fits
    have range (i : Nat) : nextSetId^[i] next ≤ 65534 := by
      rw [iterate_nextSetId low]
      omega
    have hid' : id = nextSetId^[j] next := hid
    have := range j
    refine ⟨?_, ?_, ?_, ?_, j, hj, ?_, fun i hi => ?_⟩
    · rwa [hid']
    · omega
    · omega
    · rw [after_eq]
    · rw [after_eq, hid']
    · rw [after_eq]
      have taken := mt idQualifies_iff.2 (by rw [before i hi]; exact Bool.false_ne_true)
      have := range i
      by_contra none
      push Not at none
      exact taken ⟨none.1, by omega, none.2⟩

end Sys2Proof.Machine
end


section
/-! PROOFS. What a seal makes of the open set (O37), and how sets fall due (O38). -/

namespace Sys2Proof.Machine

/-! ### What the comparisons at the end of an event change -/

section
variable {n : SessionIx} {s : State}

theorem withArmed_schedule (n : SessionIx) (b : Bool) (s : State) :
    (withArmed n b s).schedule = { s.schedule with armed := s.schedule.armed.put n b } := rfl

/-- R57: a comparison changes nothing of the Schedule but the armed flags. -/
theorem queueCheck_schedule (s : State) (n : SessionIx) :
    ∃ a, (queueCheck s n).schedule = { s.schedule with armed := a } := by
  have report (r : Report) (u : State) : (sessionReport .schedule n r u).schedule = u.schedule := by
    unfold sessionReport
    split <;> rfl
  simp only [queueCheck]
  repeat' split
  · exact ⟨_, rfl⟩
  · exact ⟨_, rfl⟩
  · exact ⟨_, rfl⟩
  · refine ⟨s.schedule.armed.put n false, ?_⟩
    rw [withArmed_schedule, report]
  · exact ⟨_, rfl⟩

theorem queueChecks_schedule (s : State) : ∃ a, (queueChecks s).schedule = { s.schedule with armed := a } := by
  unfold queueChecks
  generalize allSessions = ns
  induction ns generalizing s with
  | nil => exact ⟨_, rfl⟩
  | cons n ns ih =>
    obtain ⟨a, ha⟩ := queueCheck_schedule s n
    obtain ⟨b, hb⟩ := ih (queueCheck s n)
    exact ⟨b, by rw [List.foldl_cons, hb, ha]⟩

theorem queueChecks_kept (s : State) : (queueChecks s).sets = s.sets ∧ (queueChecks s).schedule.ready = s.schedule.ready ∧
    (queueChecks s).schedule.nextId = s.schedule.nextId ∧ (queueChecks s).schedule.lastSeal = s.schedule.lastSeal ∧
    ∀ m, (queueChecks s).cycle m = s.cycle m := by
  obtain ⟨a, ha⟩ := queueChecks_schedule s
  have only : OnlyChanges [.schedule, .notices] s (queueChecks s) := (only_queueChecks (by simp) (by simp)).2 (.refl _ s)
  have cycles : (queueChecks s).cycles = s.cycles := only .cycles (by simp)
  exact ⟨by rw [State.sets, ha, State.sets], by rw [ha], by rw [ha], by rw [ha],
    fun m => by rw [State.cycle, cycles, State.cycle]⟩

end

/-! ### A seal by its due kind -/

section
variable {n : SessionIx} {o : OpenSet} {s : State}

/-- R41, R47: a sealed set takes its place. -/
theorem ReadyKept.sealSet {ordered : Prop} (h : ReadyKept ordered s) (hf : ∀ x ∈ s.sets, x.id ≠ (sealedNow n o s).id) :
    ReadyKept ordered (sealSet n o s) := by
  have K := readyKept_keptByMoves ordered
  have ht : ReadyKept ordered (Machine.sealedIn n o s) := h.sealedIn hf
  have falls (v : Nat) : ReadyKept ordered (Machine.fallDueAt (sealedNow n o s).id v (Machine.sealedIn n o s)) :=
    K.fallDueAt v (fun _ => ⟨List.mem_append_right _ List.mem_cons_self, sealedNow_unlisted n o s⟩) ht
  rw [sealSet_eq]
  refine K.queueChecks ?_
  unfold placeSealed
  split
  · exact falls _
  · exact falls _
  · exact ht
  · exact ht
  · split
    · exact ht.of_eq rfl rfl
    · exact ht

/-- A change of the one set with a fresh id. -/
theorem map_changed_fresh {sets : List SealedSet} {y : SealedSet} (hf : ∀ x ∈ sets, x.id ≠ y.id) (f : SealedSet → SealedSet) :
    (sets ++ [y]).map (fun x => if x.id = y.id then f x else x) = sets ++ [f y] := by
  have same : sets.map (fun x => if x.id = y.id then f x else x) = sets :=
    (List.map_congr_left fun x hx => if_neg (hf x hx)).trans (List.map_id' sets)
  simp [same]

/-- R42: where a sealed set with a due time stands. -/
theorem fallDueAt_sealed (hf : ∀ x ∈ s.sets, x.id ≠ (sealedNow n o s).id) (v : Nat) :
    let x := sealedNow n o s
    let t := fallDueAt x.id v (sealedIn n o s)
    t.schedule.nextId = nextSetId x.id ∧ t.schedule.lastSeal = x.sealNo ∧
    (v ≤ s.clock.rig → t.sets = s.sets ++ [{ x with state := .due, dueTime := some v }] ∧ x.id ∈ t.schedule.ready) ∧
    (s.clock.rig < v → t.sets = s.sets ++ [{ x with state := .pending, dueTime := some v }] ∧
      t.schedule.ready = s.schedule.ready) := by
  intro x t
  have sets (f : SealedSet → SealedSet) :
      (sealedIn n o s).sets.map (fun y => if y.id = x.id then f y else y) = s.sets ++ [f x] := map_changed_fresh hf f
  have clock : (sealedIn n o s).clock = s.clock := rfl
  by_cases hv : v ≤ s.clock.rig
  · have ht : t = makeDue x.id v (sealedIn n o s) := if_pos (by simpa [State.reached, clock] using hv)
    rw [ht]
    exact ⟨rfl, rfl, fun _ => ⟨sets _, by simp [makeDue, joinReady, State.withReady]⟩, fun h => absurd h (Nat.not_lt.2 hv)⟩
  · have ht : t = changeSet x.id (fun x => { x with state := .pending, dueTime := some v }) (sealedIn n o s) :=
      if_neg (by simpa [State.reached, clock] using hv)
    rw [ht]
    exact ⟨rfl, rfl, fun h => absurd h hv, fun _ => ⟨sets _, rfl⟩⟩

end

/-- Settles O37: the new set by its due kind, and the list by `ReadyKept.sealSet`. -/
theorem sealedSetsTakeTheirState : Obligations.SealedSetsTakeTheirState := by
  intro n o s id fresh t base
  let x := sealedNow n o s
  have hf : ∀ y ∈ s.sets, y.id ≠ x.id := fresh
  let placed := placeSealed n x.id o.due (sealedIn n o s)
  have ht : t = queueChecks placed := sealSet_eq n o s
  obtain ⟨sets, ready, nextId, lastSeal, cycle⟩ := queueChecks_kept placed
  rw [← ht] at sets ready nextId lastSeal cycle
  have counters : placed.schedule.nextId = nextSetId x.id ∧ placed.schedule.lastSeal = x.sealNo := by
    simp only [placed, placeSealed]
    split
    · exact ⟨(fallDueAt_sealed hf _).1, (fallDueAt_sealed hf _).2.1⟩
    · exact ⟨(fallDueAt_sealed hf _).1, (fallDueAt_sealed hf _).2.1⟩
    · exact ⟨rfl, rfl⟩
    · exact ⟨rfl, rfl⟩
    · split <;> exact ⟨rfl, rfl⟩
  have pendingBase (hd : ∀ v, o.due ≠ .offset v) : x = base := by
    simp only [x, base, sealedNow, sealedFrom]
    cases ho : o.due with
    | offset v => exact absurd ho (hd v)
    | _ => rfl
  have falls (v : Nat) (hx : x = base) (hp : placed = fallDueAt x.id v (sealedIn n o s)) :
      (v ≤ s.clock.rig → t.sets = s.sets ++ [{ base with state := .due, dueTime := some v }] ∧ id ∈ t.schedule.ready) ∧
      (s.clock.rig < v → t.sets = s.sets ++ [{ base with dueTime := some v }] ∧ t.schedule.ready = s.schedule.ready) := by
    obtain ⟨-, -, now, later⟩ := fallDueAt_sealed hf v
    have hx' : sealedNow n o s = base := hx
    rw [hx'] at now later
    rw [hx] at hp
    rw [sets, ready, hp]
    exact ⟨now, later⟩
  refine ⟨?_, lastSeal.trans counters.2, ?_, fun hl ho => ?_, fun hd => ?_, fun v hd => ?_, fun hd => ?_, fun v c hd hc => ?_⟩
  · have only : OnlyChanges [.schedule, .cycles, .notices] (sealedIn n o s) t := by
      rw [ht]
      exact (only_queueChecks (by simp) (by simp)).2 ((only_placeSealed (by simp) (by simp) n _ _).2 (.refl _ _))
    rw [openSet_of_assembler_eq (only .assembler (by simp))]
    simp [sealedIn]
  · rw [nextId, counters.1]
    show nextSetId id = _
    unfold nextSetId
    split <;> split <;> omega
  · obtain ⟨listed, ordered⟩ := ReadyKept.sealSet (ordered := True) ⟨hl, fun _ => ho⟩ hf
    exact ⟨listed, ordered trivial⟩
  · exact (falls s.clock.rig (pendingBase (by simp [hd])) (by simp only [placed, placeSealed, hd] <;> rfl)).1 le_rfl
  · exact falls v (pendingBase (by simp [hd])) (by simp only [placed, placeSealed, hd])
  · have stays : placed = sealedIn n o s ∧ ∀ v, o.due ≠ .offset v := by
      obtain ⟨p, d, hd⟩ | ⟨l, hd⟩ := hd <;> exact ⟨by simp only [placed, placeSealed, hd], by simp [hd]⟩
    rw [sets, ready, stays.1, ← pendingBase stays.2]
    exact ⟨rfl, rfl⟩
  · have joins : placed = (sealedIn n o s).withCycle n (some { c with members := c.members ++ [x.id] }) := by
      have still : (sealedIn n o s).cycle n = some c := hc
      simp only [placed, placeSealed, hd, still]
    have parked : x = { base with state := .parked, member := true } := by
      simp only [x, base, sealedNow, sealedFrom, hd]
      rfl
    rw [sets, cycle, joins, ← parked, State.cycle_withCycle, if_pos rfl]
    exact ⟨rfl, rfl⟩

/-! ### Falling due -/

/-- R47: the place of a set in the order of the seal numbers. -/
theorem sealRank_of_getElem? {sets : List SealedSet} {i : Nat} {x : SealedSet} (hn : (sets.map (·.id)).Nodup)
    (hx : sets[i]? = some x) : sealRank sets x.id = i := by
  obtain ⟨len, rfl⟩ := List.getElem?_eq_some_iff.1 hx
  refine (List.findIdx_eq len).2 ⟨by simp, fun j hj => ?_⟩
  have distinct := (List.nodup_iff_injective_get.1 hn).ne (a₁ := ⟨j, by simp; omega⟩) (a₂ := ⟨i, by simpa using len⟩)
    (by simp; omega)
  simpa using distinct

/-- Settles O38: the events by their cases; the order by R47's insertion. -/
theorem setsFallDueInOrder : Obligations.SetsFallDueInOrder := by
  refine ⟨fun id x v s hx hs hv => congrArg Host.Outcome.next ?_, fun l stamp halted s hh => ?_, fun id v s => ?_,
    fun id v x s hl ho hx hd => ?_, fun id s hn hid hr hall hsorted => ?_, fun sets i j x y hn hx hy => ?_⟩
  · simp only [hx, hs, hv, State.reached, decide_eq_true_eq]
  · intro u bound
    have order : triggerOrder l u = bound := rfl
    have run : exec (.triggerEdge l) s = .next (takeEdge l stamp halted u) := congrArg Host.Outcome.next (onNotice_some hh rfl)
    refine ⟨fun h => run.trans (congrArg Host.Outcome.next ?_), fun x rest hb hh => run.trans (congrArg Host.Outcome.next ?_)⟩
    · unfold takeEdge releaseOldest
      obtain hb | hh := h
      · rw [order, hb]
        exact ite_self u
      · exact if_pos hh
    · subst hh
      simp only [takeEdge, releaseOldest, order, hb]
      rfl
  · intro changed t
    exact ⟨rfl, rfl, rfl, (only_makeDue (by simp) id v).2 (.refl _ s), rfl, rfl, rfl⟩
  · obtain ⟨mem, rfl⟩ := mem_of_findSet hx
    have unlisted := hl.not_unlisted mem (SealedSet.unlisted_of_ne_due hd)
    exact ⟨hl.makeDue v (List.mem_map_of_mem mem) unlisted, ho.makeDue hl v unlisted⟩
  · intro t
    refine ⟨pairwise_insert hsorted (fun a _ h => h) (fun a ha h => ?_) fun a _ b _ => goesBefore_trans,
      insert_perm _ s.schedule.ready id⟩
    exact goesBefore_total (hall a ha) (fun e => hr (e ▸ ha)) (Bool.eq_false_iff.1 h)
  · have due {i : Nat} {x : SealedSet} (hx : sets[i]? = some x) : dueTimeOf sets x.id = x.dueTime.getD 0 :=
      dueTimeOf_of_nodup hn (List.mem_of_getElem? hx)
    rw [goesBefore_iff, due hx, due hy, sealRank_of_getElem? hn hx, sealRank_of_getElem? hn hy]

end Sys2Proof.Machine
end


section
/-! PROOFS. TAKE and the Ready List (O39). -/

namespace Sys2Proof.Machine

section
variable {s : State} {x : SealedSet} {id : Nat} {rest : List Nat}

/-- R48: while TAKE may not take, nothing happens. -/
theorem exec_take_waits (h : s.schedule.ready = [] ∨ s.engine.work ≠ none ∨ ∃ x ∈ s.sets, x.state = .applying) :
    exec .take s = .next s := by
  refine congrArg Host.Outcome.next (if_neg fun taken => ?_)
  simp only [mayTake, Bool.and_eq_true, Option.isNone_iff_eq_none, List.all_eq_true, Bool.not_eq_true',
    List.isEmpty_eq_false_iff] at taken
  obtain ⟨⟨⟨idle, waiting⟩, -⟩, some⟩ := taken
  obtain none | busy | ⟨x, hx, applying⟩ := h
  · exact some none
  · exact busy idle
  · have := waiting x hx
    simp [SealedSet.waiting, applying] at this

theorem exec_take_head (hw : s.engine.work = none) (ha : ∀ y ∈ s.sets, y.state ≠ .applying)
    (hh : s.haltedFor .applyEngine = false) (hr : s.schedule.ready = id :: rest) :
    exec .take s = .next (queueChecks (takeHeads (rest.length + 1) s)) := by
  have may : mayTake s = true := by
    simpa [mayTake, hw, hh, SealedSet.waiting] using ha
  have taken : exec .take s = .next (queueChecks (takeHeads s.schedule.ready.length s)) :=
    congrArg Host.Outcome.next (if_pos (by simp [may, hr]))
  rw [taken, hr, List.length_cons]

/-- R48, R49: the head is discarded late, or becomes APPLYING. -/
theorem takeHeads_head (f : Nat) (hr : s.schedule.ready = id :: rest) (hx : s.findSet id = some x) :
    takeHeads (f + 1) s = if takenLate x (s.withReady rest) then takeHeads f (discardLate x (s.withReady rest))
      else beginApplying x (s.withReady rest) := by
  have still : (s.withReady rest).findSet id = some x := hx
  rw [takeHeads.eq_def]
  simp only [hr, still]

theorem takenLate_iff : takenLate x s = true ↔ x.late = .discard ∧ x.dueTime.getD 0 + s.clock.lateMargin < s.clock.rig := by
  simp [takenLate]

/-- R64: every STAGE can be queued. -/
theorem beginStaging_live {w : Work} (h : ∀ k ∈ touchedSlots x.items, s.bus.live.get k = true) :
    beginStaging x w s = postAll ((touchedSlots x.items).map fun k =>
      .busRequest .applyEngine (.stage k w.take (stageItems k x.items))) (s.withWork (some w)) := by
  rw [beginStaging, List.filter_eq_self.2 h]
  exact if_pos (List.all_eq_true.2 h)

theorem failStaging_parts (w : Work) (c : Cause) (s : State) : (failStaging w c s).engine.work = none ∧
    .outcome w.take w.setId (.failed c) ∈ (failStaging w c s).notices :=
  ⟨rfl, List.mem_append_right _ List.mem_cons_self⟩

end

/-- Settles O39: TAKE by what stands at the head of the list. -/
theorem takeFollowsTheReadyList : Obligations.TakeFollowsTheReadyList := by
  refine ⟨fun s => exec_take_waits, fun id rest x s hw ha hh hr hx => ?_⟩
  intro late u
  have run := exec_take_head hw ha hh hr
  rw [takeHeads_head _ hr hx] at run
  have isLate : takenLate x u = true ↔ late := takenLate_iff
  refine ⟨fun h => ?_, fun _ hm => ?_, fun _ hm => ?_, fun h => ?_⟩
  · rw [run, if_pos (isLate.2 h)]
  · exact if_neg (by simp [hm])
  · exact if_pos hm
  · intro slots w v
    rw [if_neg (mt isLate.1 h)] at run
    have begun {t : State} (e : beginApplying x u = t) : exec .take s = .next (queueChecks t) := e ▸ run
    refine ⟨fun he => ?_, fun he live => ?_, fun he dead => ?_⟩
    · exact begun (if_pos he)
    · have notEnding : ¬ u.isEnding x.owner = true := Bool.eq_false_iff.1 he
      exact begun ((if_neg notEnding).trans (beginStaging_live (s := v) (w := w) live))
    · have notEnding : ¬ u.isEnding x.owner = true := Bool.eq_false_iff.1 he
      have notLive : ¬ slots.all v.bus.live.get = true := fun all => by
        obtain ⟨k, hk, hl⟩ := dead
        have := List.all_eq_true.1 all k hk
        exact Bool.false_ne_true (hl.symm.trans this)
      let t := postAll ((slots.filter v.bus.live.get).map fun k =>
        .busRequest .applyEngine (.stage k w.take (stageItems k x.items))) (v.withWork (some w))
      obtain ⟨idle, told⟩ := failStaging_parts w .slotLost t
      refine ⟨failStaging w .slotLost t, ?_, idle, told⟩
      exact begun ((if_neg notEnding).trans (if_neg notLive))

end Sys2Proof.Machine
end


section
/-! PROOFS. The outcome of the APPLYING set (O40). -/

namespace Sys2Proof.Machine

section
variable {take id : Nat} {o : EngineOutcome} {x : SealedSet} {s : State} {c : Cycle} {why : ResultReason}

/-- R50: the outcome is that of the APPLYING set. -/
theorem exec_outcome (hh : headNotice .outcome s = some (.outcome take id o))
    (hx : (s.sets.find? fun y => y.id = id && y.state = .applying) = some x) :
    exec .outcome s = .next (queueChecks (takeOutcome x o (dropNotice .outcome s))) := by
  refine congrArg Host.Outcome.next (onNotice_some hh ?_)
  have still : ((dropNotice .outcome s).sets.find? fun y => y.id = id && y.state = .applying) = some x := hx
  simp only [still]

/-- R50, R56: no report of a set whose session has ended. -/
theorem takeOutcome_removed (h : s.endedFor .schedule x.owner = true ∨ o = .removed ∨ o = .failed .sessionEnd) :
    takeOutcome x o s = dropMember x.owner x.id (removeSet x s) := by
  unfold takeOutcome
  split
  · rfl
  · next open_ =>
    obtain e | rfl | rfl := h
    · exact absurd e open_
    · rfl
    · rfl

theorem stoppingNow_iff : stoppingNow x s = true ↔ ∃ c, s.cycleOf x = some c ∧ c.phase = .stopping .now := by
  unfold stoppingNow
  cases s.cycleOf x <;> simp

theorem takeApplied_stopping (h : stoppingNow x s = true) (commit : Nat) : takeApplied x commit s =
    endStoppedCycle x.owner (resolveChain x commit (leaveSet x .applied none (some commit) s)) := by
  simp [takeApplied, h]

theorem takeApplied_leaves (h : ¬ stoppingNow x s = true) (hm : x.member = false ∨ s.haltedFor .schedule = true)
    (commit : Nat) : takeApplied x commit s = resolveChain x commit (leaveSet x .applied none (some commit) s) := by
  obtain hm | hm := hm <;> simp [takeApplied, h, hm]

theorem takeApplied_parks (h : ¬ stoppingNow x s = true) (hm : x.member = true) (hh : s.haltedFor .schedule = false)
    (commit : Nat) : takeApplied x commit s = resolveChain x commit (post (.memberParked x.owner x.id)
      (changeSet x.id (fun y => { y with state := .parked, dueTime := none })
        (handResult x .applied none true (some commit) s))) := by
  simp [takeApplied, h, hm, hh, parkMember]

theorem takeFailed_alone (h : s.cycleOf x = none) :
    takeFailed x why s = breakChain x [] (leaveSet x .failed (some why) none s) := by simp [takeFailed, h]

theorem takeFailed_stopping (h : s.cycleOf x = some c) (hp : c.phase = .stopping .now) : takeFailed x why s =
    endStoppedCycle x.owner (breakChain x [] (leaveSet x .failed (some why) none s)) := by simp [takeFailed, h, hp]

theorem takeFailed_member (h : s.cycleOf x = some c) (hp : c.phase ≠ .stopping .now) : takeFailed x why s =
    endCycleEarly x.owner c .memberFailed x.id why []
      (dropMember x.owner x.id (breakChain x [] (leaveSet x .failed (some why) none s))) := by simp [takeFailed, h, hp]

end

/-- Settles O40: the outcome's three forms, and what the set's cycle makes of each. -/
theorem outcomesAreTaken : Obligations.OutcomesAreTaken := by
  intro take id o x s hh hx u among stopping
  have taken {t : State} (e : takeOutcome x o u = t) : exec .outcome s = .next (queueChecks t) := e ▸ exec_outcome hh hx
  have among_iff (c : Cycle) : u.cycleOf x = some c ↔ among c := by
    rw [cycleOf_eq_some]
    exact and_left_comm
  have stopping_iff : stoppingNow x u = true ↔ stopping :=
    stoppingNow_iff.trans (exists_congr fun c => and_congr_left' (among_iff c))
  refine ⟨fun h => taken (takeOutcome_removed h), fun open_ => ⟨fun c ho => ?_, fun f why ho hw => ?_⟩⟩
  · subst ho
    have applied : takeOutcome x (.applied c) u = takeApplied x c u := if_neg (Bool.eq_false_iff.1 open_)
    intro t
    exact ⟨fun h => taken (applied.trans (takeApplied_stopping (stopping_iff.2 h) c)),
      fun h hm => taken (applied.trans (takeApplied_leaves (mt stopping_iff.1 h) hm c)),
      fun h hm hh => taken (applied.trans (takeApplied_parks (mt stopping_iff.1 h) hm hh c))⟩
  · subst ho
    have failed : takeOutcome x (.failed f) u = takeFailed x why u := by
      refine (if_neg (Bool.eq_false_iff.1 open_)).trans ?_
      simp only [hw]
    intro t
    refine ⟨fun h => taken (failed.trans (takeFailed_alone ?_)), fun h => ?_, fun c hc h => ?_⟩
    · exact Option.eq_none_iff_forall_ne_some.2 fun c hc => h c ((among_iff c).1 hc)
    · obtain ⟨c, hc, hp⟩ := h
      exact taken (failed.trans (takeFailed_stopping ((among_iff c).2 hc) hp))
    · exact taken (failed.trans (takeFailed_member ((among_iff c).2 hc) fun hp => h ⟨c, hc, hp⟩))

end Sys2Proof.Machine
end


section
/-! PROOFS. How sets leave, how dependants are resolved, and what is counted at the end of an event (O41). -/

namespace Sys2Proof.Machine

/-! ### SET_RESULT -/

/-- R52: the pass of a SET_RESULT. -/
theorem passOf_eq (x : SealedSet) (s : State) : passOf x s =
    match s.cycle x.owner with
    | some c => if x.member = true ∧ x.id ∈ c.members then c.begun else x.pass
    | none => x.pass := by
  unfold passOf State.cycleOf
  cases s.cycle x.owner with
  | none => rfl
  | some c =>
    simp only [Bool.and_eq_true, List.contains_iff_mem]
    by_cases h : x.member = true ∧ x.id ∈ c.members
    · simp only [if_pos h]
    · simp only [if_neg h]

/-- R52: the notice of a set's SET_RESULT, for an OPEN session. -/
def resultNotices (x : SealedSet) (outcome : SetOutcome) (reason : Option ResultReason) (parked : Bool)
    (commit : Option Nat) (s : State) : List Notice :=
  match s.session x.owner with
  | some k => [.report .schedule (some (x.owner, k.incarnation)) (.setResult (setResultOf x outcome reason parked commit s))]
  | none => []

section
variable (x : SealedSet) (outcome : SetOutcome) (reason : Option ResultReason) (commit : Option Nat) (s : State)

theorem handResult_eq (parked : Bool) : handResult x outcome reason parked commit s =
    s.withNotices (s.notices ++ resultNotices x outcome reason parked commit s) := by
  unfold handResult resultNotices
  cases hk : s.session x.owner with
  | none =>
    rw [sessionReport_closed hk, List.append_nil]
    rfl
  | some k =>
    rw [sessionReport_open hk]
    rfl

/-- R51 steps 1 and 2. -/
theorem removeSet_eq : removeSet x s = (s.withSchedule { s.schedule with
    sets := s.sets.filter (fun y => y.id ≠ x.id), ready := s.schedule.ready.erase x.id }).withNotices
      (s.notices ++ [.itemsReturn x.owner x.items.length]) := rfl

/-- R51 steps 1 to 3: the result is that of the set before it left. -/
theorem leaveSet_eq : leaveSet x outcome reason commit s = (s.withSchedule { s.schedule with
    sets := s.sets.filter (fun y => y.id ≠ x.id), ready := s.schedule.ready.erase x.id }).withNotices
      (s.notices ++ [.itemsReturn x.owner x.items.length] ++ resultNotices x outcome reason false commit s) :=
  handResult_eq x outcome reason commit (removeSet x s) false

end

/-! ### Cycles that end -/

section
variable {n : SessionIx} {s : State} {c : Cycle} {k : Session}

theorem dropMember_none (h : s.cycle n = none) (id : Nat) : dropMember n id s = s := by simp [dropMember, h]

theorem dropMember_some (h : s.cycle n = some c) (id : Nat) :
    dropMember n id s = s.withCycle n (some { c with members := c.members.erase id }) := by simp [dropMember, h]

/-- R99: CYCLE_CHANGE goes to an OPEN session. -/
theorem closeCycle_open (h : s.session n = some k) (line : ReportLine) (reason : CycleEndReason)
    (member : Option (Nat × ResultReason)) : closeCycle line n c reason member s =
      post (.report line (some (n, k.incarnation)) (cycleChangeOf c reason member s.clock.rig)) (s.withCycle n none) :=
  sessionReport_open (s := s.withCycle n none) h

theorem detachMembers_eq (c : Cycle) (s : State) : detachMembers c s = s.withSets (s.sets.map fun x =>
    if x.id ∈ c.members ∧ x.state = .applying then { x with member := false, pass := c.begun } else x) := by
  simp only [detachMembers, Bool.and_eq_true, List.contains_iff_mem, decide_eq_true_eq]

theorem stopMembers_frame (c : Cycle) (except : List Nat) (s : State) :
    OnlyChanges [.schedule, .cycles, .notices] s (stopMembers c except s) :=
  (only_stopMembers (by simp) (by simp) (by simp) c except).2 (.refl _ s)

end

/-! ### Resolving -/

/-- R42: what falling due makes of a set. -/
def SealedSet.fallen (now v : Nat) (y : SealedSet) : SealedSet :=
  { y with dueTime := some v, state := if v ≤ now then .due else .pending }

theorem fallDueAt_sets (id v : Nat) (s : State) : (fallDueAt id v s).sets =
    s.sets.map fun y => if y.id = id then y.fallen s.clock.rig v else y := by
  unfold fallDueAt
  split
  · next h =>
    have h : v ≤ s.clock.rig := by simpa [State.reached] using h
    simp only [SealedSet.fallen, if_pos h]
    rfl
  · next h =>
    have h : ¬ v ≤ s.clock.rig := by simpa [State.reached] using h
    simp only [SealedSet.fallen, if_neg h]
    rfl

/-- R43: what the commit of a set makes of another set. -/
def SealedSet.resolved (y x : SealedSet) (commit now : Nat) : SealedSet :=
  match y.due with
  | .after p delay =>
    if y.owner = x.owner ∧ y.dueTime = none ∧ p = x.id then y.fallen now (capTime (commit + delay)) else y
  | _ => y

/-- R43: one dependant is resolved. -/
def resolveOne (commit : Nat) (t : State) (id : Nat) : State :=
  match t.findSet id with
  | some y =>
    match y.due with
    | .after _ delay => fallDueAt id (capTime (commit + delay)) t
    | _ => t
  | none => t

section
variable {x y : SealedSet} {s : State} {except : List Nat} {commit now : Nat}

theorem SealedSet.resolved_id (y x : SealedSet) (commit now : Nat) : (y.resolved x commit now).id = y.id := by
  unfold SealedSet.resolved
  split
  · split <;> rfl
  · rfl

theorem DependsOn.resolved (h : DependsOn s except x y) : ∃ delay, y.due = .after x.id delay ∧
    y.resolved x commit now = y.fallen now (capTime (commit + delay)) := by
  obtain ⟨-, owner, unresolved, ⟨delay, due⟩, -⟩ := h
  refine ⟨delay, due, ?_⟩
  simp [SealedSet.resolved, due, owner, unresolved]

theorem resolved_of_not_dependsOn (hy : y ∈ s.sets) (h : ¬ DependsOn s [] x y) : y.resolved x commit now = y := by
  unfold SealedSet.resolved
  split
  · next p delay due =>
    refine if_neg fun ⟨owner, unresolved, e⟩ => h ⟨hy, owner, unresolved, ⟨delay, e ▸ due⟩, List.not_mem_nil⟩
  · rfl

/-- R43: the dependants of a set, by their ids. -/
theorem mem_dependants {id : Nat} : id ∈ dependants x except s ↔ ∃ y, DependsOn s except x y ∧ y.id = id := by
  simp only [dependants, List.mem_map, List.mem_filter, Bool.and_eq_true, decide_eq_true_eq, Option.isNone_iff_eq_none,
    Bool.not_eq_true', List.contains_eq_mem, decide_eq_false_iff_not]
  refine exists_congr fun y => and_congr_left fun _ => ?_
  have due : (match y.due with
      | .after p _ => decide (p = x.id)
      | _ => false) = true ↔ ∃ d, y.due = .after x.id d := by
    cases y.due <;> simp [eq_comm]
  exact ⟨fun ⟨hy, ⟨⟨owner, unresolved⟩, new⟩, d⟩ => ⟨hy, owner, unresolved, due.1 d, new⟩,
    fun ⟨hy, owner, unresolved, d, new⟩ => ⟨hy, ⟨⟨owner, unresolved⟩, new⟩, due.2 d⟩⟩

theorem nodup_dependants (hn : (s.sets.map (·.id)).Nodup) : (dependants x except s).Nodup :=
  hn.sublist (List.filter_sublist.map _)

theorem resolveOne_sets {u : State} {id : Nat} (hn : (u.sets.map (·.id)).Nodup)
    (hd : ∀ y ∈ u.sets, y.id = id → DependsOn s except x y) : (resolveOne commit u id).sets =
      u.sets.map fun y => if y.id = id then y.resolved x commit u.clock.rig else y := by
  unfold resolveOne
  split
  · next y hy =>
    obtain ⟨mem, rfl⟩ := mem_of_findSet hy
    obtain ⟨delay, due, resolved⟩ := (hd y mem rfl).resolved (commit := commit) (now := u.clock.rig)
    rw [due]
    dsimp only
    rw [fallDueAt_sets]
    refine List.map_congr_left fun z hz => ?_
    by_cases e : z.id = y.id
    · rw [if_pos e, if_pos e, List.inj_on_of_nodup_map hn hz mem e, resolved]
    · rw [if_neg e, if_neg e]
  · next hy =>
    refine (List.map_id' _).symm.trans (List.map_congr_left fun z hz => ?_)
    exact (if_neg fun e => by simpa [e] using List.find?_eq_none.1 hy z hz).symm

theorem resolveOne_clock (commit : Nat) (u : State) (id : Nat) : (resolveOne commit u id).clock = u.clock := by
  unfold resolveOne fallDueAt
  repeat' split
  all_goals rfl

/-- R43: dependants resolved one after the other. -/
theorem foldl_resolveOne (ids : List Nat) (hids : ids.Nodup) (u : State) (hn : (u.sets.map (·.id)).Nodup)
    (hd : ∀ y ∈ u.sets, y.id ∈ ids → DependsOn s except x y) : (ids.foldl (resolveOne commit) u).sets =
      u.sets.map fun y => if y.id ∈ ids then y.resolved x commit u.clock.rig else y := by
  induction ids generalizing u with
  | nil => simp
  | cons id ids ih =>
    obtain ⟨fresh, rest⟩ := List.nodup_cons.1 hids
    have one := resolveOne_sets (commit := commit) hn fun y hy e => hd y hy (e ▸ .head _)
    let g := fun y : SealedSet => if y.id = id then y.resolved x commit u.clock.rig else y
    have keeps (y : SealedSet) : (g y).id = y.id := by
      simp only [g]
      split
      · exact SealedSet.resolved_id ..
      · rfl
    have others (y : SealedSet) (h : y.id ∈ ids) : g y = y := if_neg fun e : y.id = id => fresh (e ▸ h)
    rw [List.foldl_cons, ih rest _ (by rw [one, ids_map g keeps]; exact hn), one, resolveOne_clock, List.map_map]
    · refine List.map_congr_left fun y hy => ?_
      show (if (g y).id ∈ ids then (g y).resolved x commit u.clock.rig else g y) = _
      rw [keeps]
      by_cases h : y.id ∈ ids
      · rw [if_pos h, if_pos (.tail _ h), others y h]
      · rw [if_neg h]
        simp only [g, List.mem_cons, h, or_false]
    · rw [one]
      refine List.forall_mem_map.2 fun y hy h => ?_
      have h : y.id ∈ ids := keeps y ▸ h
      show DependsOn s except x (g y)
      rw [others y h]
      exact hd y hy (.tail _ h)

theorem resolveChain_sets (hn : (s.sets.map (·.id)).Nodup) (x : SealedSet) (commit : Nat) :
    (resolveChain x commit s).sets = s.sets.map fun y => y.resolved x commit s.clock.rig := by
  have depends {y : SealedSet} (hy : y ∈ s.sets) : y.id ∈ dependants x [] s ↔ DependsOn s [] x y := by
    rw [mem_dependants]
    exact ⟨fun ⟨z, hz, e⟩ => List.inj_on_of_nodup_map hn hz.1 hy e ▸ hz, fun h => ⟨y, h, rfl⟩⟩
  refine (foldl_resolveOne _ (nodup_dependants hn) s hn fun y hy => (depends hy).1).trans (List.map_congr_left fun y hy => ?_)
  split
  · rfl
  · next h => exact (resolved_of_not_dependsOn hy (mt (depends hy).2 h)).symm

end

/-! ### The comparison of a session's queue -/

section
variable {n : SessionIx} {k : Session} {s : State}

theorem queueCheck_open (h : s.session n = some k) : queueCheck s n =
    if k.lowMark = 0 then s
    else if k.lowMark ≤ queueCount n s then withArmed n true s
    else if s.schedule.armed.get n then withArmed n false (sessionReport .schedule n (.queueLow (queueCount n s) k.lowMark) s)
    else s := by simp [queueCheck, h]

end

/-- Settles O41: each operation by its own equation. -/
theorem setsLeaveResolveAndAreCounted : Obligations.SetsLeaveResolveAndAreCounted := by
  refine ⟨⟨fun x outcome reason commit s => ?_, fun n id s => ⟨fun h => dropMember_none h id, fun c h => dropMember_some h id⟩,
    fun n s => ⟨fun h => ?_, fun c k hc hk => ?_⟩, fun x commit s hn => ?_, fun n c reason id why except k s hk => ?_⟩,
    fun _ => rfl, fun n k s hk => ?_⟩
  · intro pass result gone back
    have notices (parked : Bool) : resultNotices x outcome reason parked commit s = result parked := by
      unfold resultNotices setResultOf
      rw [passOf_eq] <;> rfl
    refine ⟨fun parked => ?_, removeSet_eq x s, ?_⟩
    · rw [handResult_eq, notices]
    · rw [leaveSet_eq, notices]
  · simp only [endStoppedCycle, h]
  · simp only [endStoppedCycle, hc]
    rw [closeCycle_open hk] <;> rfl
  · intro t
    refine ⟨(only_resolveChain (by simp) x commit).2 (.refl _ s), (resolveChain_sets hn x commit).trans ?_, fun hl ho => ?_⟩
    · refine List.map_congr_left fun y _ => ?_
      cases hd : y.due <;> simp only [SealedSet.resolved, SealedSet.fallen, hd] <;> rfl
    · obtain ⟨listed, ordered⟩ := (readyKept_keptByMoves True).resolveChain x commit ⟨hl, fun _ => ho⟩
      exact ⟨listed, ordered trivial⟩
  · intro t u
    have only := stopMembers_frame c except s
    have sessions : u.sessions = s.sessions := only .sessions (by simp)
    have clock : u.clock = s.clock := only .clock (by simp)
    have session : (detachMembers c u).session n = some k := by
      show u.session n = some k
      rwa [State.session, sessions]
    have ht : t = post (.report .schedule (some (n, k.incarnation)) (cycleChangeOf c reason (some (id, why)) s.clock.rig))
        ((detachMembers c u).withCycle n none) := by
      rw [← clock]
      exact closeCycle_open session .schedule reason (some (id, why))
    refine ⟨?_, ?_, ?_⟩
    · rw [ht, detachMembers_eq]
      rfl
    · rw [ht]
      exact (State.cycle_withCycle ..).trans (if_pos rfl)
    · rw [ht, detachMembers_eq]
      refine List.forall_mem_map.2 fun x _ hm ha => ?_
      by_cases h : x.id ∈ c.members ∧ x.state = .applying
      · rw [if_pos h]
      · rw [if_neg h] at hm ha
        exact absurd ⟨hm, ha⟩ h
  · intro count armed
    have check := queueCheck_open hk
    refine ⟨fun h0 => check.trans (if_pos h0), fun h0 hl => ?_, fun hl ha => ?_, fun hl ha => ?_⟩
    · exact check.trans ((if_neg h0.ne').trans (if_pos hl))
    · exact check.trans ((if_neg (Nat.ne_of_gt (by omega))).trans ((if_neg (Nat.not_le.2 hl)).trans
        (if_neg (Bool.eq_false_iff.1 ha))))
    · refine check.trans ((if_neg (Nat.ne_of_gt (by omega))).trans ((if_neg (Nat.not_le.2 hl)).trans ((if_pos ha).trans ?_)))
      rw [sessionReport_open hk]
      rfl

end Sys2Proof.Machine
end


section
/-! PROOFS. The breaking of a chain (R44): the sets that depend on a set leave one by one, each after the one that it
depends on (O42, first part). -/

namespace Sys2Proof.Machine

/-! ### Dependants -/

/-- R43: the dependants of a set, in seal-number order. -/
def dependantSets (x : SealedSet) (except : List Nat) (s : State) : List SealedSet :=
  s.sets.filter fun y =>
    y.owner = x.owner && y.dueTime.isNone && !except.contains y.id &&
      (match y.due with
        | .after p _ => p = x.id
        | _ => false)

/-- The set waits for the commit of the set of an id. -/
def SealedSet.follows (y : SealedSet) (p : Nat) : Bool :=
  match y.due with
  | .after q _ => q = p
  | _ => false

section
variable {x y z w : SealedSet} {s t : State} {except : List Nat}

theorem follows_iff {p : Nat} : y.follows p = true ↔ ∃ d, y.due = .after p d := by
  unfold SealedSet.follows
  cases y.due <;> simp [eq_comm]

theorem mem_dependantSets : y ∈ dependantSets x except s ↔ DependsOn s except x y := by
  have due : (match y.due with
      | .after p _ => decide (p = x.id)
      | _ => false) = true ↔ ∃ d, y.due = .after x.id d := by
    cases y.due <;> simp [eq_comm]
  simp only [dependantSets, List.mem_filter, Bool.and_eq_true, decide_eq_true_eq, Option.isNone_iff_eq_none,
    Bool.not_eq_true', List.contains_eq_mem, decide_eq_false_iff_not]
  exact ⟨fun ⟨hy, ⟨⟨owner, unresolved⟩, new⟩, d⟩ => ⟨hy, owner, unresolved, due.1 d, new⟩,
    fun ⟨hy, owner, unresolved, d, new⟩ => ⟨hy, ⟨⟨owner, unresolved⟩, new⟩, due.2 d⟩⟩

theorem dependants_eq (x : SealedSet) (except : List Nat) (s : State) :
    dependants x except s = (dependantSets x except s).map (·.id) := rfl

theorem DependsOn.mem (h : DependsOn s except x y) : y ∈ s.sets := h.1

theorem DependsOn.follows (h : DependsOn s except x y) : y.follows x.id = true := follows_iff.2 h.2.2.2.1

theorem DependsOn.of_subset (h : DependsOn s except x y) (hy : y ∈ t.sets) : DependsOn t except x y := ⟨hy, h.2⟩

/-- A set depends on the set of one id at most. -/
theorem DependsOn.id_eq (h : DependsOn s except x y) (h' : DependsOn t except z y) : x.id = z.id := by
  obtain ⟨-, -, -, ⟨d, hd⟩, -⟩ := h
  obtain ⟨-, -, -, ⟨d', hd'⟩, -⟩ := h'
  rw [hd] at hd'
  injection hd'

theorem InChain.mem (h : InChain s except x y) : y ∈ s.sets := by
  cases h with
  | single h => exact h.mem
  | tail _ h => exact h.mem

theorem InChain.mono (hs : ∀ z ∈ s.sets, z ∈ t.sets) (h : InChain s except x y) : InChain t except x y := by
  induction h with
  | single h => exact .single (h.of_subset (hs _ h.mem))
  | tail _ h ih => exact .tail ih (h.of_subset (hs _ h.mem))

/-- Whether a set depends on another one rests on its id. -/
theorem InChain.of_id_eq (h : InChain s except x y) (hi : x.id = z.id) (ho : x.owner = z.owner) : InChain s except z y := by
  have first {w : SealedSet} (h : DependsOn s except x w) : DependsOn s except z w := by
    obtain ⟨hw, owner, rest⟩ := h
    exact ⟨hw, owner.trans ho, hi ▸ rest⟩
  induction h with
  | single h => exact .single (first h)
  | tail _ h ih => exact .tail ih h

/-! ### Sets that leave one after the other -/

/-- R44, R55: sets leave CANCELLED with one reason. -/
def leaveEach (why : ResultReason) (ys : List SealedSet) (s : State) : State :=
  ys.foldl (fun t y => leaveSet y .cancelled (some why) none t) s

theorem leaveEach_sets (why : ResultReason) (ys : List SealedSet) (s : State) :
    (leaveEach why ys s).sets = s.sets.filter fun y => !(ys.map (·.id)).contains y.id := by
  induction ys generalizing s with
  | nil => simp [leaveEach]
  | cons y ys ih =>
    rw [leaveEach, List.foldl_cons, ← leaveEach, ih, sets_leaveSet, List.filter_filter]
    refine List.filter_congr fun z _ => ?_
    simp [Bool.and_comm]

/-- With distinct ids, the sets left are those that are not picked. -/
theorem mem_leaveEach (hn : (s.sets.map (·.id)).Nodup) {ys : List SealedSet} (hys : ∀ z ∈ ys, z ∈ s.sets)
    (why : ResultReason) : y ∈ (leaveEach why ys s).sets ↔ y ∈ s.sets ∧ y ∉ ys := by
  rw [leaveEach_sets, List.mem_filter, Bool.not_eq_true', List.contains_eq_mem, decide_eq_false_iff_not, List.mem_map]
  refine and_congr_right fun hy => not_congr ⟨fun ⟨z, hz, e⟩ => ?_, fun h => ⟨y, h, rfl⟩⟩
  exact List.inj_on_of_nodup_map hn (hys z hz) hy e ▸ hz

/-! ### The walk along a chain -/

/-- R44: a walk along the chain of `x`: the sets that have left, and those whose turn is still to come. -/
structure Walk (s : State) (except : List Nat) (x : SealedSet) (done next : List SealedSet) : Prop where
  nodup : (done ++ next).Nodup
  chain : ∀ z ∈ done ++ next, InChain s except x z
  parent : ∀ z ∈ done ++ next, ∃ w, (w = x ∨ w ∈ done) ∧ DependsOn s except w z
  closed : ∀ w, (w = x ∨ w ∈ done) → ∀ z, DependsOn s except w z → z ∈ done ++ next
  ordered : done.Pairwise fun a b => ¬ DependsOn s except b a
  inOrder : ∀ p, ((done ++ next).filter (·.follows p)).Sublist s.sets

/-- No set of the id of `x` is a dependant. -/
def Unfollowing (s : State) (x : SealedSet) : Prop :=
  ∀ y ∈ s.sets, y.id = x.id → y.dueTime ≠ none ∨ ∀ p d, y.due ≠ .after p d

theorem Unfollowing.not_dependsOn (h : Unfollowing s x) (hw : DependsOn s except w y) : y.id ≠ x.id := by
  obtain ⟨hy, -, unresolved, ⟨d, due⟩, -⟩ := hw
  exact fun e => (h y hy e).elim (fun n => n unresolved) fun n => n _ _ due

theorem Walk.start (hn : (s.sets.map (·.id)).Nodup) (x : SealedSet) (except : List Nat) :
    Walk s except x [] (dependantSets x except s) where
  nodup := (List.Nodup.of_map _ hn).filter _
  chain z hz := .single (mem_dependantSets.1 hz)
  parent z hz := ⟨x, .inl rfl, mem_dependantSets.1 hz⟩
  closed w hw z hz := by
    obtain rfl := hw.resolve_right List.not_mem_nil
    exact mem_dependantSets.2 hz
  ordered := .nil
  inOrder p := List.filter_sublist.trans List.filter_sublist

section
variable {done next : List SealedSet}

theorem Walk.mem (h : Walk s except x done next) (hz : z ∈ done ++ next) : z ∈ s.sets := (h.chain z hz).mem

/-- Nothing that the walk has met follows the set whose turn it is. -/
theorem Walk.not_follows_head (h : Walk s except x done (y :: next)) (hn : (s.sets.map (·.id)).Nodup) (hx : Unfollowing s x)
    (hz : z ∈ done ++ y :: next) : ¬ DependsOn s except y z := by
  intro hyz
  have hy : y ∈ done ++ y :: next := List.mem_append_right _ (.head _)
  obtain ⟨w, hw, hwz⟩ := h.parent z hz
  have id := hwz.id_eq hyz
  obtain ⟨v, -, hvy⟩ := h.parent y hy
  obtain rfl | hw := hw
  · exact hx.not_dependsOn hvy id.symm
  · have same : w = y := List.inj_on_of_nodup_map hn (h.mem (List.mem_append_left _ hw)) (h.mem hy) id
    exact List.disjoint_of_nodup_append h.nodup (same ▸ hw) (.head _)

/-- The set whose turn it is leaves, and its dependants are next. -/
theorem Walk.step (h : Walk s except x done (y :: next)) (hn : (s.sets.map (·.id)).Nodup) (hx : Unfollowing s x) :
    Walk s except x (done ++ [y]) (dependantSets y except s ++ next) := by
  have hy : y ∈ done ++ y :: next := List.mem_append_right _ (.head _)
  have fresh {z : SealedSet} (hz : z ∈ dependantSets y except s) : z ∉ done ++ y :: next :=
    fun hm => h.not_follows_head hn hx hm (mem_dependantSets.1 hz)
  have mem_iff (z : SealedSet) : z ∈ done ++ [y] ++ (dependantSets y except s ++ next) ↔
      z ∈ done ++ y :: next ∨ DependsOn s except y z := by
    simp only [List.mem_append, List.mem_cons, List.not_mem_nil, or_false, mem_dependantSets]
    tauto
  refine ⟨?_, fun z hz => ?_, fun z hz => ?_, fun w hw z hz => ?_, ?_, fun p => ?_⟩
  · have deps : (dependantSets y except s).Nodup := (List.Nodup.of_map _ hn).filter _
    have perm : (done ++ [y] ++ (dependantSets y except s ++ next)).Perm (dependantSets y except s ++ (done ++ y :: next)) := by
      rw [List.append_assoc, List.singleton_append]
      refine (List.Perm.append_left done ((List.perm_middle (l₁ := dependantSets y except s) (a := y) (l₂ := next)).symm)).trans ?_
      exact List.perm_append_comm_assoc ..
    rw [perm.nodup_iff]
    exact List.nodup_append.2 ⟨deps, h.nodup, fun a ha b hb e => fresh ha (e ▸ hb)⟩
  · obtain hz | hz := (mem_iff z).1 hz
    · exact h.chain z hz
    · exact .tail (h.chain y hy) hz
  · obtain hz | hz := (mem_iff z).1 hz
    · obtain ⟨w, hw, hwz⟩ := h.parent z hz
      exact ⟨w, hw.imp_right (List.mem_append_left _), hwz⟩
    · exact ⟨y, .inr (List.mem_append_right _ (.head _)), hz⟩
  · rw [mem_iff]
    obtain rfl | hw := hw
    · exact .inl (h.closed w (.inl rfl) z hz)
    · obtain hw | hw := List.mem_append.1 hw
      · exact .inl (h.closed w (.inr hw) z hz)
      · exact .inr (List.mem_singleton.1 hw ▸ hz)
  · refine List.pairwise_append.2 ⟨h.ordered, List.pairwise_singleton _ _, fun a ha b hb => ?_⟩
    rw [List.mem_singleton.1 hb]
    exact h.not_follows_head hn hx (List.mem_append_left _ ha)
  · by_cases hp : p = y.id
    · subst hp
      have none {l : List SealedSet} (hl : ∀ z ∈ l, z ∈ done ++ y :: next) : l.filter (·.follows y.id) = [] := by
        refine List.filter_eq_nil_iff.2 fun z hz hf => ?_
        obtain ⟨w, hw, hwz⟩ := h.parent z (hl z hz)
        obtain ⟨hz', owner, unresolved, ⟨d, due⟩, new⟩ := hwz
        obtain ⟨d', due'⟩ := follows_iff.1 hf
        rw [due] at due'
        injection due' with id
        obtain ⟨v, -, hvy⟩ := h.parent y hy
        obtain rfl | hw := hw
        · exact hx.not_dependsOn hvy id.symm
        · have same : w = y := List.inj_on_of_nodup_map hn (h.mem (List.mem_append_left _ hw)) (h.mem hy) id
          exact List.disjoint_of_nodup_append h.nodup (same ▸ hw) (.head _)
      have before := none (l := done) fun z hz => List.mem_append_left _ hz
      have self := none (l := [y]) fun z hz => List.mem_append_right _ (List.mem_singleton.1 hz ▸ .head _)
      have after := none (l := next) fun z hz => List.mem_append_right _ (.tail _ hz)
      simp only [List.filter_append, before, self, after, List.nil_append, List.append_nil]
      exact List.filter_sublist.trans List.filter_sublist
    · have none : (dependantSets y except s).filter (·.follows p) = [] := by
        refine List.filter_eq_nil_iff.2 fun z hz hf => hp ?_
        obtain ⟨d, due⟩ := follows_iff.1 hf
        obtain ⟨-, -, -, ⟨d', due'⟩, -⟩ := mem_dependantSets.1 hz
        rw [due] at due'
        injection due'
      have same : (done ++ [y] ++ (dependantSets y except s ++ next)).filter (·.follows p) =
          (done ++ y :: next).filter (·.follows p) := by
        simp only [List.filter_append, none, List.nil_append, List.append_assoc, List.filter_cons]
        split <;> simp
      rw [same]
      exact h.inOrder p

/-- R44: the walk goes on until nothing is left to break. -/
theorem Walk.finish (hn : (s.sets.map (·.id)).Nodup) (hx : Unfollowing s x) (f : Nat) (done next : List SealedSet)
    (h : Walk s except x done next) (hf : s.sets.length ≤ f + done.length) :
    ∃ broken, Walk s except x broken [] ∧
      breakChains f (next.map (·.id)) except (leaveEach .chainBroken done s) = leaveEach .chainBroken broken s := by
  induction f generalizing done next with
  | zero =>
    have all : next = [] := by
      refine List.eq_nil_iff_length_eq_zero.2 ?_
      have := (List.subperm_of_subset h.nodup fun z => h.mem).length_le
      rw [List.length_append] at this
      omega
    subst all
    exact ⟨done, h, by rw [breakChains.eq_def]⟩
  | succ f ih =>
    cases next with
    | nil => exact ⟨done, h, by rw [List.map_nil, breakChains.eq_def]⟩
    | cons y next =>
      have hdone : ∀ z ∈ done, z ∈ s.sets := fun z hz => h.mem (List.mem_append_left _ hz)
      have hy : y ∈ (leaveEach .chainBroken done s).sets := (mem_leaveEach hn hdone _).2
        ⟨h.mem (List.mem_append_right _ (.head _)), fun hm => List.disjoint_of_nodup_append h.nodup hm (.head _)⟩
      have left : ((leaveEach .chainBroken done s).sets.map (·.id)).Nodup := by
        rw [leaveEach_sets]
        exact hn.sublist (List.filter_sublist.map _)
      have found : (leaveEach .chainBroken done s).findSet y.id = some y := find?_of_nodup left hy
      have deps : dependants y except (leaveEach .chainBroken done s) = (dependantSets y except s).map (·.id) := by
        rw [dependants_eq, dependantSets, leaveEach_sets, List.filter_filter]
        refine congrArg _ (List.filter_congr fun z hz => ?_)
        rw [Bool.eq_iff_iff, Bool.and_eq_true]
        refine and_iff_left_of_imp fun hd => ?_
        have hyz : DependsOn s except y z := mem_dependantSets.1 (List.mem_filter.2 ⟨hz, hd⟩)
        have stays : z ∈ (leaveEach .chainBroken done s).sets := (mem_leaveEach hn hdone _).2
          ⟨hz, fun hm => h.not_follows_head hn hx (List.mem_append_left _ hm) hyz⟩
        rw [leaveEach_sets] at stays
        exact (List.mem_filter.1 stays).2
      obtain ⟨broken, walk, run⟩ := ih _ _ (h.step hn hx) (by simp; omega)
      refine ⟨broken, walk, ?_⟩
      rw [← run, List.map_cons, breakChains.eq_def]
      simp only [found, deps, List.map_append]
      rw [show leaveEach .chainBroken (done ++ [y]) s = leaveSet y .cancelled (some .chainBroken) none (leaveEach .chainBroken done s) by
        simp [leaveEach]]

end

/-! ### A broken chain -/

/-- R44: what the breaking of a chain does. -/
theorem breakChain_walk (hn : (s.sets.map (·.id)).Nodup) (hx : Unfollowing s x) (except : List Nat) :
    ∃ broken, Walk s except x broken [] ∧ breakChain x except s = leaveEach .chainBroken broken s :=
  Walk.finish hn hx s.sets.length [] _ (.start hn x except) (Nat.le_refl _)

theorem Walk.mem_iff {broken : List SealedSet} (h : Walk s except x broken []) : y ∈ broken ↔ InChain s except x y := by
  refine ⟨fun hy => h.chain y (by simpa using hy), fun hy => ?_⟩
  have closed (w : SealedSet) (hw : w = x ∨ w ∈ broken) (z : SealedSet) (hz : DependsOn s except w z) : z ∈ broken := by
    simpa using h.closed w hw z hz
  induction hy with
  | single hd => exact closed x (.inl rfl) _ hd
  | tail _ hd ih => exact closed _ (.inr ih) _ hd

/-- R44: the sets left are those that are not in the chain. -/
theorem mem_breakChain (hn : (s.sets.map (·.id)).Nodup) (hx : Unfollowing s x) :
    y ∈ (breakChain x except s).sets ↔ y ∈ s.sets ∧ ¬ InChain s except x y := by
  obtain ⟨broken, walk, run⟩ := breakChain_walk hn hx except
  rw [run, mem_leaveEach hn (fun z hz => walk.mem (by simpa using hz)), walk.mem_iff]

end

end Sys2Proof.Machine
end


section
/-! PROOFS. Sets cancelled one after the other, each followed by its chain (O42). -/

namespace Sys2Proof.Machine

/-- R54: one live set of a list of ids is cancelled, unless it is APPLYING. -/
def cancelOne (reason : ResultReason) (except : List Nat) (t : State) (id : Nat) : State :=
  match t.findSet id with
  | some x => if x.waiting then cancelSet x reason except t else t
  | none => t

/-- No chain reaches a set of the list. -/
def Shielded (s : State) (except ids : List Nat) : Prop := ∀ y ∈ s.sets, y.id ∈ ids → ∀ w, ¬ DependsOn s except w y

section
variable {s t : State} {x y z : SealedSet} {reason : ResultReason} {except ids : List Nat} {id : Nat}

theorem Shielded.not_inChain (h : Shielded s except ids) (hy : y.id ∈ ids) : ¬ InChain s except x y := by
  intro hc
  cases hc with
  | single hd => exact h y hd.mem hy _ hd
  | tail _ hd => exact h y hd.mem hy _ hd

theorem findSet_of_mem (hn : (s.sets.map (·.id)).Nodup) (hx : x ∈ s.sets) : s.findSet x.id = some x := find?_of_nodup hn hx

theorem findSet_eq_none (h : ∀ x ∈ s.sets, x.id ≠ id) : s.findSet id = none :=
  List.find?_eq_none.2 fun x hx => by simpa using h x hx

theorem id_ne_of_findSet (h : s.findSet id = none) (hx : x ∈ s.sets) : x.id ≠ id := by
  simpa using List.find?_eq_none.1 h x hx

theorem waiting_iff : x.waiting = true ↔ x.state ≠ .applying := by simp [SealedSet.waiting]

/-! ### One set cancelled -/

/-- R54: the Schedule without the set and before its chain is broken. -/
def leftFirst (x : SealedSet) (reason : ResultReason) (s : State) : State :=
  dropMember x.owner x.id (leaveSet x .cancelled (some reason) none s)

theorem leftFirst_sets (x : SealedSet) (reason : ResultReason) (s : State) :
    (leftFirst x reason s).sets = s.sets.filter fun y => y.id ≠ x.id := by
  rw [leftFirst, sets_dropMember, sets_leaveSet]

theorem leftFirst_unfollowing (x : SealedSet) (reason : ResultReason) (s : State) : Unfollowing (leftFirst x reason s) x := by
  intro y hy e
  rw [leftFirst_sets] at hy
  exact absurd e (by simpa using (List.mem_filter.1 hy).2)

theorem leftFirst_nodup (hn : (s.sets.map (·.id)).Nodup) : ((leftFirst x reason s).sets.map (·.id)).Nodup := by
  rw [leftFirst_sets]
  exact hn.sublist (List.filter_sublist.map _)

theorem mem_leftFirst : y ∈ (leftFirst x reason s).sets ↔ y ∈ s.sets ∧ y.id ≠ x.id := by
  simp [leftFirst_sets, List.mem_filter]

theorem cancelSet_eq (x : SealedSet) (reason : ResultReason) (except : List Nat) (s : State) :
    cancelSet x reason except s = breakChain x except (leftFirst x reason s) := rfl

/-- R44, R54: the sets left are those that are neither the set nor in its chain. -/
theorem mem_cancelSet (hn : (s.sets.map (·.id)).Nodup) : y ∈ (cancelSet x reason except s).sets ↔
    y ∈ s.sets ∧ y.id ≠ x.id ∧ ¬ InChain (leftFirst x reason s) except x y := by
  rw [cancelSet_eq, mem_breakChain (leftFirst_nodup hn) (leftFirst_unfollowing x reason s), mem_leftFirst, and_assoc]

theorem mem_cancelSet_of (hn : (s.sets.map (·.id)).Nodup) (hy : y ∈ s.sets) (hi : y.id ≠ x.id) (hc : ¬ InChain s except x y) :
    y ∈ (cancelSet x reason except s).sets :=
  (mem_cancelSet hn).2 ⟨hy, hi, fun h => hc (h.mono fun _ hz => (mem_leftFirst.1 hz).1)⟩

theorem cancelSet_nodup (hn : (s.sets.map (·.id)).Nodup) : ((cancelSet x reason except s).sets.map (·.id)).Nodup := by
  obtain ⟨broken, -, run⟩ := breakChain_walk (leftFirst_nodup (x := x) (reason := reason) hn) (leftFirst_unfollowing x reason s) except
  rw [cancelSet_eq, run, leaveEach_sets]
  exact (leftFirst_nodup hn).sublist (List.filter_sublist.map _)

theorem cancelSet_subset (hn : (s.sets.map (·.id)).Nodup) (hy : y ∈ (cancelSet x reason except s).sets) : y ∈ s.sets :=
  ((mem_cancelSet hn).1 hy).1

theorem Shielded.of_subset (h : Shielded s except (id :: ids)) (hs : ∀ y ∈ t.sets, y ∈ s.sets) : Shielded t except ids :=
  fun y hy hi w hd => h y (hs y hy) (.tail _ hi) w (hd.of_subset (hs y hy))

/-- A set that no chain reaches is still found. -/
theorem findSet_cancelSet (hn : (s.sets.map (·.id)).Nodup) (hsh : Shielded s except ids) (hid : id ∈ ids) (ne : id ≠ x.id) :
    (cancelSet x reason except s).findSet id = s.findSet id := by
  cases hz : s.findSet id with
  | none => exact findSet_eq_none fun y hy => id_ne_of_findSet hz (cancelSet_subset hn hy)
  | some z =>
    obtain ⟨mem, rfl⟩ := mem_of_findSet hz
    exact findSet_of_mem (cancelSet_nodup hn) (mem_cancelSet_of hn mem ne (hsh.not_inChain hid))

/-! ### Sets cancelled one after the other -/

/-- R54, R94 to R96: sets that no chain reaches are cancelled in the order given. -/
theorem foldl_cancelOne (ids : List Nat) (hids : ids.Nodup) (s : State) (hn : (s.sets.map (·.id)).Nodup)
    (hsh : Shielded s except ids) :
    let t := ids.foldl (cancelOne reason except) s
    t = ((ids.filterMap s.findSet).filter (·.waiting)).foldl (fun u x => cancelSet x reason except u) s ∧
    (∀ y ∈ t.sets, y ∈ s.sets ∧ (y.id ∈ ids → y.state = .applying)) ∧
    (∀ y ∈ s.sets, (y.id ∉ ids ∨ y.state = .applying) →
      (∀ x ∈ s.sets, x.id ∈ ids → x.state ≠ .applying → ¬ InChain s except x y) → y ∈ t.sets) := by
  induction ids generalizing s with
  | nil => exact ⟨rfl, fun y hy => ⟨hy, fun h => absurd h List.not_mem_nil⟩, fun y hy _ _ => hy⟩
  | cons id ids ih =>
    obtain ⟨fresh, rest⟩ := List.nodup_cons.1 hids
    by_cases hx : ∃ x, s.findSet id = some x ∧ x.waiting = true
    · obtain ⟨x, hx, hw⟩ := hx
      obtain ⟨mem, rfl⟩ := mem_of_findSet hx
      have one : cancelOne reason except s x.id = cancelSet x reason except s := by simp [cancelOne, hx, hw]
      obtain ⟨order, subset, stays⟩ := ih rest (cancelSet x reason except s) (cancelSet_nodup hn)
        (hsh.of_subset fun y hy => cancelSet_subset hn hy)
      have found : ids.filterMap (cancelSet x reason except s).findSet = ids.filterMap s.findSet :=
        List.filterMap_congr fun i hi => findSet_cancelSet hn hsh (.tail _ hi) fun e => fresh (e ▸ hi)
      rw [found] at order
      refine ⟨?_, fun y hy => ?_, fun y hy hi hc => ?_⟩
      · rw [List.foldl_cons, one, order, List.filterMap_cons_some hx, List.filter_cons, if_pos hw, List.foldl_cons]
      · rw [List.foldl_cons, one] at hy
        obtain ⟨hy, applying⟩ := subset y hy
        obtain ⟨hy, ne, -⟩ := (mem_cancelSet hn).1 hy
        exact ⟨hy, fun hi => applying ((List.mem_cons.1 hi).resolve_left ne)⟩
      · rw [List.foldl_cons, one]
        have ne : y.id ≠ x.id := fun e => by
          obtain rfl := List.inj_on_of_nodup_map hn hy mem e
          exact waiting_iff.1 hw (hi.resolve_left fun h => h (.head _))
        refine stays y (mem_cancelSet_of hn hy ne (hc x mem (.head _) (waiting_iff.1 hw)))
          (hi.imp_left fun h hm => h (.tail _ hm)) fun z hz hzi hzw h => ?_
        exact hc z (cancelSet_subset hn hz) (.tail _ hzi) hzw (h.mono fun _ hz => cancelSet_subset hn hz)
    · have one : cancelOne reason except s id = s := by
        unfold cancelOne
        split
        · next x h => exact if_neg fun hw => hx ⟨x, h, hw⟩
        · rfl
      have applying (y : SealedSet) (hy : y ∈ s.sets) (e : y.id = id) : y.state = .applying := by
        subst e
        by_contra h
        exact hx ⟨y, findSet_of_mem hn hy, waiting_iff.2 h⟩
      obtain ⟨order, subset, stays⟩ := ih rest s hn (hsh.of_subset fun _ h => h)
      refine ⟨?_, fun y hy => ?_, fun y hy hi hc => ?_⟩
      · rw [List.foldl_cons, one, order]
        cases h : s.findSet id with
        | none => rw [List.filterMap_cons_none h]
        | some x => rw [List.filterMap_cons_some h, List.filter_cons, if_neg fun hw => hx ⟨x, h, hw⟩]
      · rw [List.foldl_cons, one] at hy
        obtain ⟨hy, waits⟩ := subset y hy
        exact ⟨hy, fun hi => (List.mem_cons.1 hi).elim (applying y hy) waits⟩
      · rw [List.foldl_cons, one]
        exact stays y hy (hi.imp_left fun h hm => h (.tail _ hm)) fun x hxs hi => hc x hxs (.tail _ hi)

theorem cancelSets_eq (ids : List Nat) (reason : ResultReason) (s : State) :
    cancelSets ids reason s = ids.foldl (cancelOne reason ids) s := rfl

theorem stopMembers_eq (c : Cycle) (except : List Nat) (s : State) :
    stopMembers c except s = c.members.foldl (cancelOne .cycleStopped except) s := rfl

/-- R54: no chain takes along a set that is cancelled with a reason of its own. -/
theorem shielded_except (s : State) (ids : List Nat) : Shielded s ids ids :=
  fun _ _ hi _ hd => hd.2.2.2.2 hi

/-- R89: a member is due by an offset and depends on no set. -/
theorem shielded_offset (h : ∀ x ∈ s.sets, x.id ∈ ids → ∃ v, x.due = .offset v) : Shielded s except ids := by
  rintro y hy hi w ⟨-, -, -, ⟨d, due⟩, -⟩
  obtain ⟨v, offset⟩ := h y hy hi
  rw [due] at offset
  cases offset

end

/-- Settles O42: the chain by its walk, the lists by `foldl_cancelOne`. -/
theorem chainsBreakAndMembersStop : Obligations.ChainsBreakAndMembersStop := by
  refine ⟨fun x except s hn hx => ?_, fun _ _ _ _ => rfl, fun ids reason s hn hids => ?_, fun c except s hn hm hoff => ?_⟩
  · obtain ⟨broken, walk, run⟩ := breakChain_walk hn hx except
    refine ⟨broken, by simpa using walk.nodup, fun y => walk.mem_iff, walk.ordered, fun p => ?_, run⟩
    have := walk.inOrder p
    rw [List.append_nil] at this
    exact this
  · intro t
    obtain ⟨order, subset, stays⟩ := foldl_cancelOne (reason := reason) ids hids s hn (shielded_except s ids)
    exact ⟨(only_cancelSets (by simp) (by simp) (by simp) ids reason).2 (.refl _ s), order, subset, stays⟩
  · intro t
    obtain ⟨order, subset, stays⟩ := foldl_cancelOne (reason := .cycleStopped) (except := except) c.members hm s hn
      (shielded_offset hoff)
    exact ⟨stopMembers_frame c except s, order, subset, stays⟩

end Sys2Proof.Machine
end


section
/-! PROOFS. What sets leave behind as they go, SET_CANCEL and halt entry (O43, first part). -/

namespace Sys2Proof.Machine

/-! ### What only grows, and what only shrinks -/

/-- Since `s`, notices have only been handed over and sets have only left; the sessions and the clock are the same. -/
structure Later (s t : State) : Prop where
  sessions : t.sessions = s.sessions
  clock : t.clock = s.clock
  told : ∀ n ∈ s.notices, n ∈ t.notices
  ids : ∀ z ∈ t.sets, ∃ y ∈ s.sets, y.id = z.id

theorem Later.refl (s : State) : Later s s := ⟨rfl, rfl, fun _ h => h, fun z hz => ⟨z, hz, rfl⟩⟩

theorem Later.trans {s t u : State} (h : Later s t) (k : Later t u) : Later s u where
  sessions := k.sessions.trans h.sessions
  clock := k.clock.trans h.clock
  told n hn := k.told n (h.told n hn)
  ids z hz := by
    obtain ⟨y, hy, e⟩ := k.ids z hz
    obtain ⟨x, hx, e'⟩ := h.ids y hy
    exact ⟨x, hx, e'.trans e⟩

theorem Later.map {s t u : State} (h : Later s t) (hs : u.sessions = t.sessions) (hc : u.clock = t.clock)
    (hn : u.notices = t.notices) (f : SealedSet → SealedSet) (hf : ∀ x, (f x).id = x.id) (hu : u.sets = t.sets.map f) :
    Later s u := by
  refine h.trans ⟨hs, hc, fun n => hn ▸ id, ?_⟩
  rw [hu]
  exact List.forall_mem_map.2 fun x hx => ⟨x, hx, (hf x).symm⟩

theorem Later.kept {s t u : State} (h : Later s t) (hs : u.sessions = t.sessions) (hc : u.clock = t.clock)
    (hn : ∀ n ∈ t.notices, n ∈ u.notices) (hu : ∀ z ∈ u.sets, z ∈ t.sets) : Later s u :=
  h.trans ⟨hs, hc, hn, fun z hz => ⟨z, hu z hz, rfl⟩⟩

theorem SealedSet.changed_id {f : SealedSet → SealedSet} (hf : ∀ x, (f x).id = x.id) (id : Nat) (x : SealedSet) :
    (if x.id = id then f x else x).id = x.id := by
  split
  · exact hf x
  · rfl

/-- Every move of a set keeps what has been handed over. -/
theorem later_keptByMoves (s : State) : KeptByMoves False (Later s) where
  ids h := h.elim
  posted n _ h := h.kept rfl rfl (fun _ hn => List.mem_append_left _ hn) fun _ hz => hz
  cycle _ _ _ h := h.kept rfl rfl (fun _ hn => hn) fun _ hz => hz
  armed _ _ h := h.kept rfl rfl (fun _ hn => hn) fun _ hz => hz
  engine _ h := h.kept rfl rfl (fun _ hn => hn) fun _ hz => hz
  relabelled f hf h := h.map rfl rfl rfl f (fun x => by obtain ⟨m, p, e⟩ := hf x; rw [e]) rfl
  left _ h := h.kept rfl rfl (fun _ hn => List.mem_append_left _ hn) fun _ hz => List.mem_of_mem_filter hz
  due v _ h := h.map rfl rfl rfl _ (SealedSet.madeDue_id _ v) rfl
  pending v _ h := h.map rfl rfl rfl _ (SealedSet.changed_id (f := SealedSet.pendingAt v) (fun _ => rfl) _) rfl
  dueAgain v _ h := h.map rfl rfl rfl _ (SealedSet.madeDue_id _ v) rfl
  pendingAgain v _ h := h.map rfl rfl rfl _ (SealedSet.changed_id (f := SealedSet.pendingAt v) (fun _ => rfl) _) rfl
  parked _ _ h := h.map rfl rfl rfl _ (SealedSet.changed_id (f := SealedSet.parkedAgain) (fun _ => rfl) _) rfl
  headGone _ _ h := h.kept rfl rfl (fun _ hn => hn) fun _ hz => hz
  headLeft _ _ h := h.kept rfl rfl (fun _ hn => List.mem_append_left _ hn) fun _ hz => List.mem_of_mem_filter hz
  headParked _ _ h := h.map rfl rfl rfl _ (SealedSet.changed_id (f := SealedSet.parkedAgain) (fun _ => rfl) _) rfl
  headTaken _ _ _ h := h.map rfl rfl rfl _ (SealedSet.changed_id (f := SealedSet.taken) (fun _ => rfl) _) rfl

/-! ### A set that has left CANCELLED -/

/-- R51, R54: the set is off the Schedule, its items are handed back and its owner, if OPEN, has its SET_RESULT. -/
def LeftAs (t : State) (x : SealedSet) (why : ResultReason) : Prop :=
  (∀ y ∈ t.sets, y.id ≠ x.id) ∧ .itemsReturn x.owner x.items.length ∈ t.notices ∧
  ∀ k, t.session x.owner = some k → ∃ y : SetResult, y.setId = x.id ∧ y.sealNo = x.sealNo ∧
    y.outcome = .cancelled ∧ y.reason = some why ∧ y.parked = false ∧
    .report .schedule (some (x.owner, k.incarnation)) (.setResult y) ∈ t.notices

section
variable {s t : State} {x y : SealedSet} {why reason : ResultReason} {except : List Nat}

theorem Later.session (h : Later s t) (n : SessionIx) : t.session n = s.session n := by
  rw [State.session, h.sessions, State.session]

theorem LeftAs.later (h : LeftAs s x why) (hl : Later s t) : LeftAs t x why := by
  obtain ⟨gone, items, result⟩ := h
  refine ⟨fun y hy => ?_, hl.told _ items, fun k hk => ?_⟩
  · obtain ⟨z, hz, e⟩ := hl.ids y hy
    exact e ▸ gone z hz
  · obtain ⟨y, id, no, out, reason, parked, told⟩ := result k (hl.session _ ▸ hk)
    exact ⟨y, id, no, out, reason, parked, hl.told _ told⟩

theorem leftAs_leaveSet (x : SealedSet) (why : ResultReason) (s : State) :
    LeftAs (leaveSet x .cancelled (some why) none s) x why := by
  rw [leaveSet_eq]
  refine ⟨fun y hy => ?_, ?_, fun k hk => ⟨setResultOf x .cancelled (some why) false none s, rfl, rfl, rfl, rfl, rfl, ?_⟩⟩
  · simpa using (List.mem_filter.1 hy).2
  · exact List.mem_append_left _ (List.mem_append_right _ (.head _))
  · have open_ : s.session x.owner = some k := hk
    refine List.mem_append_right _ ?_
    rw [resultNotices, open_]
    exact .head _

theorem later_leaveSet (x : SealedSet) (o : SetOutcome) (r : Option ResultReason) (c : Option Nat) (s : State) :
    Later s (leaveSet x o r c s) := (later_keptByMoves s).leaveSet (fun h => h.elim) o r c (.refl s)

/-- Sets that leave one after the other have all left. -/
theorem leftAs_leaveEach (why : ResultReason) (ys : List SealedSet) (s : State) (hy : y ∈ ys) :
    LeftAs (leaveEach why ys s) y why := by
  have later (ys : List SealedSet) (s : State) : Later s (leaveEach why ys s) :=
    KeptByMoves.foldl _ ys (fun u hu y _ => hu.trans (later_leaveSet y _ _ _ u)) (.refl s)
  induction ys generalizing s with
  | nil => cases hy
  | cons x ys ih =>
    rw [leaveEach, List.foldl_cons, ← leaveEach]
    obtain rfl | hy := List.mem_cons.1 hy
    · exact (leftAs_leaveSet y why s).later (later ys _)
    · exact ih _ hy

theorem later_leftFirst (x : SealedSet) (why : ResultReason) (s : State) : Later s (leftFirst x why s) :=
  (later_keptByMoves s).dropMember _ _ (later_leaveSet x _ _ _ s)

theorem leftAs_leftFirst (x : SealedSet) (why : ResultReason) (s : State) : LeftAs (leftFirst x why s) x why :=
  (leftAs_leaveSet x why s).later ((later_keptByMoves _).dropMember _ _ (.refl _))

theorem later_cancelSet (x : SealedSet) (why : ResultReason) (except : List Nat) (s : State) :
    Later s (cancelSet x why except s) :=
  (later_leftFirst x why s).trans ((later_keptByMoves _).breakChain x except (.refl _))

theorem leftAs_cancelSet (x : SealedSet) (why : ResultReason) (except : List Nat) (s : State) :
    LeftAs (cancelSet x why except s) x why :=
  (leftAs_leftFirst x why s).later ((later_keptByMoves _).breakChain x except (.refl _))

/-- R44: the sets of the chain have left too. -/
theorem leftAs_chain (hn : (s.sets.map (·.id)).Nodup) (hc : InChain (leftFirst x why s) except x y) :
    LeftAs (cancelSet x why except s) y .chainBroken := by
  obtain ⟨broken, walk, run⟩ :=
    breakChain_walk (leftFirst_nodup (x := x) (reason := why) hn) (leftFirst_unfollowing x why s) except
  rw [cancelSet_eq, run]
  exact leftAs_leaveEach _ broken _ (walk.mem_iff.2 hc)

theorem later_queueChecks (s : State) : Later s (queueChecks s) := (later_keptByMoves s).queueChecks (.refl s)

/-! ### SET_CANCEL -/

/-- R44: a set without dependants has no chain. -/
theorem breakChain_alone (h : ∀ y, ¬ DependsOn s except x y) : breakChain x except s = s := by
  have none : dependants x except s = [] := by
    refine List.eq_nil_iff_forall_not_mem.2 fun id hid => ?_
    obtain ⟨y, hy, -⟩ := mem_dependants.1 hid
    exact h y hy
  rw [breakChain, none]
  cases s.sets.length <;> rfl

theorem cancelSet_alone (h : ∀ y, ¬ DependsOn s except x y) : cancelSet x why except s = leftFirst x why s :=
  breakChain_alone fun y hy => h y (hy.of_subset (mem_leftFirst.1 hy.mem).1)

/-- R51: sets leave with a reason of their own, taken off the member lists. -/
def leaveFirst (why : ResultReason) (xs : List SealedSet) (s : State) : State :=
  xs.foldl (fun t x => leftFirst x why t) s

theorem leaveFirst_sets (xs : List SealedSet) (s : State) :
    (leaveFirst why xs s).sets = s.sets.filter fun y => !(xs.map (·.id)).contains y.id := by
  induction xs generalizing s with
  | nil => simp [leaveFirst]
  | cons x xs ih =>
    rw [leaveFirst, List.foldl_cons, ← leaveFirst, ih, leftFirst_sets, List.filter_filter]
    refine List.filter_congr fun z _ => ?_
    simp [Bool.and_comm]

/-- R52: what a set that is no member hands over as it leaves. -/
theorem leftFirst_notices {k : Session} (hk : s.session x.owner = some k) (hm : x.member = false) :
    (leftFirst x why s).notices = s.notices ++ [.itemsReturn x.owner x.items.length,
      .report .schedule (some (x.owner, k.incarnation)) (.setResult
        { setId := x.id, sealNo := x.sealNo, outcome := .cancelled, reason := some why
          pass := x.pass, parked := false, dueTime := x.dueTime, commitTime := none, lateness := none
          eventTime := s.clock.rig })] := by
  have pass : passOf x s = x.pass := by
    rw [passOf_eq]
    split <;> simp [hm]
  rw [leftFirst, (dropMember_parts ..).2.1, leaveSet_eq]
  show s.notices ++ _ ++ resultNotices x _ _ _ _ s = _
  rw [resultNotices, hk, List.append_assoc]
  simp [setResultOf, pass]

theorem leaveFirst_notices {k : Session} {n : SessionIx} (xs : List SealedSet) (s : State) (hk : s.session n = some k)
    (hx : ∀ x ∈ xs, x.owner = n ∧ x.member = false) : (leaveFirst why xs s).notices = s.notices ++
      xs.flatMap fun x => [.itemsReturn n x.items.length,
        .report .schedule (some (n, k.incarnation)) (.setResult
          { setId := x.id, sealNo := x.sealNo, outcome := .cancelled, reason := some why
            pass := x.pass, parked := false, dueTime := x.dueTime, commitTime := none, lateness := none
            eventTime := s.clock.rig })] := by
  induction xs generalizing s with
  | nil => simp [leaveFirst]
  | cons x xs ih =>
    obtain ⟨⟨rfl, member⟩, rest⟩ := List.forall_mem_cons.1 hx
    have later := later_leftFirst x why s
    rw [leaveFirst, List.foldl_cons, ← leaveFirst, ih _ (later.session _ ▸ hk) rest, leftFirst_notices hk member,
      later.clock, List.flatMap_cons, List.append_assoc]

/-- R53: sets that no other set waits for leave without a chain. -/
theorem foldl_cancelSet_alone (xs : List SealedSet) (s : State)
    (h : ∀ x ∈ xs, ∀ y, ¬ DependsOn s except x y) :
    xs.foldl (fun u x => cancelSet x why except u) s = leaveFirst why xs s := by
  induction xs generalizing s with
  | nil => rfl
  | cons x xs ih =>
    obtain ⟨alone, rest⟩ := List.forall_mem_cons.1 h
    rw [List.foldl_cons, cancelSet_alone alone, leaveFirst, List.foldl_cons, ← leaveFirst]
    exact ih _ fun z hz y hy => rest z hz y (hy.of_subset (mem_leftFirst.1 hy.mem).1)

end

section
variable {s : State} {n : SessionIx}

/-- R53: the sets that SET_CANCEL with id 0 names. -/
theorem mem_cancellable (hn : (s.sets.map (·.id)).Nodup) {x : SealedSet} (hx : x ∈ s.sets) :
    x.id ∈ cancellable n s ↔ x.owner = n ∧ x.member = false ∧ (x.state = .pending ∨ x.state = .due) := by
  have picked : x.id ∈ cancellable n s ↔ x ∈ s.sets.filter fun x => x.owner = n && !x.member &&
      (x.state = .pending || x.state = .due) := by
    refine ⟨fun h => ?_, fun h => List.mem_map_of_mem h⟩
    obtain ⟨y, hy, e⟩ := List.mem_map.1 h
    exact List.inj_on_of_nodup_map hn (List.mem_of_mem_filter hy) hx e ▸ hy
  rw [picked, List.mem_filter]
  simp [hx, and_assoc]

/-- R53: cancelled sets whose dependants are cancelled in their own name take no other set with them. -/
theorem cancelSets_cancellable (hn : (s.sets.map (·.id)).Nodup)
    (hd : ∀ y ∈ s.sets, y.owner = n → y.dueTime = none → (∃ p d, y.due = .after p d) → y.state = .pending ∧ y.member = false) :
    cancelSets (cancellable n s) .byRequest s =
      leaveFirst .byRequest (s.sets.filter fun x => x.id ∈ cancellable n s) s := by
  obtain ⟨order, -, -⟩ := foldl_cancelOne (reason := .byRequest) (cancellable n s) (hn.sublist (List.filter_sublist.map _)) s hn
    (shielded_except s _)
  have picked : (s.sets.filter fun x => x.owner = n && !x.member && (x.state = .pending || x.state = .due)) =
      s.sets.filter fun x => x.id ∈ cancellable n s := by
    refine List.filter_congr fun x hx => ?_
    rw [Bool.eq_iff_iff, decide_eq_true_eq, mem_cancellable hn hx]
    simp [and_assoc]
  have found : (cancellable n s).filterMap s.findSet = s.sets.filter fun x => x.id ∈ cancellable n s := by
    rw [← picked, cancellable, List.filterMap_map]
    refine (List.filterMap_congr fun x hx => ?_).trans List.filterMap_some
    exact findSet_of_mem hn (List.mem_of_mem_filter hx)
  have waiting : ∀ x ∈ s.sets.filter (fun x => x.id ∈ cancellable n s), x.waiting = true := fun x hx => by
    obtain ⟨mem, hi⟩ := List.mem_filter.1 hx
    obtain ⟨-, -, state⟩ := (mem_cancellable hn mem).1 (of_decide_eq_true hi)
    rw [waiting_iff]
    obtain e | e := state <;> rw [e] <;> exact nofun
  rw [cancelSets_eq, order, found, List.filter_eq_self.2 waiting]
  refine foldl_cancelSet_alone _ s fun x hx y hy => ?_
  obtain ⟨mem, hi⟩ := List.mem_filter.1 hx
  obtain ⟨owner, -, -⟩ := (mem_cancellable hn mem).1 (of_decide_eq_true hi)
  obtain ⟨hys, owner', unresolved, ⟨d, due⟩, new⟩ := hy
  obtain ⟨state, member⟩ := hd y hys (owner'.trans owner) unresolved ⟨_, d, due⟩
  exact new ((mem_cancellable hn hys).2 ⟨owner'.trans owner, member, .inl state⟩)

/-- R53: SET_CANCEL of one set of the session. -/
theorem setCancelBody_one {h : Header} {setId : Half} {x : SealedSet} (h0 : setId ≠ 0) (hx : s.findSet setId.toNat = some x)
    (ho : x.owner = n) : setCancelBody h setId n s =
      if x.state = .applying then refuse h (.setCancel setId) .tooLate s
      else if x.member then refuse h (.setCancel setId) .cycleState s
      else answer h (.setCancel setId) (doneWith (u8 1)) (queueChecks (cancelSet x .byRequest [] s)) := by
  simp only [setCancelBody, if_neg h0, hx, ho, ne_eq, not_true, if_false]

theorem setCancelBody_noSuchSet {h : Header} {setId : Half} (h0 : setId ≠ 0)
    (hx : ∀ x, s.findSet setId.toNat = some x → x.owner ≠ n) :
    setCancelBody h setId n s = refuse h (.setCancel setId) .noSuchSet s := by
  simp only [setCancelBody, h0, if_false]
  split
  · rfl
  · next x h => exact if_pos (hx x h)

/-! ### Halt entry -/

/-- R55: halt entry leaves only the APPLYING set. -/
theorem cancelForHalt_parts (hn : (s.sets.map (·.id)).Nodup) :
    (cancelForHalt s).sets = s.sets.filter (fun x => x.state = .applying) ∧
    ∀ x ∈ s.sets, x.state ≠ .applying → LeftAs (cancelForHalt s) x .halted := by
  have leaves : cancelForHalt s = queueChecks (leaveEach .halted (s.sets.filter SealedSet.waiting) s) := rfl
  refine ⟨?_, fun x hx hw => ?_⟩
  · rw [leaves, (queueChecks_kept _).1, leaveEach_sets, filter_notPicked hn]
    refine List.filter_congr fun x _ => ?_
    simp [SealedSet.waiting]
  · rw [leaves]
    exact (leftAs_leaveEach .halted _ s (List.mem_filter.2 ⟨hx, waiting_iff.2 hw⟩)).later (later_queueChecks _)

end

end Sys2Proof.Machine
end


section
/-! PROOFS. Sets that leave as roots of disjoint chains (O43): what is left of the Schedule after any of them. -/

namespace Sys2Proof.Machine

/-- The Schedule since `s`: the sets of `R` have left with the reasons it gives, each with its chain, and every other set
stands as `D` has made it. -/
structure Swept (s : State) (ids : List Nat) (u : State) (R : SealedSet → ResultReason → Prop)
    (D : SealedSet → SealedSet) : Prop where
  later : Later s u
  nodup : (u.sets.map (·.id)).Nodup
  root : ∀ x r, R x r → x ∈ s.sets ∧ ∀ w, ¬ DependsOn s ids w x
  id : ∀ y, (D y).id = y.id
  owner : ∀ y, (D y).owner = y.owner
  state : ∀ y, (D y).state = y.state
  waits : ∀ y, y.state ≠ .applying → D y = y
  follower : ∀ y ∈ s.sets, (∃ p d, y.due = .after p d) → D y = y
  due : ∀ y, (D y).due = y.due
  mem : ∀ z, z ∈ u.sets ↔ ∃ y ∈ s.sets, (∀ r, ¬ R y r) ∧ (∀ x r, R x r → ¬ InChain s ids x y) ∧ z = D y
  left : ∀ x r, R x r → LeftAs u x r
  chain : ∀ x r y, R x r → InChain s ids x y → LeftAs u y .chainBroken

section
variable {s u v : State} {ids : List Nat} {R R' : SealedSet → ResultReason → Prop} {D : SealedSet → SealedSet}
  {x y z w : SealedSet} {why : ResultReason}

theorem InChain.dependsOn (h : InChain s ids x y) : ∃ w, DependsOn s ids w y := by
  cases h with
  | single h => exact ⟨_, h⟩
  | tail _ h => exact ⟨_, h⟩

/-- Chains from sets that depend on none are disjoint. -/
theorem InChain.root_eq (hn : (s.sets.map (·.id)).Nodup) (hx : x ∈ s.sets) (hx' : ∀ v, ¬ DependsOn s ids v x)
    (hw : w ∈ s.sets) (hw' : ∀ v, ¬ DependsOn s ids v w) (h : InChain s ids x y) (h' : InChain s ids w y) : x = w := by
  have same {a b : SealedSet} (ha : a ∈ s.sets) (hb : b ∈ s.sets) (hay : DependsOn s ids a y) (hby : DependsOn s ids b y) :
      a = b := List.inj_on_of_nodup_map hn ha hb (hay.id_eq hby)
  induction h with
  | single h =>
    cases h' with
    | single h' => exact List.inj_on_of_nodup_map hn hx hw (h.id_eq h')
    | tail hv h' =>
      have e := List.inj_on_of_nodup_map hn hx (InChain.mem hv) (h.id_eq h')
      obtain ⟨v, hv⟩ := InChain.dependsOn hv
      exact absurd (e ▸ hv) (hx' v)
  | tail hv h ih =>
    cases h' with
    | single h' =>
      have e := List.inj_on_of_nodup_map hn (InChain.mem hv) hw (h.id_eq h')
      obtain ⟨v, hv⟩ := InChain.dependsOn hv
      exact absurd (e ▸ hv) (hw' v)
    | tail hv' h' =>
      have e := List.inj_on_of_nodup_map hn (InChain.mem hv) (InChain.mem hv') (h.id_eq h')
      exact ih (e ▸ hv') fun ha hb h1 h2 => List.inj_on_of_nodup_map hn ha hb (h1.id_eq h2)

namespace Swept

theorem start (hn : (s.sets.map (·.id)).Nodup) (ids : List Nat) : Swept s ids s (fun _ _ => False) (fun y => y) where
  later := .refl s
  nodup := hn
  root _ _ h := h.elim
  id _ := rfl
  owner _ := rfl
  state _ := rfl
  waits _ _ := rfl
  follower _ _ _ := rfl
  due _ := rfl
  mem z := by simp
  left _ _ h := h.elim
  chain _ _ _ h := h.elim

theorem congr (h : Swept s ids u R D) (e : ∀ y r, R y r ↔ R' y r) : Swept s ids u R' D := by
  have : R = R' := funext fun y => funext fun r => propext (e y r)
  exact this ▸ h

/-- What changes no set keeps what has left. -/
theorem settled (h : Swept s ids u R D) (hs : v.sets = u.sets) (hl : Later u v) : Swept s ids v R D :=
  { h with
    later := h.later.trans hl
    nodup := hs ▸ h.nodup
    mem := hs ▸ h.mem
    left := fun x r hr => (h.left x r hr).later hl
    chain := fun x r y hr hc => (h.chain x r y hr hc).later hl }

/-- A set that waits and that nothing has taken along still stands. -/
theorem stands (h : Swept s ids u R D) (hx : x ∈ s.sets) (hw : x.state ≠ .applying) (hroot : ∀ w, ¬ DependsOn s ids w x)
    (hr : ∀ r, ¬ R x r) : x ∈ u.sets :=
  (h.mem x).2 ⟨x, hx, hr, fun _ _ _ hc => have ⟨w, hd⟩ := hc.dependsOn; hroot w hd, (h.waits x hw).symm⟩

theorem dependsOn (h : Swept s ids u R D) (hd : DependsOn u ids x y) : DependsOn s ids x y := by
  obtain ⟨z, hz, -, -, rfl⟩ := (h.mem y).1 hd.mem
  obtain ⟨-, owner, unresolved, ⟨d, due⟩, new⟩ := hd
  have same : D z = z := h.follower z hz ⟨_, d, (h.due z).symm.trans due⟩
  rw [same] at owner unresolved due new ⊢
  exact ⟨hz, owner, unresolved, ⟨d, due⟩, new⟩

/-- The chain of a set that has not left is whole. -/
theorem inChain_iff (h : Swept s ids u R D) (hn : (s.sets.map (·.id)).Nodup) (hx : x ∈ s.sets)
    (hroot : ∀ w, ¬ DependsOn s ids w x) (hr : ∀ r, ¬ R x r) :
    InChain (leftFirst x why u) ids x y ↔ InChain s ids x y := by
  constructor
  · intro hc
    have step {a b : SealedSet} (hd : DependsOn (leftFirst x why u) ids a b) : DependsOn s ids a b :=
      h.dependsOn (hd.of_subset (mem_leftFirst.1 hd.mem).1)
    induction hc with
    | single hd => exact .single (step hd)
    | tail _ hd ih => exact .tail ih (step hd)
  · intro hc
    have there {b : SealedSet} (hb : InChain s ids x b) : b ∈ (leftFirst x why u).sets := by
      obtain ⟨w, hd⟩ := hb.dependsOn
      obtain ⟨d, due⟩ := hd.2.2.2.1
      refine mem_leftFirst.2 ⟨(h.mem b).2 ⟨b, hb.mem, fun r hR => (h.root b r hR).2 w hd, fun v r hR hv => ?_,
        (h.follower b hb.mem ⟨_, d, due⟩).symm⟩, fun e => ?_⟩
      · obtain ⟨mem, free⟩ := h.root v r hR
        exact hr r (InChain.root_eq hn hx hroot mem free hb hv ▸ hR)
      · exact hroot w (List.inj_on_of_nodup_map hn hb.mem hx e ▸ hd)
    induction hc with
    | single hd => exact .single (hd.of_subset (there (.single hd)))
    | tail hv hd ih => exact .tail ih (hd.of_subset (there (.tail hv hd)))

/-- R54: a root is cancelled with a reason of its own, and its chain is broken. -/
theorem cancel (h : Swept s ids u R D) (hn : (s.sets.map (·.id)).Nodup) (hx : x ∈ s.sets) (hw : x.state ≠ .applying)
    (hroot : ∀ w, ¬ DependsOn s ids w x) (hr : ∀ r, ¬ R x r) (why : ResultReason) :
    Swept s ids (cancelSet x why ids u) (fun y r => R y r ∨ y = x ∧ r = why) D := by
  have whole (y : SealedSet) : InChain (leftFirst x why u) ids x y ↔ InChain s ids x y := h.inChain_iff hn hx hroot hr
  have later := later_cancelSet x why ids u
  refine ⟨h.later.trans later, cancelSet_nodup h.nodup, ?_, h.id, h.owner, h.state, h.waits, h.follower, h.due, ?_, ?_, ?_⟩
  · rintro y r (hR | ⟨rfl, rfl⟩)
    · exact h.root y r hR
    · exact ⟨hx, hroot⟩
  · intro z
    rw [mem_cancelSet h.nodup, h.mem, whole]
    constructor
    · rintro ⟨⟨y, hy, hR, hc, rfl⟩, ne, alone⟩
      rw [h.id] at ne
      refine ⟨y, hy, fun r hR' => hR'.elim (hR r) fun e => ne (e.1 ▸ rfl), fun v r hR' hv => ?_, rfl⟩
      obtain hR' | ⟨rfl, -⟩ := hR'
      · exact hc v r hR' hv
      · obtain ⟨w, -, -, -, ⟨d, due⟩, -⟩ := hv.dependsOn
        exact alone ((h.follower y hy ⟨_, d, due⟩).symm ▸ hv)
    · rintro ⟨y, hy, hR, hc, rfl⟩
      refine ⟨⟨y, hy, fun r hR' => hR r (.inl hR'), fun v r hR' => hc v r (.inl hR'), rfl⟩, fun e => ?_, fun hv => ?_⟩
      · rw [h.id] at e
        exact hR why (.inr ⟨List.inj_on_of_nodup_map hn hy hx e, rfl⟩)
      · have same : D y = y := List.inj_on_of_nodup_map hn hv.mem hy (h.id y)
        exact hc x why (.inr ⟨rfl, rfl⟩) (same ▸ hv)
  · rintro y r (hR | ⟨rfl, rfl⟩)
    · exact (h.left y r hR).later later
    · exact leftAs_cancelSet ..
  · rintro y r z (hR | ⟨rfl, rfl⟩) hc
    · exact (h.chain y r z hR hc).later later
    · exact leftAs_chain h.nodup ((whole z).2 hc)

/-- R94, R96: the members of a cycle that wait are cancelled. -/
theorem stop (hn : (s.sets.map (·.id)).Nodup) (ms : List Nat)
    (hoff : ∀ y ∈ s.sets, y.id ∈ ms → ∀ w, ¬ DependsOn s ids w y) (h : Swept s ids u R D) :
    Swept s ids (ms.foldl (cancelOne .cycleStopped ids) u) (fun y r => R y r ∨
      r = .cycleStopped ∧ y ∈ s.sets ∧ y.state ≠ .applying ∧ y.id ∈ ms ∧ ∀ r, ¬ R y r) D := by
  induction ms generalizing u R with
  | nil => exact h.congr (by simp)
  | cons m ms ih =>
    have rest : ∀ y ∈ s.sets, y.id ∈ ms → ∀ w, ¬ DependsOn s ids w y := fun y hy hm => hoff y hy (.tail _ hm)
    by_cases hx : ∃ x, u.findSet m = some x ∧ x.waiting = true
    · obtain ⟨x, found, waiting⟩ := hx
      have one : cancelOne .cycleStopped ids u m = cancelSet x .cycleStopped ids u := by simp [cancelOne, found, waiting]
      obtain ⟨mem, rfl⟩ := mem_of_findSet found
      obtain ⟨y, hy, hR, -, rfl⟩ := (h.mem x).1 mem
      have hw : y.state ≠ .applying := h.state y ▸ waiting_iff.1 waiting
      rw [h.waits y hw] at one hoff ⊢
      rw [List.foldl_cons, one]
      refine (ih rest (h.cancel hn hy hw (hoff y hy (.head _)) hR .cycleStopped)).congr fun z r => ?_
      constructor
      · rintro ((hz | ⟨rfl, rfl⟩) | ⟨rfl, hz, hzw, hm, none⟩)
        · exact .inl hz
        · exact .inr ⟨rfl, hy, hw, .head _, hR⟩
        · exact .inr ⟨rfl, hz, hzw, .tail _ hm, fun r hr => none r (.inl hr)⟩
      · rintro (hz | ⟨rfl, hz, hzw, hm, none⟩)
        · exact .inl (.inl hz)
        · by_cases e : z = y
          · exact .inl (.inr ⟨e, rfl⟩)
          · have ne : z.id ≠ y.id := fun hi => e (List.inj_on_of_nodup_map hn hz hy hi)
            exact .inr ⟨rfl, hz, hzw, (List.mem_cons.1 hm).resolve_left ne,
              fun r hr => hr.elim (none r) fun h => e h.1⟩
    · have one : cancelOne .cycleStopped ids u m = u := by
        unfold cancelOne
        split
        · next x found => exact if_neg fun waiting => hx ⟨x, found, waiting⟩
        · rfl
      rw [List.foldl_cons, one]
      refine (ih rest h).congr fun z r => or_congr_right (and_congr_right fun _ => and_congr_right fun hz =>
        and_congr_right fun hzw => ⟨fun ⟨hm, free⟩ => ⟨.tail _ hm, free⟩, fun ⟨hm, free⟩ => ⟨?_, free⟩⟩)
      refine (List.mem_cons.1 hm).resolve_left fun e => hx ⟨z, ?_, waiting_iff.2 hzw⟩
      exact e ▸ findSet_of_mem h.nodup (h.stands hz hzw (hoff z hz hm) free)

/-- R94 step 2: what a detached member becomes. -/
def detachedIn (c : Cycle) (x : SealedSet) : SealedSet :=
  if x.id ∈ c.members ∧ x.state = .applying then { x with member := false, pass := c.begun } else x

theorem detach (h : Swept s ids u R D) (c : Cycle) (hoff : ∀ y ∈ s.sets, y.id ∈ c.members → ∃ v, y.due = .offset v) :
    Swept s ids (detachMembers c u) R (fun y => detachedIn c (D y)) := by
  have later : Later u (detachMembers c u) := (later_keptByMoves u).detachMembers c (.refl u)
  have fields (z : SealedSet) : (detachedIn c z).id = z.id ∧ (detachedIn c z).owner = z.owner ∧
      (detachedIn c z).state = z.state ∧ (detachedIn c z).due = z.due := by
    unfold detachedIn
    split <;> exact ⟨rfl, rfl, rfl, rfl⟩
  have sets : (detachMembers c u).sets = u.sets.map (detachedIn c) := by
    rw [detachMembers_eq]
    rfl
  refine ⟨h.later.trans later, ?_, h.root, fun y => (fields _).1.trans (h.id y), fun y => (fields _).2.1.trans (h.owner y),
    fun y => (fields _).2.2.1.trans (h.state y), fun y hy => ?_, fun y hy hd => ?_,
    fun y => (fields _).2.2.2.trans (h.due y), fun z => ?_,
    fun x r hr => (h.left x r hr).later later, fun x r y hr hc => (h.chain x r y hr hc).later later⟩
  · rw [sets, ids_map _ fun z => (fields z).1]
    exact h.nodup
  · rw [h.waits y hy]
    exact if_neg fun e => hy e.2
  · rw [h.follower y hy hd]
    refine if_neg fun e => ?_
    obtain ⟨p, d, due⟩ := hd
    obtain ⟨v, offset⟩ := hoff y hy e.1
    rw [due] at offset
    cases offset
  · rw [sets, List.mem_map]
    constructor
    · rintro ⟨w, hw, rfl⟩
      obtain ⟨y, hy, hR, hc, rfl⟩ := (h.mem w).1 hw
      exact ⟨y, hy, hR, hc, rfl⟩
    · rintro ⟨y, hy, hR, hc, rfl⟩
      exact ⟨D y, (h.mem _).2 ⟨y, hy, hR, hc, rfl⟩, rfl⟩

end Swept

end

end Sys2Proof.Machine
end


section
/-! PROOFS. Lost channels at the Schedule, and what cancels sets (O43). -/

namespace Sys2Proof.Machine

/-! ### The cycles of cancelled sets -/

section
variable {s u : State} {n : SessionIx}

theorem cycle_sessionReport (line : ReportLine) (m : SessionIx) (r : Report) (s : State) :
    (sessionReport line m r s).cycle n = s.cycle n := by
  unfold sessionReport
  split <;> rfl

theorem cycle_leaveSet (x : SealedSet) (o : SetOutcome) (r : Option ResultReason) (c : Option Nat) (s : State) :
    (leaveSet x o r c s).cycle n = s.cycle n := cycle_sessionReport ..

theorem cycle_leaveEach (why : ResultReason) (ys : List SealedSet) (s : State) :
    (leaveEach why ys s).cycle n = s.cycle n := by
  induction ys generalizing s with
  | nil => rfl
  | cons y ys ih => exact (ih _).trans (cycle_leaveSet ..)

/-- R92: a cancelled set is taken off its owner's member list, and no other list changes. -/
theorem cycle_cancelSet (hn : (s.sets.map (·.id)).Nodup) (x : SealedSet) (why : ResultReason) (except : List Nat) :
    (cancelSet x why except s).cycle n = (leftFirst x why s).cycle n := by
  obtain ⟨broken, -, run⟩ := breakChain_walk (leftFirst_nodup (x := x) (reason := why) hn) (leftFirst_unfollowing x why s) except
  rw [cancelSet_eq, run, cycle_leaveEach]

theorem cycle_leftFirst_other {x : SealedSet} (h : n ≠ x.owner) (why : ResultReason) :
    (leftFirst x why s).cycle n = s.cycle n := by
  rw [leftFirst, (dropMember_parts ..).2.2 n h, cycle_leaveSet]

theorem cycle_leftFirst_notMember {x : SealedSet} (h : ∀ c, s.cycle x.owner = some c → x.id ∉ c.members)
    (why : ResultReason) : (leftFirst x why s).cycle n = s.cycle n := by
  have same : (leaveSet x .cancelled (some why) none s).cycle x.owner = s.cycle x.owner := cycle_leaveSet ..
  rw [leftFirst]
  cases hc : s.cycle x.owner with
  | none => rw [dropMember_none (same.trans hc), cycle_leaveSet]
  | some c =>
    rw [dropMember_some (same.trans hc), List.erase_of_not_mem (h c hc), State.cycle_withCycle, cycle_leaveSet]
    split
    · next e => rw [← e, hc]
    · rfl

/-- R94: stopped members are those of one session. -/
theorem cycle_foldl_cancelOne {why : ResultReason} {except : List Nat} (ms : List Nat) (s : State)
    (hn : (s.sets.map (·.id)).Nodup) (hm : ∀ z ∈ s.sets, z.id ∈ ms → z.owner ≠ n) :
    (ms.foldl (cancelOne why except) s).cycle n = s.cycle n := by
  induction ms generalizing s with
  | nil => rfl
  | cons m ms ih =>
    have rest : ∀ z ∈ s.sets, z.id ∈ ms → z.owner ≠ n := fun z hz h => hm z hz (.tail _ h)
    rw [List.foldl_cons]
    unfold cancelOne
    split
    · next x found =>
      split
      · obtain ⟨mem, rfl⟩ := mem_of_findSet found
        refine (ih _ (cancelSet_nodup hn) fun z hz => rest z (cancelSet_subset hn hz)).trans ?_
        rw [cycle_cancelSet hn, cycle_leftFirst_other (hm x mem (.head _)).symm]
      · exact ih s hn rest
    · exact ih s hn rest

end

/-! ### Lost channels -/

section
variable (s : State) (direct : SealedSet → Bool)

/-- R54, R94: of the lost sets of a cycle, the first ends it; a set that is no member of its session's cycle ends none. -/
def FirstLost (x : SealedSet) : Prop := ∀ c, s.cycle x.owner = some c → x.id ∈ c.members →
  (s.sets.find? fun y => direct y && decide (y.id ∈ c.members)) = some x

/-- R94: one of some lost sets has ended the session's cycle. -/
def EndedBy (P : List SealedSet) (n : SessionIx) : Prop :=
  ∃ x ∈ P, FirstLost s direct x ∧ ∃ c, s.cycle n = some c ∧ x.id ∈ c.members

/-- The set is a member of its session's cycle. -/
def InCycle (x : SealedSet) : Prop := ∃ c, s.cycle x.owner = some c ∧ x.id ∈ c.members

/-- R54, R94: the sets that leave with a reason of their own once the lost sets of `P` have been taken. -/
def LeavesFor (why : ResultReason) (P : List SealedSet) (y : SealedSet) (r : ResultReason) : Prop :=
  r = why ∧ y ∈ P ∧ FirstLost s direct y ∨
  r = .cycleStopped ∧ y ∈ s.sets ∧ y.state ≠ .applying ∧ ¬ FirstLost s direct y ∧ EndedBy s direct P y.owner ∧ InCycle s y

/-- R54, R94: the Schedule once the lost sets of `P` have been taken. -/
structure SweptLost (why : ResultReason) (P : List SealedSet) (u : State) (D : SealedSet → SealedSet) : Prop where
  swept : Swept s ((s.sets.filter direct).map (·.id)) u (LeavesFor s direct why P) D
  detached : ∀ y ∈ s.sets, ∀ c, s.cycle y.owner = some c → y.id ∈ c.members → y.state = .applying →
    EndedBy s direct P y.owner → D y = { y with member := false, pass := c.begun }
  kept : ∀ y ∈ s.sets, ¬ (EndedBy s direct P y.owner ∧ InCycle s y) → D y = y
  ended : ∀ n, EndedBy s direct P n → u.cycle n = none
  open_ : ∀ n, ¬ EndedBy s direct P n → u.cycle n = s.cycle n
  told : ∀ x ∈ P, FirstLost s direct x → ∀ c, s.cycle x.owner = some c → x.id ∈ c.members →
    ∀ k, s.session x.owner = some k → .report .schedule (some (x.owner, k.incarnation))
      (cycleChangeOf c .memberCancelled (some (x.id, why)) s.clock.rig) ∈ u.notices

/-- Every member list is without repeats and names sets of the session that are due by an offset. -/
def MembersSound : Prop := ∀ n c, s.cycle n = some c → c.members.Nodup ∧ ∀ y ∈ s.sets, y.id ∈ c.members →
  y.owner = n ∧ y.member = true ∧ ∃ v, y.due = .offset v

end

section
variable {s u : State} {direct : SealedSet → Bool} {why : ResultReason} {P rest : List SealedSet} {x y : SealedSet}
  {c : Cycle} {n : SessionIx} {D : SealedSet → SealedSet}

theorem EndedBy.mono {Q : List SealedSet} (hs : ∀ z ∈ P, z ∈ Q) (h : EndedBy s direct P n) : EndedBy s direct Q n := by
  obtain ⟨x, hx, first, c⟩ := h
  exact ⟨x, hs x hx, first, c⟩

theorem endedBy_append : EndedBy s direct (P ++ [x]) n ↔ EndedBy s direct P n ∨
    FirstLost s direct x ∧ ∃ c, s.cycle n = some c ∧ x.id ∈ c.members := by
  simp [EndedBy, or_and_right, exists_or]

theorem MembersSound.free (hc : MembersSound s) (hy : y ∈ s.sets) (hm : InCycle s y) (ids : List Nat) (w : SealedSet) :
    ¬ DependsOn s ids w y := by
  rintro ⟨-, -, -, ⟨d, due⟩, -⟩
  obtain ⟨c, hcy, hi⟩ := hm
  obtain ⟨-, -, v, offset⟩ := (hc _ c hcy).2 y hy hi
  rw [due] at offset
  cases offset

theorem free_of_direct (hy : y ∈ s.sets.filter direct) (w : SealedSet) :
    ¬ DependsOn s ((s.sets.filter direct).map (·.id)) w y := fun hd => hd.2.2.2.2 (List.mem_map_of_mem hy)

theorem SweptLost.start (hn : (s.sets.map (·.id)).Nodup) : SweptLost s direct why [] s (fun y => y) where
  swept := (Swept.start hn _).congr fun y r => by simp [LeavesFor, EndedBy]
  detached y _ c _ _ _ h := by simp [EndedBy] at h
  kept _ _ _ := rfl
  ended n h := by simp [EndedBy] at h
  open_ _ _ := rfl
  told x hx := absurd hx List.not_mem_nil

/-- The cycle's first lost set comes before its others. -/
theorem exists_firstLost (hc : MembersSound s) (hn : (s.sets.map (·.id)).Nodup)
    (hP : s.sets.filter direct = P ++ x :: rest) (hx : ¬ FirstLost s direct x) :
    EndedBy s direct P x.owner ∧ InCycle s x := by
  simp only [FirstLost, not_forall] at hx
  obtain ⟨c, hcy, hi, other⟩ := hx
  have found : (s.sets.find? fun y => direct y && decide (y.id ∈ c.members)) =
      (P ++ x :: rest).find? fun y => decide (y.id ∈ c.members) := by
    rw [← hP, List.find?_filter]
    simp only [Bool.decide_and, Bool.decide_eq_true]
  rw [found, List.find?_append] at other
  have mem {z : SealedSet} (hz : z ∈ P ++ x :: rest) : z ∈ s.sets := List.mem_of_mem_filter (hP ▸ hz)
  cases hf : P.find? (fun y => decide (y.id ∈ c.members)) with
  | none => simp [hf, hi] at other
  | some z =>
    have hz : z ∈ P := List.mem_of_find?_eq_some hf
    have hzi : z.id ∈ c.members := by simpa using List.find?_some hf
    obtain ⟨owner, -⟩ := (hc _ c hcy).2 z (mem (List.mem_append_left _ hz)) hzi
    refine ⟨⟨z, hz, fun c' hcy' _ => ?_, c, hcy, hzi⟩, c, hcy, hi⟩
    rw [owner, hcy] at hcy'
    obtain rfl := Option.some.inj hcy'
    rw [found, List.find?_append, hf]
    rfl

theorem not_mem_of_split (hn : (s.sets.map (·.id)).Nodup) (hP : s.sets.filter direct = P ++ x :: rest) : x ∉ P := fun hm => by
  have nodup : (P ++ x :: rest).Nodup := hP ▸ (List.Nodup.of_map _ hn).filter _
  exact List.disjoint_of_nodup_append nodup hm (.head _)

theorem MembersSound.owner (hc : MembersSound s) (hx : x ∈ s.sets) (hcy : s.cycle n = some c) (hi : x.id ∈ c.members) :
    x.owner = n := ((hc n c hcy).2 x hx hi).1

/-- R54: a lost set that still stands is cancelled. -/
theorem cancelLost_stands {ids : List Nat} (hn : (u.sets.map (·.id)).Nodup) (hx : x ∈ u.sets) :
    cancelLost why ids x.id u = match u.cycleOf x with
      | some c => endCycleEarly x.owner c .memberCancelled x.id why ids (cancelSet x why ids u)
      | none => cancelSet x why ids u := by
  simp only [cancelLost, findSet_of_mem hn hx] <;> rfl

theorem cancelLost_gone {ids : List Nat} {id : Nat} (h : ∀ z ∈ u.sets, z.id ≠ id) : cancelLost why ids id u = u := by
  simp only [cancelLost, findSet_eq_none h]

/-- R54: a lost set that is no member leaves, and its chain is broken. -/
theorem SweptLost.alone (h : SweptLost s direct why P u D) (hn : (s.sets.map (·.id)).Nodup) (hc : MembersSound s)
    (hdir : ∀ y, direct y = true → y.state ≠ .applying) (hP : s.sets.filter direct = P ++ x :: rest)
    (hx : ¬ InCycle s x) :
    SweptLost s direct why (P ++ [x]) (cancelLost why ((s.sets.filter direct).map (·.id)) x.id u) D := by
  have hxd : x ∈ s.sets.filter direct := hP ▸ List.mem_append_right _ (.head _)
  obtain ⟨mem, lost⟩ := List.mem_filter.1 hxd
  have first : FirstLost s direct x := fun c hcy hi => absurd ⟨c, hcy, hi⟩ hx
  have fresh : x ∉ P := not_mem_of_split hn hP
  have there : ∀ r, ¬ LeavesFor s direct why P x r := by
    rintro r (⟨-, hm, -⟩ | ⟨-, -, -, -, -, hm⟩)
    · exact fresh hm
    · exact hx hm
  have ended (n : SessionIx) : EndedBy s direct (P ++ [x]) n ↔ EndedBy s direct P n :=
    endedBy_append.trans (or_iff_left fun ⟨_, c, hcy, hi⟩ => hx ⟨c, hc.owner mem hcy hi ▸ hcy, hi⟩)
  have unlisted (c : Cycle) (hcy : u.cycle x.owner = some c) : x.id ∉ c.members := fun hi => by
    by_cases e : EndedBy s direct P x.owner
    · rw [h.ended _ e] at hcy
      cases hcy
    · exact hx ⟨c, h.open_ _ e ▸ hcy, hi⟩
  have stands : x ∈ u.sets := h.swept.stands mem (hdir x lost) (free_of_direct hxd) there
  have noCycle : u.cycleOf x = none := Option.eq_none_iff_forall_ne_some.2 fun c hcy => by
    obtain ⟨hcy, -, hi⟩ := cycleOf_eq_some.1 hcy
    exact unlisted c hcy hi
  have run := cancelLost_stands (why := why) (ids := (s.sets.filter direct).map (·.id)) h.swept.nodup stands
  rw [noCycle] at run
  have cycles (n : SessionIx) : (cancelLost why ((s.sets.filter direct).map (·.id)) x.id u).cycle n = u.cycle n := by
    rw [run]
    exact (cycle_cancelSet h.swept.nodup x why _).trans (cycle_leftFirst_notMember unlisted why)
  refine ⟨?_, fun y hy c hcy hi ha he => h.detached y hy c hcy hi ha ((ended _).1 he),
    fun y hy hne => h.kept y hy fun e => hne ⟨(ended _).2 e.1, e.2⟩, fun n he => (cycles n).trans (h.ended n ((ended n).1 he)),
    fun n he => (cycles n).trans (h.open_ n (mt (ended n).2 he)), fun y hy hf c hcy hi k hk => ?_⟩
  · rw [run]
    refine (h.swept.cancel hn mem (hdir x lost) (free_of_direct hxd) there why).congr fun y r => ?_
    simp only [LeavesFor, ended, List.mem_append, List.mem_singleton]
    constructor
    · rintro ((⟨rfl, hy, hf⟩ | hy) | ⟨rfl, rfl⟩)
      · exact .inl ⟨rfl, .inl hy, hf⟩
      · exact .inr hy
      · exact .inl ⟨rfl, .inr rfl, first⟩
    · rintro (⟨rfl, hy | rfl, hf⟩ | hy)
      · exact .inl (.inl ⟨rfl, hy, hf⟩)
      · exact .inr ⟨rfl, rfl⟩
      · exact .inl (.inr hy)
  · rw [run]
    obtain hy | hy := List.mem_append.1 hy
    · exact (later_cancelSet ..).told _ (h.told y hy hf c hcy hi k hk)
    · exact absurd ⟨c, List.mem_singleton.1 hy ▸ hcy, List.mem_singleton.1 hy ▸ hi⟩ hx

/-- R94: a later lost set of a cycle has left as its cycle ended. -/
theorem SweptLost.skip (h : SweptLost s direct why P u D) (hn : (s.sets.map (·.id)).Nodup) (hc : MembersSound s)
    (hdir : ∀ y, direct y = true → y.state ≠ .applying) (hP : s.sets.filter direct = P ++ x :: rest)
    (hx : ¬ FirstLost s direct x) :
    SweptLost s direct why (P ++ [x]) (cancelLost why ((s.sets.filter direct).map (·.id)) x.id u) D := by
  have hxd : x ∈ s.sets.filter direct := hP ▸ List.mem_append_right _ (.head _)
  obtain ⟨mem, lost⟩ := List.mem_filter.1 hxd
  obtain ⟨before, inCycle⟩ := exists_firstLost hc hn hP hx
  obtain ⟨gone, -⟩ := h.swept.left x .cycleStopped (.inr ⟨rfl, mem, hdir x lost, hx, before, inCycle⟩)
  rw [cancelLost_gone gone]
  have ended (n : SessionIx) : EndedBy s direct (P ++ [x]) n ↔ EndedBy s direct P n :=
    endedBy_append.trans (or_iff_left fun h => hx h.1)
  refine ⟨h.swept.congr fun y r => ?_, fun y hy c hcy hi ha he => h.detached y hy c hcy hi ha ((ended _).1 he),
    fun y hy hne => h.kept y hy fun e => hne ⟨(ended _).2 e.1, e.2⟩, fun n he => h.ended n ((ended n).1 he),
    fun n he => h.open_ n (mt (ended n).2 he), fun y hy hf => ?_⟩
  · simp only [LeavesFor, ended, List.mem_append, List.mem_singleton]
    refine or_congr_left (and_congr_right fun _ => ?_)
    exact ⟨fun ⟨hy, hf⟩ => ⟨.inl hy, hf⟩, fun ⟨hy, hf⟩ => ⟨hy.resolve_right fun e => hx (e ▸ hf), hf⟩⟩
  · obtain hy | hy := List.mem_append.1 hy
    · exact h.told y hy hf
    · exact absurd (List.mem_singleton.1 hy ▸ hf) hx

/-- R94: the first lost set of a cycle leaves and ends it. -/
theorem SweptLost.ends (h : SweptLost s direct why P u D) (hn : (s.sets.map (·.id)).Nodup) (hc : MembersSound s)
    (hdir : ∀ y, direct y = true → y.state ≠ .applying) (hP : s.sets.filter direct = P ++ x :: rest)
    (hx : FirstLost s direct x) (hcx : s.cycle x.owner = some c) (hi : x.id ∈ c.members) :
    SweptLost s direct why (P ++ [x]) (cancelLost why ((s.sets.filter direct).map (·.id)) x.id u)
      (fun y => Swept.detachedIn c (D y)) := by
  let ids := (s.sets.filter direct).map (·.id)
  have hxd : x ∈ s.sets.filter direct := hP ▸ List.mem_append_right _ (.head _)
  obtain ⟨mem, lost⟩ := List.mem_filter.1 hxd
  have fresh : x ∉ P := not_mem_of_split hn hP
  have inP {z : SealedSet} (hz : z ∈ P) : z ∈ s.sets := List.mem_of_mem_filter (hP ▸ List.mem_append_left _ hz)
  have members {z : SealedSet} (hz : z ∈ s.sets) (hzi : z.id ∈ c.members) : z.owner = x.owner := hc.owner hz hcx hzi
  have running : ¬ EndedBy s direct P x.owner := by
    rintro ⟨z, hz, first, c', hcy, hzi⟩
    obtain rfl := Option.some.inj (hcx.symm.trans hcy)
    have same := first c (members (inP hz) hzi ▸ hcx) hzi
    rw [hx c hcx hi] at same
    exact fresh (Option.some.inj same ▸ hz)
  have there : ∀ r, ¬ LeavesFor s direct why P x r := by
    rintro r (⟨-, hm, -⟩ | ⟨-, -, -, hf, -, -⟩)
    · exact fresh hm
    · exact hf hx
  have ended (n : SessionIx) : EndedBy s direct (P ++ [x]) n ↔ EndedBy s direct P n ∨ n = x.owner := by
    refine endedBy_append.trans (or_congr_right ⟨fun ⟨_, c', hcy, hi'⟩ => (hc.owner mem hcy hi').symm, fun e => ?_⟩)
    exact e ▸ ⟨hx, c, hcx, hi⟩
  have stands : x ∈ u.sets := h.swept.stands mem (hdir x lost) (free_of_direct hxd) there
  have cycle : u.cycleOf x = some c :=
    cycleOf_eq_some.2 ⟨(h.open_ _ running).trans hcx, ((hc _ c hcx).2 x mem hi).2.1, hi⟩
  let t1 := cancelSet x why ids u
  let t2 := stopMembers c ids t1
  let t3 := detachMembers c t2
  have run : cancelLost why ids x.id u = closeCycle .schedule x.owner c .memberCancelled (some (x.id, why)) t3 := by
    rw [cancelLost_stands h.swept.nodup stands, cycle]
    rfl
  have free (y : SealedSet) (hy : y ∈ s.sets) (hyi : y.id ∈ c.members) : ∀ w, ¬ DependsOn s ids w y :=
    hc.free hy ⟨c, (members hy hyi).symm ▸ hcx, hyi⟩ ids
  have offset (y : SealedSet) (hy : y ∈ s.sets) (hyi : y.id ∈ c.members) : ∃ v, y.due = .offset v :=
    ((hc _ c hcx).2 y hy hyi).2.2
  have swept1 := h.swept.cancel hn mem (hdir x lost) (free_of_direct hxd) there why
  have swept3 := (Swept.stop hn c.members free swept1).detach c offset
  have closes : Later t3 (closeCycle .schedule x.owner c .memberCancelled (some (x.id, why)) t3) :=
    (later_keptByMoves t3).closeCycle _ _ _ _ _ (.refl t3)
  have later3 : Later u t3 := (later_cancelSet x why ids u).trans
    (((later_keptByMoves _).stopMembers c ids (.refl _)).trans ((later_keptByMoves _).detachMembers c (.refl _)))
  have cycles (n : SessionIx) (hne : n ≠ x.owner) : t3.cycle n = u.cycle n := by
    have stopped : t2.cycle n = t1.cycle n := cycle_foldl_cancelOne c.members t1 swept1.nodup fun z hz hzi => by
      obtain ⟨y, hy, -, -, rfl⟩ := (swept1.mem z).1 hz
      rw [swept1.id] at hzi
      rw [swept1.owner, members hy hzi]
      exact hne.symm
    exact stopped.trans ((cycle_cancelSet h.swept.nodup x why ids).trans (cycle_leftFirst_other hne why))
  have closed (n : SessionIx) : (closeCycle .schedule x.owner c .memberCancelled (some (x.id, why)) t3).cycle n =
      if x.owner = n then none else t3.cycle n := (cycle_sessionReport ..).trans (State.cycle_withCycle ..)
  rw [run]
  refine ⟨?_, fun y hy c' hcy hyi ha he => ?_, fun y hy hne => ?_, fun n he => ?_, fun n he => ?_, fun y hy hf c' hcy hyi k hk => ?_⟩
  · have sets : (closeCycle .schedule x.owner c .memberCancelled (some (x.id, why)) t3).sets = t3.sets := sets_sessionReport ..
    refine (Swept.settled (u := t3) swept3 sets closes).congr fun y r => ?_
    simp only [LeavesFor, List.mem_append, List.mem_singleton, ended]
    constructor
    · rintro (((⟨rfl, hy, hf⟩ | ⟨rfl, hy, hw, hf, he, hm⟩) | ⟨rfl, rfl⟩) | ⟨rfl, hy, hw, hyi, free⟩)
      · exact .inl ⟨rfl, .inl hy, hf⟩
      · exact .inr ⟨rfl, hy, hw, hf, .inl he, hm⟩
      · exact .inl ⟨rfl, .inr rfl, hx⟩
      · have owner := members hy hyi
        refine .inr ⟨rfl, hy, hw, fun hf => ?_, .inr owner, c, owner.symm ▸ hcx, hyi⟩
        have same := hf c (owner.symm ▸ hcx) hyi
        rw [hx c hcx hi] at same
        exact free why (.inr ⟨(Option.some.inj same).symm, rfl⟩)
    · rintro (⟨rfl, hy | rfl, hf⟩ | ⟨rfl, hy, hw, hf, he, c', hcy, hyi⟩)
      · exact .inl (.inl (.inl ⟨rfl, hy, hf⟩))
      · exact .inl (.inr ⟨rfl, rfl⟩)
      · by_cases e : EndedBy s direct P y.owner
        · exact .inl (.inl (.inr ⟨rfl, hy, hw, hf, e, c', hcy, hyi⟩))
        · have owner : y.owner = x.owner := he.resolve_left e
          have hcx' : s.cycle y.owner = some c := owner.symm ▸ hcx
          have same : c = c' := Option.some.inj (hcx'.symm.trans hcy)
          refine .inr ⟨rfl, hy, hw, same ▸ hyi, ?_⟩
          rintro r ((⟨-, -, first⟩ | ⟨-, -, -, -, he', -⟩) | ⟨rfl, -⟩)
          · exact hf first
          · exact e he'
          · exact hf hx
  · by_cases e : y.owner = x.owner
    · have hcx' : s.cycle y.owner = some c := e.symm ▸ hcx
      have same : c = c' := Option.some.inj (hcx'.symm.trans hcy)
      rw [h.kept y hy fun ⟨he', _⟩ => running (e ▸ he'), same]
      exact if_pos ⟨hyi, ha⟩
    · rw [h.detached y hy c' hcy hyi ha (((ended _).1 he).resolve_right e)]
      exact if_neg fun hm => e (members hy hm.1)
  · rw [h.kept y hy fun ⟨he, hm⟩ => hne ⟨(ended _).2 (.inl he), hm⟩]
    refine if_neg fun hm : y.id ∈ c.members ∧ y.state = .applying =>
      hne ⟨(ended _).2 (.inr (members hy hm.1)), c, (members hy hm.1).symm ▸ hcx, hm.1⟩
  · rw [closed]
    split
    · rfl
    · next hne => exact (cycles n (Ne.symm hne)).trans (h.ended n (((ended n).1 he).resolve_right (Ne.symm hne)))
  · rw [ended, not_or] at he
    rw [closed, if_neg (Ne.symm he.2), cycles n he.2, h.open_ n he.1]
  · obtain hy | hy := List.mem_append.1 hy
    · exact closes.told _ (later3.told _ (h.told y hy hf c' hcy hyi k hk))
    · obtain rfl := List.mem_singleton.1 hy
      obtain rfl := Option.some.inj (hcx.symm.trans hcy)
      have later : Later s t3 := h.swept.later.trans later3
      rw [closeCycle_open ((later.session _).trans hk), later.clock]
      exact List.mem_append_right _ (.head _)

/-- R54: all the lost sets, one after the other. -/
theorem SweptLost.sweep (hn : (s.sets.map (·.id)).Nodup) (hc : MembersSound s)
    (hdir : ∀ y, direct y = true → y.state ≠ .applying) (P rest : List SealedSet) (u : State) (D : SealedSet → SealedSet)
    (hP : s.sets.filter direct = P ++ rest) (h : SweptLost s direct why P u D) :
    ∃ D', SweptLost s direct why (s.sets.filter direct) ((rest.map (·.id)).foldl
      (fun t id => cancelLost why ((s.sets.filter direct).map (·.id)) id t) u) D' := by
  induction rest generalizing P u D with
  | nil =>
    rw [List.append_nil] at hP
    exact ⟨D, hP ▸ h⟩
  | cons x rest ih =>
    have next {D' : SealedSet → SealedSet} (h' : SweptLost s direct why (P ++ [x])
        (cancelLost why ((s.sets.filter direct).map (·.id)) x.id u) D') := ih (P ++ [x]) _ D' (by simp [hP]) h'
    by_cases hf : FirstLost s direct x
    · by_cases hm : InCycle s x
      · obtain ⟨c, hcy, hi⟩ := hm
        exact next (h.ends hn hc hdir hP hf hcy hi)
      · exact next (h.alone hn hc hdir hP hm)
    · exact next (h.skip hn hc hdir hP hf)

end

/-! ### The obligation -/

/-- R54: the sets of the former owners that write a lost channel. -/
def writesLost (lost : List LostChannel) (x : SealedSet) : Bool :=
  x.state ≠ .applying && x.items.any fun i => lost.contains ⟨i.channel, x.owner⟩

theorem cancelLostAll_eq (why : ResultReason) (lost : List LostChannel) (s : State) : cancelLostAll why lost s =
    queueChecks (((s.sets.filter (writesLost lost)).map (·.id)).foldl
      (fun t id => cancelLost why ((s.sets.filter (writesLost lost)).map (·.id)) id t) s) := by
  have picked : (s.sets.filter fun x =>
      x.waiting && x.writesAny ((lost.filter fun l => l.owner = x.owner).map (·.channel))) = s.sets.filter (writesLost lost) := by
    refine List.filter_congr fun x _ => congrArg₂ _ rfl ?_
    rw [SealedSet.writesAny]
    refine congrArg (List.any x.items) (funext fun i => ?_)
    rw [Bool.eq_iff_iff, List.contains_iff_mem, List.contains_iff_mem, List.mem_map]
    simp only [List.mem_filter, decide_eq_true_eq]
    exact ⟨fun ⟨l, ⟨hl, ho⟩, hi⟩ => by rwa [← hi, ← ho], fun h => ⟨_, ⟨h, rfl⟩, rfl⟩⟩
  simp only [cancelLostAll, picked]

/-- Settles O43: the request by its table, the lost channels by their sweep, halt entry by its parts. -/
theorem setsAreCancelled : Obligations.SetsAreCancelled := by
  refine ⟨fun h setId n s a => ?_, fun lost s hh => congrArg Host.Outcome.next (onNotice_some hh rfl),
    fun why lost s hn hc => ?_, fun time s hh hn => ?_⟩
  · intro r
    refine ⟨fun h0 => ?_, fun h0 hx => serve_eq a (setCancelBody_noSuchSet h0 hx), fun x h0 hx ho => ?_⟩
    · intro ids
      refine ⟨serve_eq a (if_pos h0), fun hn hd => ?_⟩
      intro t
      have ht : t = leaveFirst .byRequest (s.sets.filter fun x => x.id ∈ ids) s := cancelSets_cancellable hn hd
      refine ⟨(only_cancelSets (by simp) (by simp) (by simp) ids .byRequest).2 (.refl _ s), ?_, fun k hk => ?_⟩
      · rw [ht, leaveFirst_sets, filter_notPicked hn]
        exact List.filter_congr fun x _ => by simp
      · rw [ht]
        refine leaveFirst_notices _ s hk fun x hx => ?_
        obtain ⟨mem, hi⟩ := List.mem_filter.1 hx
        obtain ⟨owner, member, -⟩ := (mem_cancellable hn mem).1 (of_decide_eq_true hi)
        exact ⟨owner, member⟩
    · have body := setCancelBody_one (h := h) h0 hx ho
      refine ⟨fun ha => serve_eq a (body.trans (if_pos ha)), fun ha hm => ?_, fun ha hm => ?_⟩
      · exact serve_eq a (body.trans ((if_neg ha).trans (if_pos hm)))
      · refine serve_eq a (body.trans ((if_neg ha).trans ((if_neg (Bool.eq_false_iff.1 hm)).trans ?_)))
        subst ho
        rfl
  · intro t direct ids left hit
    have sound : MembersSound s := hc
    have hdir (y : SealedSet) (hy : writesLost lost y = true) : y.state ≠ .applying := by
      simpa using (Bool.and_eq_true_iff.1 hy).1
    obtain ⟨D, sweep⟩ := SweptLost.sweep (why := why) hn sound hdir [] _ s _ rfl (.start hn)
    let v := ((s.sets.filter direct).map (·.id)).foldl (fun t id => cancelLost why ids id t) s
    have ht : t = queueChecks v := cancelLostAll_eq why lost s
    have swept : Swept s ids t (LeavesFor s direct why (s.sets.filter direct)) D := by
      rw [ht]
      exact sweep.swept.settled (queueChecks_kept v).1 (later_queueChecks v)
    have cycles (n : SessionIx) : t.cycle n = v.cycle n := by
      rw [ht]
      exact (queueChecks_kept v).2.2.2.2 n
    have gone {x : SealedSet} {r : ResultReason} (h : LeftAs t x r) : left x r := by
      obtain ⟨off, items, result⟩ := h
      exact ⟨off, items, fun k hk => result k ((swept.later.session _).trans hk)⟩
    have hit_mem {c : Cycle} {x : SealedSet} (h : hit c x) : x ∈ s.sets.filter direct ∧ FirstLost s direct x := by
      obtain ⟨hcy, -, first⟩ := h
      have found := List.find?_some first
      refine ⟨List.mem_filter.2 ⟨List.mem_of_find?_eq_some first, (Bool.and_eq_true_iff.1 found).1⟩, fun c' hcy' _ => ?_⟩
      obtain rfl := Option.some.inj (hcy.symm.trans hcy')
      exact first
    have hit_ended {c : Cycle} {x : SealedSet} (h : hit c x) : EndedBy s direct (s.sets.filter direct) x.owner :=
      ⟨x, (hit_mem h).1, (hit_mem h).2, c, h.1, h.2.1⟩
    have ended_hit {n : SessionIx} (h : EndedBy s direct (s.sets.filter direct) n) : ∃ c z, hit c z ∧ s.cycle n = some c := by
      obtain ⟨z, hz, first, c, hcy, hi⟩ := h
      have owner := sound.owner (List.mem_of_mem_filter hz) hcy hi
      have hcz : s.cycle z.owner = some c := owner.symm ▸ hcy
      exact ⟨c, z, ⟨hcz, hi, first c hcz hi⟩, hcy⟩
    have leaves {x : SealedSet} (hx : x ∈ s.sets)
        (h : direct x = true ∨ ∃ c z, hit c z ∧ x.id ∈ c.members ∧ x.state ≠ .applying) :
        ∃ r, LeavesFor s direct why (s.sets.filter direct) x r := by
      by_cases first : FirstLost s direct x
      · refine ⟨why, .inl ⟨rfl, ?_, first⟩⟩
        obtain h | ⟨c, z, hz, hi, -⟩ := h
        · exact List.mem_filter.2 ⟨hx, h⟩
        · have found := List.find?_some (first c ((sound.owner hx hz.1 hi).symm ▸ hz.1) hi)
          exact List.mem_filter.2 ⟨hx, (Bool.and_eq_true_iff.1 found).1⟩
      · obtain h | ⟨c, z, hz, hi, hw⟩ := h
        · obtain ⟨P, rest, hP⟩ := List.append_of_mem (List.mem_filter.2 ⟨hx, h⟩)
          obtain ⟨ended, inCycle⟩ := exists_firstLost sound hn hP first
          exact ⟨.cycleStopped, .inr ⟨rfl, hx, hdir x h, first, ended.mono fun z hz => hP ▸ List.mem_append_left _ hz, inCycle⟩⟩
        · have owner := sound.owner hx hz.1 hi
          exact ⟨.cycleStopped, .inr ⟨rfl, hx, hw, first, owner.symm ▸ hit_ended hz, c, owner.symm ▸ hz.1, hi⟩⟩
    have rooted {x : SealedSet} {r : ResultReason} (h : LeavesFor s direct why (s.sets.filter direct) x r) : x ∈ s.sets ∧
        (direct x = true ∨ ∃ c z, hit c z ∧ x.id ∈ c.members ∧ x.state ≠ .applying) := by
      obtain ⟨-, hx, -⟩ | ⟨-, hx, hw, -, ended, c, hcy, hi⟩ := h
      · exact ⟨List.mem_of_mem_filter hx, .inl (List.mem_filter.1 hx).2⟩
      · obtain ⟨c', z, hz, hcy'⟩ := ended_hit ended
        obtain rfl := Option.some.inj (hcy.symm.trans hcy')
        exact ⟨hx, .inr ⟨c, z, hz, hi, hw⟩⟩
    refine ⟨(only_cancelLostAll (by simp) (by simp) (by simp) why lost).2 (.refl _ s), fun x hx hd hm => ?_, fun c x hcx => ?_,
      fun x y hx h hch => ?_, fun y hy hd hm hch => ?_⟩
    · exact gone (swept.left x why (.inl ⟨rfl, List.mem_filter.2 ⟨hx, hd⟩, fun c hcy hi => absurd hi (hm c hcy)⟩))
    · obtain ⟨hxd, first⟩ := hit_mem hcx
      have ended := hit_ended hcx
      obtain ⟨hcy, hi, found⟩ := hcx
      refine ⟨gone (swept.left x why (.inl ⟨rfl, hxd, first⟩)), (cycles _).trans (sweep.ended _ ended), fun k hk => ?_,
        fun y hy hyi ne hw => ?_, fun y hy hyi ha => ?_⟩
      · rw [ht]
        exact (later_queueChecks v).told _ (sweep.told x hxd first c hcy hi k hk)
      · have owner := sound.owner hy hcy hyi
        refine gone (swept.left y .cycleStopped (.inr ⟨rfl, hy, hw, fun hf => ?_, owner.symm ▸ ended, c, owner.symm ▸ hcy, hyi⟩))
        have same := (hf c (owner.symm ▸ hcy) hyi).symm.trans found
        exact ne (congrArg (·.id) (Option.some.inj same))
      · have owner := sound.owner hy hcy hyi
        have hcy' : s.cycle y.owner = some c := owner.symm ▸ hcy
        refine (swept.mem _).2 ⟨y, hy, ?_, fun z r _ hz => ?_, (sweep.detached y hy c hcy' hyi ha (owner.symm ▸ ended)).symm⟩
        · rintro r (⟨-, hyd, -⟩ | ⟨-, -, hw, -⟩)
          · exact hdir y (List.mem_filter.1 hyd).2 ha
          · exact hw ha
        · obtain ⟨w, hd⟩ := hz.dependsOn
          exact sound.free hy ⟨c, hcy', hyi⟩ ids w hd
    · obtain ⟨r, hr⟩ := leaves hx h
      exact gone (swept.chain x r y hr hch)
    · have apart : ¬ (EndedBy s direct (s.sets.filter direct) y.owner ∧ InCycle s y) := by
        rintro ⟨ended, c, hcy, hi⟩
        obtain ⟨c', z, hz, hcy'⟩ := ended_hit ended
        obtain rfl := Option.some.inj (hcy.symm.trans hcy')
        exact hm c z hz hi
      refine (swept.mem y).2 ⟨y, hy, ?_, fun x r hr => hch x (rooted hr).1 (rooted hr).2, (sweep.kept y hy apart).symm⟩
      rintro r (⟨-, hyd, -⟩ | ⟨-, -, -, -, h⟩)
      · exact Bool.false_ne_true (hd.symm.trans (List.mem_filter.1 hyd).2)
      · exact apart h
  · let u := dropNotice (.halt .schedule) s
    obtain ⟨sets, left⟩ := cancelForHalt_parts (s := u) hn
    have later : Later u (cancelForHalt u) := (later_keptByMoves u).cancelForHalt (.refl u)
    refine ⟨cancelForHalt u, congrArg Host.Outcome.next (onNotice_some hh rfl), sets, fun x k hx hw hk => ?_⟩
    obtain ⟨-, -, result⟩ := left x hx hw
    exact result k ((later.session _).trans hk)

end Sys2Proof.Machine
end


section
/-! PROOFS. CYCLE_BEGIN, CYCLE_END and CYCLE_STOP (O44). -/

namespace Sys2Proof.Machine

section
variable {s : State} {n : SessionIx} {c : Cycle} {why : ResultReason} {except : List Nat}

/-! ### The record while members leave -/

theorem cycle_breakChain (x : SealedSet) (except : List Nat) (s : State) :
    (breakChain x except s).cycle n = s.cycle n :=
  congrArg (Table.get · n)
    ((only_breakChain (ps := [.schedule, .notices]) (by simp) (by simp) x except).2 (.refl _ s) .cycles (by simp))

theorem cancelSet_keepsCycle (h : s.cycle n = some c) (x : SealedSet) :
    ∃ k, (cancelSet x why except s).cycle n = some k := by
  rw [cancelSet_eq, cycle_breakChain, leftFirst]
  have left : (leaveSet x .cancelled (some why) none s).cycle n = some c := (cycle_leaveSet ..).trans h
  by_cases e : n = x.owner
  · subst e
    exact ⟨_, by rw [dropMember_some left, State.cycle_withCycle, if_pos rfl]⟩
  · exact ⟨c, ((dropMember_parts ..).2.2 n e).trans left⟩

/-- R96: a cycle whose members leave keeps its record for as long as it is not ended. -/
theorem foldl_cancelOne_keepsCycle (ms : List Nat) (h : s.cycle n = some c) :
    ∃ k, (ms.foldl (cancelOne why except) s).cycle n = some k := by
  induction ms generalizing s c with
  | nil => exact ⟨c, h⟩
  | cons m ms ih =>
    have one : ∃ k, (cancelOne why except s m).cycle n = some k := by
      unfold cancelOne
      split
      · split
        · exact cancelSet_keepsCycle h _
        · exact ⟨c, h⟩
      · exact ⟨c, h⟩
    exact one.elim fun k hk => ih hk

theorem stopMembers_keepsCycle (h : s.cycle n = some c) (members : Cycle) :
    ∃ k, (stopMembers members except s).cycle n = some k := foldl_cancelOne_keepsCycle _ h

theorem memberApplying_iff : memberApplying c s = true ↔ ∃ x ∈ s.sets, x.id ∈ c.members ∧ x.state = .applying := by
  simp [memberApplying]

/-! ### The end by request -/

/-- R95, R96: without an APPLYING member the cycle ends at once. -/
theorem stopNow_ends {k : Session} (h : Header) (r : Request) (hk : s.session n = some k)
    (none : ¬ ∃ x ∈ s.sets, x.id ∈ c.members ∧ x.state = .applying) :
    stopNow h r n c s = answer h r (doneWith (u8 0)) (queueChecks
      (post (.report .schedule (some (n, k.incarnation)) (cycleChangeOf c .stopped .none s.clock.rig))
        ((stopMembers c [] s).withCycle n .none))) := by
  have frame := stopMembers_frame c [] s
  have open' : (stopMembers c [] s).session n = some k :=
    (congrArg (fun t : SessionTable => t.records.get n) (frame .sessions (by simp))).trans hk
  have clock : (stopMembers c [] s).clock = s.clock := frame .clock (by simp)
  have rests := mt memberApplying_iff.1 none
  simp only [stopNow, if_neg rests, closeCycle_open open', clock]
  rfl

/-- R96: an APPLYING member keeps the cycle STOPPING until its outcome. -/
theorem stopNow_waits (h : Header) (r : Request) (hc : s.cycle n = some c)
    (one : ∃ x ∈ s.sets, x.id ∈ c.members ∧ x.state = .applying) :
    ∃ k, (stopMembers c [] s).cycle n = some k ∧ stopNow h r n c s = answer h r (doneWith (u8 3))
      (queueChecks ((stopMembers c [] s).withCycle n (some { k with phase := .stopping .now }))) := by
  obtain ⟨k, hk⟩ := stopMembers_keepsCycle (except := []) hc c
  refine ⟨k, hk, ?_⟩
  simp only [stopNow, if_pos (memberApplying_iff.2 one), hk]
  rfl

end

theorem stopKindOf_spec {b : Byte} {k : StopKind} (h : stopKindOf b = some k) : b = 0 ∧ k = .afterPass ∨ b = 1 ∧ k = .now := by
  unfold stopKindOf at h
  split at h <;> cases h
  · next e => exact .inl ⟨BitVec.eq_of_toNat_eq e, rfl⟩
  · next e => exact .inr ⟨BitVec.eq_of_toNat_eq e, rfl⟩

/-! ### The requests -/

/-- R88. -/
theorem cycleBegin_table (h : Header) (first : Time) (period repeats : Long) (n : SessionIx) (s : State) :
    let u := cycleBeginBody h first period repeats n s
    let r : Request := .cycleBegin first period repeats
    (period.toNat < 1000 → u = refuse h r .badField s) ∧
    (∀ c, 1000 ≤ period.toNat → s.cycle n = some c → u = refuse h r .cycleState s) ∧
    (1000 ≤ period.toNat → s.cycle n = none → s.haltedFor .cycleUnit = true → u = refuse h r .halted s) ∧
    (1000 ≤ period.toNat → s.cycle n = none → s.haltedFor .cycleUnit = false →
      u = answer h r (doneWith (u48 s.clock.rig)) (s.withCycle n (some
        { phase := .building, firstStart := first.toNat, period := period.toNat
          repeats := repeats.toNat, begun := 0, current := none, members := [] }))) := by
  refine ⟨fun short => ?_, fun c long hc => ?_, fun long hc hh => ?_, fun long hc hh => ?_⟩
  · simp [cycleBeginBody, short]
  · simp [cycleBeginBody, Nat.not_lt.2 long, hc]
  · simp [cycleBeginBody, Nat.not_lt.2 long, hc, hh]
  · simp [cycleBeginBody, Nat.not_lt.2 long, hc, hh]

/-- R95, R96: CYCLE_STOP by the state of the cycle and the kind. -/
theorem cycleStop_table {h : Header} {kind : Byte} {n : SessionIx} {s : State} {c : Cycle}
    (sound : (stopKindOf kind).isSome) (hc : s.cycle n = some c) :
    let u := cycleStopBody h kind n s
    let r : Request := .cycleStop kind
    (∀ k, c.phase = .stopping k → (kind = 0 ∨ k = .now) → u = answer h r (doneWith (u8 3)) s) ∧
    (c.phase = .running → kind = 0 → u = answer h r (doneWith (u8 3))
      (s.withCycle n (some { c with phase := .stopping .afterPass }))) ∧
    (c.phase = .building ∨ kind = 1 ∧ c.phase ≠ .stopping .now → u = stopNow h r n c s) := by
  obtain ⟨k, hk⟩ := Option.isSome_iff_exists.1 sound
  have ne : (0 : Byte) ≠ 1 := by decide
  refine ⟨fun j hp pick => ?_, fun hp zero => ?_, fun pick => ?_⟩
  · have code : stopReply (some c) = doneWith (u8 3) := by simp only [stopReply, cycleStateCode, hp]
    obtain ⟨rfl, rfl⟩ | ⟨rfl, rfl⟩ := stopKindOf_spec hk
    · simp only [cycleStopBody, hk, hc, hp, code]
    · obtain rfl : j = .now := pick.resolve_left (Ne.symm ne)
      simp only [cycleStopBody, hk, hc, hp, code]
  · subst zero
    obtain ⟨-, rfl⟩ := (stopKindOf_spec hk).resolve_right fun e => ne e.1
    simp only [cycleStopBody, hk, hc, hp]
    rfl
  · obtain ⟨rfl, rfl⟩ | ⟨rfl, rfl⟩ := stopKindOf_spec hk
    · have building := pick.resolve_right fun e => ne e.1
      simp only [cycleStopBody, hk, hc, building]
    · have other : c.phase ≠ .stopping .now := pick.elim (fun e => by simp [e]) (·.2)
      simp only [cycleStopBody, hk, hc]
      split
      · next e => exact absurd e other
      · rfl
      · rfl
      · rfl

/-- Settles O44. -/
theorem cycleRequestsFollowTheirTables : Obligations.CycleRequestsFollowTheirTables := by
  refine ⟨?_, fun h n s a => ⟨fun refused => ?_, fun c hc building listed => ?_⟩, ?_⟩
  · intro h first period repeats n s r i a
    obtain ⟨short, busy, halted, begun⟩ := cycleBegin_table h first period repeats n s
    exact ⟨fun hp => serve_eq a (short hp), fun c hp hc => serve_eq a (busy c hp hc),
      fun hp hc hh => serve_eq a (halted hp hc hh), fun hp hc hh => serve_eq a (begun hp hc hh)⟩
  · refine serve_eq a ?_
    unfold cycleEndBody
    split
    · rfl
    · next c hc => exact if_neg fun both => (refused c hc).elim (· both.1) both.2
  · refine serve_eq a ?_
    simp only [cycleEndBody, hc, if_pos (And.intro building listed)]
  · intro h kind n s r i a
    refine ⟨fun none => serve_eq a ?_, fun c hc => ?_⟩
    · obtain ⟨k, hk⟩ := Option.isSome_iff_exists.1 (show (stopKindOf kind).isSome = true from a.encoding)
      simp only [cycleStopBody, hk, none] <;> rfl
    obtain ⟨stopping, running, now⟩ := cycleStop_table (h := h) (n := n) (s := s) a.encoding hc
    refine ⟨fun k hp pick => serve_eq a (stopping k hp pick), fun hp zero => serve_eq a (running hp zero), ?_⟩
    intro pick u applying
    refine ⟨fun rest k hk => serve_eq a ((now pick).trans (stopNow_ends h r hk rest)), fun one => ?_⟩
    obtain ⟨k, hk, run⟩ := stopNow_waits h r hc one
    exact ⟨k, hk, serve_eq a ((now pick).trans run)⟩

end Sys2Proof.Machine
end


section
/-! PROOFS. Passes start and finish, and cycles end (O45). -/

namespace Sys2Proof.Machine

/-! ### The start of a pass -/

section
variable {s u : State} {n : SessionIx} {c : Cycle} {start now : Nat}

/-- R91: what the start of a pass makes of a member. -/
def SealedSet.started (start now : Nat) (x : SealedSet) : SealedSet :=
  match x.due with
  | .offset o => x.fallen now (capTime (start + o))
  | _ => x

theorem SealedSet.started_id (x : SealedSet) : (x.started start now).id = x.id := by
  unfold SealedSet.started
  split <;> rfl

/-- R91: a member gets its due time. -/
def startMember (start : Nat) (t : State) (id : Nat) : State :=
  match t.findSet id with
  | some x =>
    match x.due with
    | .offset o => fallDueAt id (capTime (start + o)) (t.withReady (t.schedule.ready.erase id))
    | _ => t
  | none => t

theorem startPass_eq (n : SessionIx) (c : Cycle) (start : Nat) (s : State) : startPass n c start s =
    c.members.foldl (startMember start)
      (s.withCycle n (some { c with current := some start, begun := min (c.begun + 1) Config.heldLong })) := rfl

theorem startMember_frame (start : Nat) (t : State) (id : Nat) : OnlyChanges [.schedule] t (startMember start t id) := by
  unfold startMember
  split
  · split
    · exact (only_fallDueAt (by simp) ..).2 ((only_withReady (by simp) _).2 (.refl _ t))
    · exact .refl _ t
  · exact .refl _ t

theorem startMember_sets (hn : (u.sets.map (·.id)).Nodup) (id : Nat) :
    (startMember start u id).sets = u.sets.map (changedAt id (SealedSet.started start u.clock.rig)) := by
  unfold startMember
  split
  · next y hy =>
    obtain ⟨mem, rfl⟩ := mem_of_findSet hy
    have other {t : State} (ht : t.sets = u.sets.map fun z => if z.id = y.id then y.started start u.clock.rig else z) :
        t.sets = u.sets.map (changedAt y.id (SealedSet.started start u.clock.rig)) := by
      refine ht.trans (List.map_congr_left fun z hz => ?_)
      unfold changedAt
      split
      · next e => rw [List.inj_on_of_nodup_map hn hz mem e]
      · rfl
    refine other ?_
    split
    · next o due =>
      refine (fallDueAt_sets ..).trans (List.map_congr_left fun z hz => ?_)
      split
      · next e =>
        obtain rfl := List.inj_on_of_nodup_map hn hz mem e
        simp only [SealedSet.started, due]
        rfl
      · rfl
    · next due =>
      refine (List.map_id' _).symm.trans (List.map_congr_left fun z hz => ?_)
      split
      · next e =>
        obtain rfl := List.inj_on_of_nodup_map hn hz mem e
        unfold SealedSet.started
        split
        · next o e => exact absurd e (due o)
        · rfl
      · rfl
  · next none =>
    refine (List.map_id' _).symm.trans (List.map_congr_left fun z hz => ?_)
    exact (if_neg fun e => by simpa [e] using List.find?_eq_none.1 none z hz).symm

/-- R91: the members of a list get their due times. -/
theorem foldl_startMember (ids : List Nat) (hids : ids.Nodup) (u : State) (hn : (u.sets.map (·.id)).Nodup) :
    (ids.foldl (startMember start) u).sets =
      u.sets.map fun y => if y.id ∈ ids then y.started start u.clock.rig else y := by
  induction ids generalizing u with
  | nil => simp
  | cons id ids ih =>
    obtain ⟨fresh, rest⟩ := List.nodup_cons.1 hids
    have one := startMember_sets (start := start) hn id
    have keeps := changedAt_id (f := SealedSet.started start u.clock.rig) (fun _ => SealedSet.started_id _) id
    have clock : (startMember start u id).clock = u.clock := startMember_frame start u id .clock (by simp)
    rw [List.foldl_cons, ih rest _ (by rw [one, ids_map _ keeps]; exact hn), one, clock, List.map_map]
    refine List.map_congr_left fun y _ => ?_
    rw [Function.comp_apply, keeps, changedAt]
    by_cases e : y.id = id
    · rw [if_pos e, if_neg (e ▸ fresh), if_pos (e ▸ .head _)]
    · rw [if_neg e]
      simp only [List.mem_cons, e, false_or]

theorem startPass_sets (hn : (s.sets.map (·.id)).Nodup) (hc : c.members.Nodup) : (startPass n c start s).sets =
    s.sets.map fun y => if y.id ∈ c.members then y.started start s.clock.rig else y :=
  foldl_startMember c.members hc _ hn

theorem startPass_cycle (m : SessionIx) : (startPass n c start s).cycle m =
    if m = n then some { c with current := some start, begun := min (c.begun + 1) (2 ^ 32 - 1) } else s.cycle m := by
  rw [startPass_eq]
  have frame := (only_foldl (ps := [.schedule]) (startMember start) c.members
    (fun t id => OnlyChanges.iff_of (fun _ h => h) (startMember_frame start t id))).2
      (.refl _ (s.withCycle n (some { c with current := some start, begun := min (c.begun + 1) Config.heldLong })))
  refine (congrArg (Table.get · m) (frame .cycles (by simp))).trans ((State.cycle_withCycle ..).trans ?_)
  by_cases e : n = m
  · rw [if_pos e, if_pos e.symm] <;> rfl
  · rw [if_neg e, if_neg (Ne.symm e)]

/-- R91 with R47: the members that fall due take their places on the Ready List. -/
theorem startPass_ready (h : ReadyKept ordered s) : ReadyKept ordered (startPass n c start s) := by
  have same : startPass n c start s = startPass n c start (s.withCycle n (some c)) := by
    rw [startPass_eq, startPass_eq]
    refine congrArg (List.foldl (startMember start) · c.members) (congrArg s.withCycles (Table.ext_get fun i => ?_))
    show _ = ((s.cycles.put n (some c)).put n _).get i
    simp only [Table.get_put]
    split <;> rfl
  rw [same]
  have listed : (s.withCycle n (some c)).cycle n = some c := by simp
  exact (readyKept_keptByMoves ordered).startPass n (.refl listed) start (h.of_eq rfl rfl)

end

/-! ### The finish of a pass -/

section
variable {s : State} {n : SessionIx} {c : Cycle}

/-- R93: a member leaves without SET_RESULT. -/
def removeMember (u : State) (id : Nat) : State :=
  match u.findSet id with
  | some x => removeSet x u
  | none => u

theorem removeMember_sets (u : State) (id : Nat) : ∀ x ∈ (removeMember u id).sets, x ∈ u.sets ∧ x.id ≠ id := by
  unfold removeMember
  intro x
  split
  · next y hy =>
    obtain ⟨-, rfl⟩ := mem_of_findSet hy
    rw [sets_removeSet]
    simp
  · next none => exact fun hx => ⟨hx, fun e => by simpa [e] using List.find?_eq_none.1 none x hx⟩

theorem foldl_removeMember_sets (ids : List Nat) (u : State) :
    ∀ x ∈ (ids.foldl removeMember u).sets, x ∈ u.sets ∧ x.id ∉ ids := by
  induction ids generalizing u with
  | nil => exact fun x hx => ⟨hx, List.not_mem_nil⟩
  | cons id ids ih =>
    intro x hx
    obtain ⟨hx, rest⟩ := ih _ x hx
    obtain ⟨hx, first⟩ := removeMember_sets u id x hx
    exact ⟨hx, fun h => (List.mem_cons.1 h).elim first rest⟩

/-- R93: the members' chains are broken after the members have left. -/
def brokenAtFinish (c : Cycle) (s : State) : State :=
  (c.members.filterMap s.findSet).foldl (fun u x => breakChain x [] u) (c.members.foldl removeMember s)

theorem finishCycle_eq (n : SessionIx) (c : Cycle) (reason : CycleEndReason) (s : State) :
    finishCycle n c reason s = closeCycle .schedule n c reason none (brokenAtFinish c s) := rfl

theorem brokenAtFinish_frame (c : Cycle) (s : State) : OnlyChanges [.schedule, .notices] s (brokenAtFinish c s) := by
  unfold brokenAtFinish
  rw [only_foldl _ _ fun _ _ => only_breakChain (by simp) (by simp) _ _, only_foldl]
  · exact .refl _ s
  · intro u id
    unfold removeMember
    split
    · exact only_removeSet (by simp) (by simp) _
    · exact Iff.rfl

theorem foldl_breakChain_sets (xs : List SealedSet) (u : State) :
    ∀ y ∈ (xs.foldl (fun u x => breakChain x [] u) u).sets, y ∈ u.sets := by
  induction xs generalizing u with
  | nil => exact fun _ hy => hy
  | cons x xs ih => exact fun y hy => KeptByMoves.breakChains_sets _ _ _ y (ih _ y hy)

theorem finishCycle_open {k : Session} (hk : s.session n = some k) (c : Cycle) (reason : CycleEndReason) :
    finishCycle n c reason s =
      post (.report .schedule (some (n, k.incarnation)) (cycleChangeOf c reason none s.clock.rig))
        ((brokenAtFinish c s).withCycle n none) := by
  have frame := brokenAtFinish_frame c s
  have session : (brokenAtFinish c s).session n = some k :=
    (congrArg (fun t : SessionTable => t.records.get n) (frame .sessions (by simp))).trans hk
  have clock : (brokenAtFinish c s).clock = s.clock := frame .clock (by simp)
  rw [finishCycle_eq, closeCycle_open session, clock]

/-! ### A member is parked -/

theorem passFinished_iff : passFinished c s = true ↔ ∀ m ∈ c.members, ∃ x, s.findSet m = some x ∧ x.state = .parked := by
  simp only [passFinished, List.all_eq_true]
  refine forall₂_congr fun m _ => ?_
  cases s.findSet m <;> simp

theorem passesRemain_iff : passesRemain c = true ↔
    (c.repeats = 0 ∨ c.begun < c.repeats) ∧ c.current.getD c.firstStart + c.period ≤ 2 ^ 48 - 1 := by
  have bound : Config.maxTime = 2 ^ 48 - 1 := rfl
  simp [passesRemain, nextStart, bound]

/-- R92: the pass goes on, or the cycle is building or STOPPING under NOW. -/
theorem memberParked_waits {id : Nat} (hc : s.cycle n = some c)
    (h : ¬ (id ∈ c.members ∧ passFinished c s = true) ∨ c.phase = .building ∨ c.phase = .stopping .now) :
    memberParked n id s = s := by
  simp only [memberParked, hc, Bool.and_eq_true, List.contains_iff_mem]
  split
  · next done => obtain h | h | h := h <;> simp_all
  · rfl

theorem memberParked_finished {id : Nat} (hc : s.cycle n = some c) (done : id ∈ c.members ∧ passFinished c s = true) :
    (c.phase = .running → passesRemain c = true → memberParked n id s = startPass n c (nextStart c) s) ∧
    (c.phase = .running → ¬ passesRemain c = true → memberParked n id s = queueChecks (finishCycle n c .complete s)) ∧
    (c.phase = .stopping .afterPass → passesRemain c = true →
      memberParked n id s = queueChecks (finishCycle n c .stopped s)) ∧
    (c.phase = .stopping .afterPass → ¬ passesRemain c = true →
      memberParked n id s = queueChecks (finishCycle n c .complete s)) := by
  have pass : (c.members.contains id && passFinished c s) = true := by simpa using done
  refine ⟨fun hp more => ?_, fun hp more => ?_, fun hp more => ?_, fun hp more => ?_⟩ <;>
    simp only [memberParked, hc, pass, hp, more] <;> rfl

end

/-! ### Halt -/

/-- R97: the cycles of some sessions have ended at halt entry. -/
structure CyclesHalted (ns : List SessionIx) (s t : State) : Prop where
  clock : t.clock = s.clock
  sessions : t.sessions = s.sessions
  cycle : ∀ m, t.cycle m = if m ∈ ns then none else s.cycle m
  relabelled : ∃ f : SealedSet → SealedSet, t.sets = s.sets.map f ∧
    ∀ x, (f x).id = x.id ∧ (f x).state = x.state ∧ ((f x).member = true → x.member = true ∧
      (x.state = .applying → ∀ n ∈ ns, ∀ c, s.cycle n = some c → x.id ∉ c.members))
  kept : ∀ r ∈ s.notices, r ∈ t.notices
  told : ∀ n ∈ ns, ∀ c k, s.cycle n = some c → s.session n = some k →
    .report .cycleUnit (some (n, k.incarnation)) (cycleChangeOf c .halted none s.clock.rig) ∈ t.notices

theorem cyclesHalted_haltCycle (s : State) (n : SessionIx) : CyclesHalted [n] s (haltCycle s n) := by
  unfold haltCycle
  split
  · next c hc =>
    have posts : ∃ ns, closeCycle .cycleUnit n c .halted none (detachForHalt c s) =
        postAll ns ((detachForHalt c s).withCycle n none) ∧ ∀ k, s.session n = some k →
          .report .cycleUnit (some (n, k.incarnation)) (cycleChangeOf c .halted none s.clock.rig) ∈ ns := by
      cases hk : s.session n with
      | none =>
        refine ⟨[], (sessionReport_closed (s := (detachForHalt c s).withCycle n none) hk).trans ?_, fun _ e => absurd e (by simp)⟩
        rw [postAll, List.append_nil] <;> rfl
      | some k =>
        refine ⟨[_], closeCycle_open (s := detachForHalt c s) hk .cycleUnit .halted none, ?_⟩
        rintro _ ⟨⟩
        exact List.mem_singleton.2 rfl
    obtain ⟨ns, run, told⟩ := posts
    rw [run]
    refine ⟨rfl, rfl, fun m => ?_, ⟨_, rfl, fun x => ?_⟩, fun r hr => List.mem_append_left _ hr, fun m hm c' k hc' hk => ?_⟩
    · refine (State.cycle_withCycle ..).trans ?_
      simp only [List.mem_singleton, eq_comm]
      rfl
    · split
      · next listed =>
        refine ⟨rfl, rfl, fun hm => ?_⟩
        obtain ⟨hm, rests⟩ := by simpa using hm
        exact ⟨hm, fun ha => absurd ha rests⟩
      · next other =>
        refine ⟨rfl, rfl, fun hm => ⟨hm, fun _ m hm c' hc' => ?_⟩⟩
        obtain rfl := List.mem_singleton.1 hm
        obtain rfl := Option.some.inj (hc.symm.trans hc')
        simpa using other
    · obtain rfl := List.mem_singleton.1 hm
      obtain rfl := Option.some.inj (hc.symm.trans hc')
      exact List.mem_append_right _ (told k hk)
  · next hc =>
    refine ⟨rfl, rfl, fun m => ?_, ⟨id, (List.map_id _).symm, fun x => ⟨rfl, rfl, fun hm => ⟨hm, fun _ m hm c' hc' => ?_⟩⟩⟩,
      fun _ hr => hr, fun m hm c' k hc' => ?_⟩
    · split
      · next hm => rw [List.mem_singleton.1 hm, hc]
      · rfl
    all_goals
      obtain rfl := List.mem_singleton.1 hm
      rw [hc] at hc'
      cases hc'

theorem CyclesHalted.trans {n : SessionIx} {ns : List SessionIx} {s t u : State} (hn : n ∉ ns) (h : CyclesHalted [n] s t)
    (k : CyclesHalted ns t u) : CyclesHalted (n :: ns) s u := by
  obtain ⟨f, hf, first⟩ := h.relabelled
  obtain ⟨g, hg, rest⟩ := k.relabelled
  have still {m : SessionIx} (hm : m ∈ ns) : t.cycle m = s.cycle m := by
    rw [h.cycle, if_neg]
    exact fun e => hn (List.mem_singleton.1 e ▸ hm)
  have session (m : SessionIx) : t.session m = s.session m := by rw [State.session, h.sessions]; rfl
  refine ⟨k.clock.trans h.clock, k.sessions.trans h.sessions, fun m => ?_, ⟨g ∘ f, by rw [hg, hf, List.map_map], fun x => ?_⟩,
    fun r hr => k.kept r (h.kept r hr), fun m hm c r hc hr => ?_⟩
  · rw [k.cycle, h.cycle]
    simp only [List.mem_cons, List.not_mem_nil, or_false]
    by_cases e : m = n <;> simp [e]
  · obtain ⟨id₁, state₁, off₁⟩ := first x
    obtain ⟨id₂, state₂, off₂⟩ := rest (f x)
    refine ⟨id₂.trans id₁, state₂.trans state₁, fun hm => ?_⟩
    obtain ⟨hm, late⟩ := off₂ hm
    obtain ⟨hm, early⟩ := off₁ hm
    refine ⟨hm, fun ha m hmem c hc => ?_⟩
    obtain rfl | hmem := List.mem_cons.1 hmem
    · exact early ha m (.head _) c hc
    · exact id₁ ▸ late (state₁.trans ha) m hmem c ((still hmem).trans hc)
  · obtain rfl | hm := List.mem_cons.1 hm
    · exact k.kept _ (h.told m (.head _) c r hc hr)
    · exact h.clock ▸ k.told m hm c r ((still hm).trans hc) ((session m).trans hr)

theorem cyclesHalted_foldl (ns : List SessionIx) (hn : ns.Nodup) (s : State) :
    CyclesHalted ns s (ns.foldl haltCycle s) := by
  induction ns generalizing s with
  | nil => exact ⟨rfl, rfl, fun _ => rfl, ⟨id, (List.map_id _).symm, fun x => ⟨rfl, rfl, fun hm => ⟨hm, nofun⟩⟩⟩, fun _ hr => hr, nofun⟩
  | cons n ns ih =>
    obtain ⟨fresh, rest⟩ := List.nodup_cons.1 hn
    exact (cyclesHalted_haltCycle s n).trans fresh (ih rest _)

/-- Settles O45. -/
theorem passesRunAndCyclesEnd : Obligations.PassesRunAndCyclesEnd := by
  refine ⟨⟨fun n c start s hn hc => ?_, fun n c reason k s hk => ?_⟩, fun n id s hh => ?_, fun time s hh => ?_⟩
  · refine ⟨(only_startPass (by simp) (by simp) n c start).2 (.refl _ s), (startPass_cycle n).trans (if_pos rfl),
      fun m hm => (startPass_cycle m).trans (if_neg hm), (startPass_sets hn hc).trans ?_, fun hl ho => ?_⟩
    · refine List.map_congr_left fun x _ => ?_
      cases hd : x.due <;> simp only [SealedSet.started, SealedSet.fallen, hd, ite_self] <;> rfl
    · obtain ⟨listed, ordered⟩ := startPass_ready (ordered := True) ⟨hl, fun _ => ho⟩
      exact ⟨listed, ordered trivial⟩
  · have run := finishCycle_open hk c reason
    refine ⟨(only_finishCycle (by simp) (by simp) (by simp) n c reason).2 (.refl _ s), run, fun x hx => ?_⟩
    rw [run] at hx
    exact foldl_removeMember_sets c.members s x (foldl_breakChain_sets _ _ x hx)
  · intro u
    have taken : exec (.memberParkedNotice n) s = .next (memberParked n id u) :=
      congrArg Host.Outcome.next (onNotice_some hh rfl)
    refine ⟨fun hc => taken.trans ?_, ?_⟩
    · have hc : u.cycle n = none := hc
      simp only [memberParked, hc]
    · intro c hc finished next remain
      have hc : u.cycle n = some c := hc
      have done : finished ↔ id ∈ c.members ∧ passFinished c u = true := and_congr_right' passFinished_iff.symm
      have more : remain ↔ passesRemain c = true := passesRemain_iff.symm
      refine ⟨fun h => taken.trans (congrArg _ (memberParked_waits hc (h.imp_left (mt done.2)))), ?_⟩
      have lift {P Q : Prop} {v : State} (h : finished → P → Q → memberParked n id u = v) (hf : finished) (hp : P) (hq : Q) :
          exec (.memberParkedNotice n) s = .next v := taken.trans (congrArg _ (h hf hp hq))
      refine ⟨lift fun hf hp hm => ?_, lift fun hf hp hm => ?_, lift fun hf hp hm => ?_, lift fun hf hp hm => ?_⟩
      · exact (memberParked_finished hc (done.1 hf)).1 hp (more.1 hm)
      · exact (memberParked_finished hc (done.1 hf)).2.1 hp (mt more.2 hm)
      · exact (memberParked_finished hc (done.1 hf)).2.2.1 hp (more.1 hm)
      · exact (memberParked_finished hc (done.1 hf)).2.2.2 hp (mt more.2 hm)
  · have halted := cyclesHalted_foldl allSessions (List.nodup_finRange 4) (dropNotice (.halt .cycleUnit) s)
    obtain ⟨f, sets, relabelled⟩ := halted.relabelled
    have all (n : SessionIx) : n ∈ allSessions := List.mem_finRange n
    have run : exec .haltEntryCycleUnit s = .next (allSessions.foldl haltCycle (dropNotice (.halt .cycleUnit) s)) :=
      congrArg Host.Outcome.next (onNotice_some hh rfl)
    refine ⟨_, run, ?_, fun n => (halted.cycle n).trans (if_pos (all n)), ?_, ?_,
      fun n c k hc hk => halted.told n (all n) c k hc hk⟩
    · exact (only_foldl _ _ fun _ _ => only_haltCycle (by simp) (by simp) (by simp) _).2
        ((only_dropNotice (by simp) _).2 (.refl _ s))
    · rw [sets]
      exact ids_map f fun x => (relabelled x).1
    · rw [sets]
      refine List.forall_mem_map.2 fun x _ ha hm n c hc => ?_
      obtain ⟨hid, hstate, off⟩ := relabelled x
      rw [hid]
      exact (off hm).2 (hstate.symm.trans ha) n (all n) c hc

end Sys2Proof.Machine
end


section
/-! PROOFS. A set while it is staged or committing (O46). -/

namespace Sys2Proof.Machine

section
variable {s : State} {w : Work} {k : SlotIx} {take : Nat} {c : Cause}

/-! ### Failing and withdrawing -/

/-- R67, R69, R71: what is handed over when a set in STAGING fails. -/
def stagingFailed (w : Work) (u : State) (c : Cause) : State :=
  let v := post (.withdraw (.stages w.take)) u
  let a := if c = .halted ∨ w.abandon = true then v else post (.busRequest .applyEngine .abandon) v
  post (.outcome w.take w.setId (.failed c)) (a.withWork none)

theorem failStaging_eq (w : Work) (c : Cause) (u : State) : failStaging w c u = stagingFailed w u c := by
  unfold failStaging stagingFailed handOutcome queueAbandon
  by_cases hc : c = .halted <;> by_cases ha : w.abandon = true <;> simp only [hc, ha, if_true, if_false, true_or, or_self] <;> rfl

theorem withdrawCommit_eq (hc : c ≠ .sessionEnd) (w : Work) (u : State) : withdrawCommit w c u =
    post (.withdraw (.commit w.take)) (u.withWork (some { w with phase := .withdrawing, cause := some c })) := by
  simp only [withdrawCommit, decide_eq_false hc, Bool.or_false]

/-! ### The end of a STAGE -/

theorem workIn_staging (hw : s.engine.work = some w) :
    workIn take .staging s = if take = w.take ∧ w.phase = .staging then some w else none := by
  simp only [workIn, hw, eq_comm (a := take)]

theorem stageLost_eq (hw : s.engine.work = some w) (take : Nat) (c : Cause) :
    stageLost take c s = if take = w.take ∧ w.phase = .staging then stagingFailed w s c else s := by
  unfold stageLost
  rw [workIn_staging hw]
  split
  · next h =>
    split at h
    · cases h
    · next off => rw [if_neg off]
  · next x h =>
    split at h
    · next on =>
      cases h
      rw [if_pos on, failStaging_eq]
    · cases h

theorem stageAccepted_other (hw : s.engine.work = some w) (h : take ≠ w.take ∨ w.phase ≠ .staging) :
    stageAccepted k take s = s := by
  have off : workIn take .staging s = none := (workIn_staging hw).trans (if_neg fun both => h.elim (· both.1) (· both.2))
  rw [stageAccepted, off]

theorem touched_lossPending : (w.touched k).any (·.lossPending) = true ↔
    ∃ t, (w.slots.find? fun t => t.slot = k) = some t ∧ t.lossPending = true := by
  rw [Option.any_eq_true]
  rfl

/-- R66, R68: an acceptance marks its slot; a loss recorded before fails the set. -/
theorem stageAccepted_staging (hw : s.engine.work = some w) (ht : take = w.take) (hp : w.phase = .staging) :
    stageAccepted k take s =
      if (w.touched k).any (·.lossPending) then stagingFailed w s .slotLost
      else if (∀ t ∈ w.slots, t.slot = k ∨ t.mark = .accepted) then
        post (.commitRequest { take := take, slots := w.slots.map (·.slot), sync := w.sync })
          (s.withWork (some { w with
            slots := w.slots.map fun t => if t.slot = k then { t with mark := .accepted } else t, phase := .committing }))
      else s.withWork (some { w with slots := w.slots.map fun t => if t.slot = k then { t with mark := .accepted } else t }) := by
  have on : workIn take .staging s = some w := (workIn_staging hw).trans (if_pos ⟨ht, hp⟩)
  have all : ((w.mark k fun t => { t with mark := .accepted }).slots.all fun t => decide (t.mark = .accepted)) = true ↔
      ∀ t ∈ w.slots, t.slot = k ∨ t.mark = .accepted := by
    simp only [Work.mark, List.all_map, List.all_eq_true, Function.comp_apply, decide_eq_true_eq]
    refine forall₂_congr fun t _ => ?_
    by_cases e : t.slot = k <;> simp [e]
  have slots : (w.mark k fun t => { t with mark := .accepted }).slots.map (·.slot) = w.slots.map (·.slot) := by
    simp only [Work.mark, List.map_map]
    refine List.map_congr_left fun t _ => ?_
    by_cases e : t.slot = k <;> simp [e]
  unfold stageAccepted
  rw [on]
  simp only [failStaging_eq, all, slots]
  rfl

/-! ### The loss of a slot -/

theorem slotLost_committing (hw : s.engine.work = some w) (ht : take = w.take) (hp : w.phase = .committing) :
    slotLost k take s = post (.withdraw (.commit take))
      (s.withWork (some { w with phase := .withdrawing, cause := some .slotLost })) := by
  subst ht
  simp only [slotLost, hw, hp, ne_eq, not_true_eq_false, if_false]
  exact withdrawCommit_eq (c := .slotLost) (by decide) w s

theorem slotLost_other (hw : s.engine.work = some w)
    (h : take ≠ w.take ∨ w.phase = .withdrawing ∨ w.phase = .recording) : slotLost k take s = s := by
  simp only [slotLost, hw]
  split
  · rfl
  · next same => obtain h | h := h.resolve_left (fun e => same (Ne.symm e)) <;> simp only [h]

theorem slotLost_staging {t : Touched} (hw : s.engine.work = some w) (ht : take = w.take) (hp : w.phase = .staging)
    (hk : (w.slots.find? fun t => t.slot = k) = some t) : slotLost k take s =
      if t.mark = .inProgress then s.withWork (some { w with
        slots := w.slots.map fun x => if x.slot = k then { x with lossPending := true } else x })
      else stagingFailed w s .slotLost := by
  subst ht
  have hk : w.touched k = some t := hk
  simp only [slotLost, hw, hp, hk, ne_eq, not_true_eq_false, if_false]
  split
  · next e => rw [e, if_pos rfl, ← hp] <;> rfl
  · next e => rw [e, if_neg (by decide), failStaging_eq]
  · next e => rw [e, if_neg (by decide), failStaging_eq]

end

/-- Settles O46: an engine that is IDLE or works on another set takes the notice; otherwise by the mark and the phase. -/
theorem stagingFollowsItsTable : Obligations.StagingFollowsItsTable := by
  refine ⟨fun k s hw => ⟨?_, fun take hh => ?_, fun time hh => ?_⟩, ?_⟩
  · intro take e hh u
    have idle (p : EnginePhase) : workIn take p u = none := by
      have hw : u.engine.work = none := hw
      simp only [workIn, hw]
    refine ⟨fun he => ?_, fun he => ?_, fun he => ?_⟩ <;> subst he <;>
      refine congrArg Host.Outcome.next (onNotice_some hh (congrArg some ?_))
    · rw [stageAccepted, idle]
    · rw [stageLost, idle]
    · rw [stageLost, idle]
  · refine congrArg Host.Outcome.next (onNotice_some hh (congrArg some ?_))
    have hw : (dropNotice (.engineSlotLost k) s).engine.work = none := hw
    simp only [slotLost, hw]
  · refine congrArg Host.Outcome.next (onNotice_some hh (congrArg some ?_))
    have hw : (dropNotice (.halt .applyEngine) s).engine.work = none := hw
    simp only [haltEngine, hw]
  · intro k w s hw marked pendingLoss fails
    refine ⟨?_, ?_, ?_⟩
    · intro take e hh u
      have hw : u.engine.work = some w := hw
      refine ⟨fun he => ?_, fun he => ?_, fun he => ?_⟩ <;> subst he
      · have run : exec (.stageAcceptance k) s = .next (stageAccepted k take u) :=
          congrArg Host.Outcome.next (onNotice_some hh rfl)
        have staging (ht : take = w.take) (hp : w.phase = .staging) := run.trans (congrArg _ (stageAccepted_staging (k := k) hw ht hp))
        refine ⟨fun h => run.trans (congrArg _ (stageAccepted_other hw h)), fun ht hp hl => (staging ht hp).trans ?_,
          fun ht hp hl all => (staging ht hp).trans ?_, fun ht hp hl ⟨t, hm, hs, ha⟩ => (staging ht hp).trans ?_⟩
        · rw [if_pos (touched_lossPending.2 hl)]
          rfl
        · rw [if_neg (mt touched_lossPending.1 hl), if_pos all]
        · rw [if_neg (mt touched_lossPending.1 hl), if_neg fun all => (all t hm).elim hs ha]
      · exact congrArg Host.Outcome.next (onNotice_some hh (congrArg some (stageLost_eq hw take .moduleNoReply)))
      · exact congrArg Host.Outcome.next (onNotice_some hh (congrArg some (stageLost_eq hw take .slotLost)))
    · intro take hh u
      have hw : u.engine.work = some w := hw
      have run : exec (.slotLostNotice k) s = .next (slotLost k take u) := congrArg Host.Outcome.next (onNotice_some hh rfl)
      refine ⟨fun h => run.trans (congrArg _ (slotLost_other hw h)), fun ht hp => run.trans (congrArg _ (slotLost_committing hw ht hp)),
        fun t ht hp hk => ?_⟩
      have staging := run.trans (congrArg _ (slotLost_staging hw ht hp hk))
      exact ⟨fun hm => staging.trans (congrArg _ (if_pos hm)), fun hm => staging.trans (congrArg _ (if_neg hm))⟩
    · intro time hh u
      have hw : u.engine.work = some w := hw
      have run : exec .haltEntryApplyEngine s = .next (haltEngine u) := congrArg Host.Outcome.next (onNotice_some hh rfl)
      refine ⟨fun hp => run.trans (congrArg _ ?_), fun hp => run.trans (congrArg _ ?_), fun hp => run.trans (congrArg _ ?_)⟩
      · simp only [haltEngine, hw, hp, failStaging_eq]
        rfl
      · simp only [haltEngine, hw, hp]
        exact withdrawCommit_eq (c := .halted) (by decide) w u
      · obtain hp | hp := hp <;> simp only [haltEngine, hw, hp]

end Sys2Proof.Machine
end


section
/-! PROOFS. The answer to the COMMIT request (O47). -/

namespace Sys2Proof.Machine

section
variable {s : State} {w : Work} {c : Cause} {a : CommitAnswer}

theorem awaitsAnswer_iff : w.awaitsAnswer = true ↔ w.phase = .committing ∨ w.phase = .withdrawing := by
  simp [Work.awaitsAnswer]

/-! ### Taking the answer -/

theorem exec_strobeAnswer {time : Nat} {queued : Bool}
    (hh : headNotice .commitAnswer s = some (.commitAnswer (.strobe time queued))) : exec .strobeAnswer s =
      .next (match s.engine.work with
        | some w =>
          if w.awaitsAnswer then takeStrobe w time queued (dropNotice .commitAnswer s) else dropNotice .commitAnswer s
        | none => dropNotice .commitAnswer s) := by
  refine congrArg Host.Outcome.next (onNotice_some hh ?_)
  show (match s.engine.work with
    | some w => if w.awaitsAnswer then some (takeStrobe w time queued _) else some _
    | none => some _) = _
  split
  · split <;> rfl
  · rfl

theorem exec_withdrawnAnswer (hh : headNotice .commitAnswer s = some (.commitAnswer a))
    (ha : ∀ time queued, a ≠ .strobe time queued) : exec .withdrawnAnswer s =
      .next (match s.engine.work with
        | some w =>
          if w.awaitsAnswer then takeWithdrawn w a (dropNotice .commitAnswer s) else dropNotice .commitAnswer s
        | none => dropNotice .commitAnswer s) := by
  refine congrArg Host.Outcome.next (onNotice_some hh ?_)
  have body : (match s.engine.work with
    | some w => if w.awaitsAnswer then some (takeWithdrawn w a (dropNotice .commitAnswer s)) else some (dropNotice .commitAnswer s)
    | none => some (dropNotice .commitAnswer s)) =
      some (match s.engine.work with
        | some w => if w.awaitsAnswer then takeWithdrawn w a (dropNotice .commitAnswer s) else dropNotice .commitAnswer s
        | none => dropNotice .commitAnswer s) := by
    split
    · split <;> rfl
    · rfl
  cases a with
  | strobe time queued => exact absurd rfl (ha time queued)
  | safeDrive => exact body
  | slotLost => exact body
  | byRequest => exact body

/-! ### A withdrawn COMMIT request -/

/-- R74: the first recorded cause, or the controller's reason. -/
theorem withdrawnCause_eq (h : w.cause = some c ∨
    w.cause = none ∧ (a = .slotLost ∧ c = .slotLost ∨ a = .safeDrive ∧ c = .halted)) : withdrawnCause w a = c := by
  obtain h | ⟨h, ⟨rfl, rfl⟩ | ⟨rfl, rfl⟩⟩ := h <;> simp only [withdrawnCause, h]

/-- R71, R74. -/
theorem takeWithdrawn_eq (hc : withdrawnCause w a = c) (u : State) : takeWithdrawn w a u =
    let v := if c = .halted ∨ w.abandon = true then u else post (.busRequest .applyEngine .abandon) u
    if w.ended then post (.teardownAnswer .applyEngine w.owner) (post (.outcome w.take w.setId .removed) (v.withWork none))
    else post (.outcome w.take w.setId (.failed c)) (v.withWork none) := by
  subst hc
  unfold takeWithdrawn handOutcome queueAbandon settled
  by_cases hc : withdrawnCause w a = .halted <;> by_cases ha : w.abandon = true <;> simp [hc, ha]

/-! ### The records have been taken -/

theorem exec_commitRecordsTaken (hh : headNotice .recordsTaken s = some .recordsTaken) : exec .commitRecordsTaken s =
    .next (match s.engine.work with
      | some w => if w.phase = EnginePhase.recording then finishRecording w (dropNotice .recordsTaken s) else dropNotice .recordsTaken s
      | none => dropNotice .recordsTaken s) := by
  refine congrArg Host.Outcome.next (onNotice_some hh ?_)
  show (match s.engine.work with
    | some w => if w.phase = EnginePhase.recording then some (finishRecording w _) else some _
    | none => some _) = _
  split
  · split <;> rfl
  · rfl

theorem finishRecording_ended {t : Nat} (ht : w.commitTime = some t) (he : w.ended = true) (u : State) :
    finishRecording w u = post (.teardownAnswer .applyEngine w.owner) (post (.outcome w.take w.setId .removed) (u.withWork none)) := by
  simp only [finishRecording, ht, he, if_true]
  rfl

theorem finishRecording_applied {t : Nat} (ht : w.commitTime = some t) (he : w.ended = false) (u : State) :
    finishRecording w u = if w.capture then makeSetCapture w t (post (.outcome w.take w.setId (.applied t)) (u.withWork none))
      else post (.outcome w.take w.setId (.applied t)) (u.withWork none) := by
  simp only [finishRecording, ht, he]
  rfl

end

/-- Settles O47. -/
theorem commitAnswersSettleTheSet : Obligations.CommitAnswersSettleTheSet := by
  refine ⟨fun s hw => ⟨?_, fun hh => ?_⟩, fun w s hw => ⟨?_, ?_⟩⟩
  · intro a hh u
    refine ⟨fun time queued ha => ?_, fun ha => ?_⟩
    · subst ha
      rw [exec_strobeAnswer hh, hw] <;> rfl
    · rw [exec_withdrawnAnswer hh ha, hw] <;> rfl
  · rw [exec_commitRecordsTaken hh, hw] <;> rfl
  · intro a hh u awaits
    refine ⟨fun time queued ha => ?_, fun ha => ?_⟩
    · subst ha
      rw [exec_strobeAnswer hh, hw]
      exact ⟨fun h => congrArg _ (if_pos (awaitsAnswer_iff.2 h)), fun h => congrArg _ (if_neg (mt awaitsAnswer_iff.1 h))⟩
    · rw [exec_withdrawnAnswer hh ha, hw]
      refine ⟨fun h => congrArg _ (if_neg (mt awaitsAnswer_iff.1 h)), ?_⟩
      intro h c cause v
      have run : (if w.awaitsAnswer then takeWithdrawn w a u else u) = _ :=
        (if_pos (awaitsAnswer_iff.2 h)).trans (takeWithdrawn_eq (withdrawnCause_eq cause) u)
      exact ⟨fun he => congrArg _ (run.trans (if_neg (Bool.eq_false_iff.1 he))), fun he => congrArg _ (run.trans (if_pos he))⟩
  · intro hh u
    rw [exec_commitRecordsTaken hh, hw]
    refine ⟨fun hp => congrArg _ (if_neg hp), ?_⟩
    intro t hp ht v
    have lift {x : State} (h : finishRecording w u = x) :
        (.next (if w.phase = .recording then finishRecording w u else u) : Host.Outcome State Fault Refusal) = .next x :=
      congrArg _ ((if_pos hp).trans h)
    have applied (he : w.ended = false) := finishRecording_applied ht he u
    refine ⟨fun he => lift (finishRecording_ended ht he u), fun he hc => lift ((applied he).trans (if_neg (Bool.eq_false_iff.1 hc))), ?_⟩
    intro he hc longest time
    have made : finishRecording w u = makeSetCapture w t v := (applied he).trans (if_pos hc)
    refine ⟨fun room => lift (made.trans (if_neg (Nat.not_le.2 room))), fun full k hk => lift (made.trans ((if_pos full).trans ?_))⟩
    exact sessionReport_open (s := v) hk

end Sys2Proof.Machine
end


section
/-! PROOFS. Captures are made and read (O48). -/

namespace Sys2Proof.Machine

section
variable {s : State} {e : CaptureEntry} {k : SlotIx} {r : ReadEnd}

/-! ### Making a capture -/

theorem changeEntry_captures (e : CaptureEntry) (s : State) : changeEntry e s =
    s.withCaptures (s.engine.captures.map fun y => if y.entry = e.entry then e else y) := rfl

theorem outcomeWaits_iff {take : Nat} : s.outcomeWaits take = true ↔ ∃ id o, .outcome take id o ∈ s.notices := by
  simp only [State.outcomeWaits, List.any_eq_true]
  constructor
  · rintro ⟨n, hn, h⟩
    split at h
    · next t id o => exact ⟨id, o, of_decide_eq_true h ▸ hn⟩
    · exact absurd h (by simp)
  · rintro ⟨id, o, hn⟩
    exact ⟨_, hn, by simp⟩

theorem captureExpiry_listed {entry : Nat} (he : (s.engine.captures.find? fun x => x.entry = entry) = some e) :
    exec (.captureExpiry entry) s =
      .next (if !e.reading && s.reached e.captureTime && !s.outcomeWaits e.take then makeCapture e s else s) := by
  show execCaptureExpiry entry s = _
  rw [execCaptureExpiry, he]

/-- R80: no READBACK is asked for while the part is HALTED. -/
theorem makeCapture_halted (hh : s.isHalted = true) : makeCapture e s = post (.captureComplete e.entry)
    (changeEntry { e with
      reading := true, slots := []
      items := e.items.map fun i =>
        { i with result := some (if s.channel i.channel = none then .absent else .halted) } } s) := by
  have items : e.items.map (haltedItem s) = e.items.map fun i =>
      { i with result := some (if s.channel i.channel = none then .absent else .halted) } := by
    refine List.map_congr_left fun i _ => ?_
    simp [haltedItem]
  rw [makeCapture, if_pos hh, items] <;> rfl

/-- R80, R81: the channels to be read are those whose record and slot are there. -/
theorem makeCapture_running (hh : s.isHalted = false) : makeCapture e s =
    let items := e.items.map (readableItem s)
    let slots := allSlots.filter fun k => !(items.filter fun i => i.awaits k).isEmpty
    let t := changeEntry { e with reading := true, items := items, slots := slots.map fun k => ⟨k, none⟩ }
      (postAll (slots.map fun k => .busRequest .applyEngine
        (.readback k (.capture e.entry) ((items.filter fun i => i.awaits k).map fun i => indexOfChan i.channel))) s)
    if slots = [] then post (.captureComplete e.entry) t else t := by
  have asked (items : List CaptureItem) : (allSlots.filter fun k => items.any fun i => i.awaits k) =
      allSlots.filter fun k => !(items.filter fun i => i.awaits k).isEmpty :=
    List.filter_congr fun k _ => by rw [Bool.eq_iff_iff]; simp
  have complete (slots : List SlotIx) (x : CaptureEntry) : CaptureEntry.complete { x with
      slots := slots.map fun k => ⟨k, none⟩ } = true ↔ slots = [] := by
    cases slots <;> simp [CaptureEntry.complete]
  rw [makeCapture, if_neg (Bool.eq_false_iff.1 hh)]
  simp only [asked, keepEntry]
  exact if_congr (complete _ { e with reading := true, items := e.items.map (readableItem s) }) rfl rfl

/-! ### The end of a READBACK -/

theorem awaits_iff {i : CaptureItem} : i.awaits k = true ↔ slotOfChan i.channel = k ∧ i.result = none := by
  simp [CaptureItem.awaits]

theorem mem_storeValues {i : CaptureItem} {items : List CaptureItem} (hi : i ∈ items) (hw : i.awaits k = false)
    (vs : List Int) : i ∈ storeValues k vs items := by
  induction items generalizing vs with
  | nil => cases hi
  | cons j items ih =>
    unfold storeValues
    obtain rfl | hi := List.mem_cons.1 hi
    · rw [if_neg (Bool.eq_false_iff.1 hw)]
      exact .head _
    · split
      · split
        · exact .tail _ (ih hi _)
        · exact .tail _ (ih hi _)
      · exact .tail _ (ih hi vs)

/-- R81: each value goes to the item at its place among those that wait. -/
theorem storeValues_values (items : List CaptureItem) (vs : List Int)
    (h : vs.length = (items.filter fun i => i.awaits k).length) :
    (storeValues k vs items).map (·.result) = items.map (·.result) ∧
    ((storeValues k vs items).filter fun i => i.awaits k).map (·.read) = vs.map some := by
  induction items generalizing vs with
  | nil =>
    obtain rfl := List.eq_nil_of_length_eq_zero h
    exact ⟨rfl, rfl⟩
  | cons i items ih =>
    unfold storeValues
    by_cases hw : i.awaits k = true
    · rw [if_pos hw]
      rw [List.filter_cons_of_pos (p := fun i : CaptureItem => i.awaits k) hw] at h
      cases vs with
      | nil => exact absurd h (by simp)
      | cons v vs =>
        obtain ⟨result, read⟩ := ih vs (by simpa using h)
        have hv : ({ i with read := some v } : CaptureItem).awaits k = true := hw
        refine ⟨congrArg (i.result :: ·) result, ?_⟩
        show ((({ i with read := some v } : CaptureItem) :: storeValues k vs items).filter fun i => i.awaits k).map (·.read) = _
        rw [List.filter_cons_of_pos (p := fun i : CaptureItem => i.awaits k) hv]
        exact congrArg (some v :: ·) read
    · rw [if_neg hw]
      rw [List.filter_cons_of_neg (p := fun i : CaptureItem => i.awaits k) hw] at h
      obtain ⟨result, read⟩ := ih vs h
      refine ⟨congrArg (i.result :: ·) result, ?_⟩
      rw [List.filter_cons_of_neg (p := fun i : CaptureItem => i.awaits k) hw]
      exact read

/-- R81: a READBACK that ended without an answer leaves its items ABSENT. -/
theorem endRead_lost (h : ∀ v, r ≠ .answered v) (items : List CaptureItem) : endRead k r items =
    items.map fun i => if i.awaits k then { i with result := some .absent } else i := by
  cases r with
  | answered v => exact absurd rfl (h v)
  | failed => rfl
  | removed => rfl

theorem mem_endRead {i : CaptureItem} {items : List CaptureItem} (hi : i ∈ items) (hw : i.awaits k = false)
    (r : ReadEnd) : i ∈ endRead k r items := by
  cases r with
  | answered v => exact mem_storeValues hi hw v
  | failed => exact List.mem_map.2 ⟨i, hi, if_neg (Bool.eq_false_iff.1 hw)⟩
  | removed => exact List.mem_map.2 ⟨i, hi, if_neg (Bool.eq_false_iff.1 hw)⟩

theorem takeReadEnd_eq (e : CaptureEntry) (k : SlotIx) (r : ReadEnd) (s : State) : takeReadEnd e k r s =
    let x : CaptureEntry := { e with
      items := endRead k r e.items
      slots := e.slots.map fun y => if y.slot = k then { y with ended := some s.clock.rig } else y }
    if ∀ y ∈ e.slots, y.slot = k ∨ y.ended ≠ none then post (.captureComplete e.entry) (changeEntry x s)
    else changeEntry x s := by
  refine if_congr ?_ rfl rfl
  simp only [CaptureEntry.complete, List.all_map, List.all_eq_true, Function.comp_apply]
  refine forall₂_congr fun y _ => ?_
  by_cases h : y.slot = k <;> simp [h, Option.isSome_iff_ne_none]

end

/-- Settles O48. -/
theorem capturesAreMadeAndRead : Obligations.CapturesAreMadeAndRead := by
  refine ⟨?_, fun entry e s he => ?_, ?_, ?_⟩
  · intro h first last n s a r
    refine ⟨fun bad => serve_eq a ?_, fun c d hc hd hcd => ⟨fun full => serve_eq a ?_, ?_⟩⟩
    · simp only [readbackBody, rangeOf_eq_none.2 bad]
      rfl
    · simp only [readbackBody, rangeOf_eq_some.2 ⟨hc, hd, hcd⟩]
      exact if_pos full
    · intro room channels e
      refine serve_eq a ?_
      simp only [readbackBody, rangeOf_eq_some.2 ⟨hc, hd, hcd⟩]
      exact if_neg (Nat.not_le.2 room)
  · have run := captureExpiry_listed he
    refine ⟨fun waiting reached taken => run.trans (congrArg _ (if_pos ?_)), fun early => run.trans (congrArg _ (if_neg ?_))⟩
    · have none : ¬ s.outcomeWaits e.take = true := fun h => by
        obtain ⟨id, o, hn⟩ := outcomeWaits_iff.1 h
        exact taken id o hn
      simp [waiting, State.reached, reached, none]
    · rw [← outcomeWaits_iff] at early
      obtain reading | early | waits := early
      · simp [reading]
      · simp [State.reached, Nat.not_le.2 early]
      · simp [waits]
  · intro e s swap
    refine ⟨fun hh => makeCapture_halted hh, ?_⟩
    intro hh absent items due slots t
    exact makeCapture_running hh
  · intro entry k r e s hh he waits x t
    have dec (i : CaptureItem) : decide (waits i) = i.awaits k := by
      rw [Bool.eq_iff_iff, decide_eq_true_eq, awaits_iff]
    refine ⟨?_, fun i hi hw => mem_endRead hi ?_ r, fun lost => (endRead_lost lost e.items).trans ?_, fun v answered hv => ?_⟩
    · refine congrArg Host.Outcome.next (onNotice_some hh ?_)
      show (match s.engine.captures.find? fun e => e.entry = entry with
        | some e => some (takeReadEnd e k r (dropNotice (.readEnd entry k) s))
        | none => some _) = _
      rw [he]
      exact congrArg some (takeReadEnd_eq e k r _)
    · exact Bool.eq_false_iff.2 fun h => hw (awaits_iff.1 h)
    · exact List.map_congr_left fun i _ => if_congr awaits_iff rfl rfl
    · subst answered
      simp only [dec] at hv ⊢
      exact storeValues_values e.items v hv

end Sys2Proof.Machine
end


section
/-! PROOFS. The Claim Unit takes the items of a capture (O49). -/

namespace Sys2Proof.Machine

section
variable {s : State} {e : CaptureEntry} {i : CaptureItem} {x : Channel}

/-- A channel changed twice. -/
theorem changeChannel_twice {c : ChanIx} (hx : s.channel c = some x) (f g : Channel → Channel) :
    changeChannel c g (changeChannel c f s) = s.withChannels (s.claims.channels.put c (some (g (f x)))) := by
  have first : changeChannel c f s = s.withChannels (s.claims.channels.put c (some (f x))) := changeChannel_present hx f
  have now : (s.withChannels (s.claims.channels.put c (some (f x)))).channel c = some (f x) := by
    show (s.claims.channels.put c (some (f x))).get c = _
    rw [Table.get_put, if_pos rfl]
  rw [first, changeChannel_present now]
  have twice : (s.claims.channels.put c (some (f x))).put c (some (g (f x))) = s.claims.channels.put c (some (g (f x))) :=
    Table.ext_get fun j => by
      simp only [Table.get_put]
      split <;> rfl
  show s.withClaims { s.claims with channels := (s.claims.channels.put c (some (f x))).put c (some (g (f x))) } = _
  rw [twice]
  rfl

/-- R82: the result an item is taken with. -/
def CaptureItem.resultFor (i : CaptureItem) (e : CaptureEntry) (s : State) : CaptureResult :=
  i.result.getD (captureResultOf e.setId (s.channel i.channel) s.isHalted)

theorem takeItem_eq (done : List CapturedItem) : takeItem e (s, done) i =
    (if i.resultFor e s = .value then recordReading e i (i.read.getD 0) s else s,
      done ++ [⟨i.channel, i.resultFor e s, if i.resultFor e s = .value then i.read.getD 0 else 0⟩]) := by
  unfold takeItem CaptureItem.resultFor
  cases i.result <;> rfl

/-- R82: an item with another result than VALUE. -/
theorem takeItem_without {r : CaptureResult} (done : List CapturedItem) (hr : r ≠ .value) (h : i.resultFor e s = r) :
    takeItem e (s, done) i = (s, done ++ [⟨i.channel, r, 0⟩]) := by
  rw [takeItem_eq, h, if_neg hr, if_neg hr]

theorem readTimeOf_eq (e : CaptureEntry) (c : ChanIx) :
    readTimeOf e c = ((e.slots.find? fun y => y.slot = slotOfChan c).bind (·.ended)).getD 0 := by
  unfold readTimeOf
  split
  · next h => rw [h] <;> rfl
  · next h => rw [h] <;> rfl

/-- R82: the channel still carries what the capture reads. -/
theorem captureResultOf_value (hh : s.isHalted = false) (hx : s.channel i.channel = some x)
    (h : e.setId = 0 ∨ x.appliedBy = some e.setId) : captureResultOf e.setId (s.channel i.channel) s.isHalted = .value := by
  rw [hx, hh]
  have : ¬ ((decide (e.setId ≠ 0) && decide (x.appliedBy ≠ some e.setId)) = true) := by
    obtain h | h := h <;> simp [h]
  simp only [captureResultOf, if_neg this] <;> rfl

theorem takeItem_value {v : Int} (done : List CapturedItem) (hr : i.result = none) (hh : s.isHalted = false)
    (hx : s.channel i.channel = some x) (h : e.setId = 0 ∨ x.appliedBy = some e.setId) (hv : i.read = some v) :
    takeItem e (s, done) i = (recordReading e i v s, done ++ [⟨i.channel, .value, v⟩]) := by
  have value : i.resultFor e s = .value := by
    rw [CaptureItem.resultFor, hr]
    exact captureResultOf_value hh hx h
  rw [takeItem_eq, value, if_pos rfl, if_pos rfl, hv] <;> rfl

/-- R82, R83: a value inside the tolerance is recorded. -/
theorem recordReading_inside {v : Int} (hx : s.channel i.channel = some x) (h : deviates x i.target v = false) :
    recordReading e i v s = s.withChannels (s.claims.channels.put i.channel
      (some { x with lastReadback := some (v, readTimeOf e i.channel) })) := by
  simp only [recordReading, hx, h]
  exact changeChannel_present hx _

theorem recordReading_outside {v : Int} (hx : s.channel i.channel = some x) (h : deviates x i.target v = true) :
    recordReading e i v s = post (.report .applyEngine none (.deviation
      { channel := i.channel, setId := e.setId, target := i.target.getD 0, read := v, tolerance := x.tolerance
        readTime := readTimeOf e i.channel }))
      (s.withChannels (s.claims.channels.put i.channel
        (some { x with lastReadback := some (v, readTimeOf e i.channel), deviation := true }))) := by
  simp only [recordReading, hx, h, if_true, changeChannel_twice hx]
  rfl

/-- R82, R83: the entry leaves with its report. -/
theorem takeCapture_open {k : Session} (hk : s.session e.owner = some k) : takeCapture e s =
    let taken := e.items.foldl (takeItem e) (s, [])
    post (.report .applyEngine (some (e.owner, k.incarnation))
      (.capture { setId := e.setId, tag := e.tag, refTime := e.refTime, captureTime := e.captureTime, items := taken.2 }))
      (taken.1.withCaptures (s.engine.captures.filter fun x => x.entry ≠ e.entry)) := by
  let taken := e.items.foldl (takeItem e) (s, [])
  have frame : OnlyChanges [.claims, .notices] s taken.1 := (only_takeItems (by simp) (by simp) e (s, []) e.items).2 (.refl _ s)
  have engine : taken.1.engine = s.engine := frame .engine (by simp)
  have session : taken.1.session e.owner = some k :=
    (congrArg (fun t : SessionTable => t.records.get e.owner) (frame .sessions (by simp))).trans hk
  refine (sessionReport_open (s := taken.1.withEngine
    { taken.1.engine with captures := taken.1.engine.captures.filter fun x => x.entry ≠ e.entry }) session).trans ?_
  rw [← engine]
  rfl

end

/-- Settles O49. -/
theorem captureItemsAreTaken : Obligations.CaptureItemsAreTaken := by
  refine ⟨?_, fun e s done i => ⟨fun r hr hv => takeItem_without done hv (by rw [CaptureItem.resultFor, hr] <;> rfl), fun hr hx => ?_, fun x hr hx =>
    ⟨fun hh => ?_, fun hh hs ha => ?_, ?_⟩⟩⟩
  · intro entry e k s hh he hk taken
    refine congrArg Host.Outcome.next (onNotice_some hh ?_)
    show (match s.engine.captures.find? fun e => e.entry = entry with
      | some e => some (takeCapture e (dropNotice (.captureComplete entry) s))
      | none => some _) = _
    rw [he]
    have found := List.find?_some he
    have same : entry = e.entry := (of_decide_eq_true found).symm
    subst same
    exact congrArg some (takeCapture_open (s := dropNotice (.captureComplete e.entry) s) hk)
  · refine takeItem_without done (by decide) ?_
    rw [CaptureItem.resultFor, hr, hx] <;> rfl
  · refine takeItem_without done (by decide) ?_
    rw [CaptureItem.resultFor, hr, hx, hh] <;> rfl
  · refine takeItem_without done (by decide) ?_
    rw [CaptureItem.resultFor, hr, hx, hh]
    simp [captureResultOf, hs, ha]
  · intro v hh mine hv readAt keep items
    have at' : readTimeOf e i.channel = readAt := readTimeOf_eq e i.channel
    have run := takeItem_value (e := e) done hr hh hx mine hv
    refine ⟨fun ht => ?_, fun g ht => ⟨fun inside => ?_, fun outside => ?_⟩⟩
    · rw [run, recordReading_inside hx (by simp [deviates, ht]), at']
    · rw [run, recordReading_inside hx (by simpa [deviates, ht] using inside), at']
    · rw [run, recordReading_outside hx (by simpa [deviates, ht] using outside), at', ht] <;> rfl

end Sys2Proof.Machine
end


section
/-! PROOFS. Trigger lines and SYNC_OUT (O50). -/

namespace Sys2Proof.Machine

section
variable {s : State} {l : TrigLine} {x y : TrigRec}

theorem withTrig_withTrig : (s.withTrig l x).withTrig l y = s.withTrig l y := by cases l <;> rfl

/-! ### Transitions and edges -/

/-- R103: the edges that a line acts on. -/
def Acted (r : TrigRec) : Prop :=
  r.enabled = true ∧ (r.edge = .both ∨ r.qualified = .low ∧ r.edge = .rising ∨ ¬ r.qualified = .low ∧ r.edge = .falling)

theorem acted_iff {r : TrigRec} : (r.enabled && edgeMatches r.edge (flipLevel r.qualified)) = true ↔ Acted r := by
  rw [Bool.and_eq_true]
  refine and_congr_right fun _ => ?_
  cases r.edge <;> cases r.qualified <;> decide

theorem flipLevel_eq (v : Level) : flipLevel v = if v = .low then .high else .low := by cases v <;> rfl

theorem qualify_acted {stamp : Nat} (h : Acted (s.trig l)) : qualify l stamp s = post (.edge l stamp s.trigger.halted.isSome)
    (s.withTrig l { s.trig l with
      qualified := if (s.trig l).qualified = .low then .high else .low, candidate := none, timer := none
      count := ((s.trig l).count + 1) % 2 ^ 32, lastStamp := some stamp }) := by
  rw [qualify, if_pos (acted_iff.2 h), flipLevel_eq] <;> rfl

theorem qualify_notActed {stamp : Nat} (h : ¬ Acted (s.trig l)) : qualify l stamp s = s.withTrig l { s.trig l with
    qualified := if (s.trig l).qualified = .low then .high else .low, candidate := none, timer := none } := by
  rw [qualify, if_neg (mt acted_iff.1 h), flipLevel_eq]

theorem transition_resting {level : Level} (hc : (s.trig l).candidate = none) : transition l level s =
    if level = (s.trig l).qualified then s
    else if (s.trig l).debounce = .off then qualify l s.clock.rig s
    else s.withTrig l { s.trig l with
      candidate := some s.clock.rig, timer := some (s.clock.uptime + debounceTime (s.trig l).debounce) } := by
  simp only [transition, hc]
  rfl

theorem transition_qualifying {level : Level} (hc : (s.trig l).candidate ≠ none) : transition l level s =
    if level = (s.trig l).qualified then s.withTrig l { s.trig l with candidate := none, timer := none } else s := by
  obtain ⟨c, hc⟩ := Option.ne_none_iff_exists'.1 hc
  simp only [transition, hc]

theorem exec_qualificationTimerExpiry {stamp t : Nat} (hc : (s.trig l).candidate = some stamp)
    (ht : (s.trig l).timer = some t) :
    exec (.qualificationTimerExpiry l) s = .next (if t ≤ s.clock.uptime then qualify l stamp s else s) := by
  show execQualificationTimerExpiry l s = _
  simp only [execQualificationTimerExpiry, hc, ht, State.elapsed, decide_eq_true_eq]

/-! ### TRIGGER_CONFIG -/

theorem configured_eq (r : TrigRec) (enabled clear : Byte) (e : Edge) (d : Debounce) :
    configured r (flagSet enabled) e d (flagSet clear) = { r with
      enabled := decide (enabled = 1), edge := e, debounce := d
      count := if clear = 1 then 0 else r.count, lastStamp := if clear = 1 then none else r.lastStamp } := by
  simp only [configured, flagSet, decide_eq_true_eq]

theorem requalify_resting (h : y.candidate = none) : requalify l (s.withTrig l y) = s.withTrig l y := by
  simp [requalify, h]

/-- R104: a qualification in progress under a new debounce. -/
theorem requalify_qualifying {c : Nat} (h : y.candidate = some c) : requalify l (s.withTrig l y) =
    if y.debounce = .off ∨ c + debounceTime y.debounce < s.clock.rig then qualify l c (s.withTrig l y)
    else s.withTrig l { y with timer := some (s.clock.uptime + (c + debounceTime y.debounce - s.clock.rig)) } := by
  have clock : (s.withTrig l y).clock = s.clock := by cases l <;> rfl
  have now : (s.withTrig l y).trig l = y := (State.trig_withTrig ..).trans (if_pos rfl)
  unfold requalify
  rw [now]
  simp only [h]
  rw [clock, withTrig_withTrig, State.instant, clock]

theorem triggerOrder_foreign {n : SessionIx} : ((triggerOrder l s).any fun x => decide (x.owner ≠ n)) = true ↔
    ∃ x ∈ s.sets, x.state = .pending ∧ x.due = .trigger l ∧ x.owner ≠ n := by
  simp only [triggerOrder, List.any_eq_true, List.mem_filter, Bool.and_eq_true, decide_eq_true_eq]
  exact exists_congr fun x => ⟨fun ⟨⟨hx, hs, hd⟩, ho⟩ => ⟨hx, hs, hd, ho⟩, fun ⟨hx, hs, hd, ho⟩ => ⟨⟨hx, hs, hd⟩, ho⟩⟩

/-- R104: TRIGGER_CONFIG with sound codes. -/
theorem triggerConfigBody_eq {h : Header} {line enabled edge debounce clear : Byte} {n : SessionIx} {e : Edge} {d : Debounce}
    (hl : trigLineOf line = some l) (he : edgeOf edge = some e) (hd : debounceOf debounce = some d) :
    triggerConfigBody h line enabled edge debounce clear n s =
      if ((triggerOrder l s).any fun x => decide (x.owner ≠ n)) then
        refuse h (.triggerConfig line enabled edge debounce clear) .lineInUse s
      else
        let t := requalify l (s.withTrig l (configured (s.trig l) (flagSet enabled) e d (flagSet clear)))
        answer h (.triggerConfig line enabled edge debounce clear) (doneWith (triggerSettings (t.trig l))) t := by
  simp only [triggerConfigBody, hl, he, hd]

/-! ### SYNC_OUT -/

theorem inactiveLevel_eq (p : Polarity) : inactiveLevel p = if p = .activeHigh then .low else .high := by cases p <;> rfl

theorem activeLevel_eq (p : Polarity) : flipLevel (inactiveLevel p) = if p = .activeHigh then .high else .low := by
  cases p <;> rfl

theorem polarityCode_of_polarityOf {b : Byte} {p : Polarity} (h : polarityOf b = some p) : u8 (polarityCode p) = [b] := by
  unfold polarityOf at h
  split at h <;> cases h
  · next e => exact congrArg ([·]) (BitVec.eq_of_toNat_eq e.symm)
  · next e => exact congrArg ([·]) (BitVec.eq_of_toNat_eq e.symm)

end

/-- Settles O50. -/
theorem triggerAndSyncLinesFollowTheirRules : Obligations.TriggerAndSyncLinesFollowTheirRules := by
  refine ⟨?_, fun l stamp t s hc ht => exec_qualificationTimerExpiry hc ht, ?_, ?_, ?_, fun p s hp => ?_, rfl, ?_⟩
  · intro l level s r
    have lift {t : State} (h : transition l level s = t) : exec (.trigTransition l level) s = .next t := congrArg _ h
    refine ⟨fun hc hl => lift ?_, fun hc hl hd => lift ?_, fun hc hl hd => lift ?_, fun hc hl => lift ?_, fun hc hl => lift ?_⟩
    · rw [transition_resting hc, if_pos hl]
    · rw [transition_resting hc, if_neg hl, if_pos hd]
    · rw [transition_resting hc, if_neg hl, if_neg hd]
    · rw [transition_qualifying hc, if_pos hl]
    · rw [transition_qualifying hc, if_neg hl]
  · intro l stamp s r rising acted q
    exact ⟨fun h => qualify_acted h, fun h => qualify_notActed h⟩
  · intro h line enabled edge debounce clear n s r i
    refine ⟨fun hi hs bad => serve_refuseBadField hi hs rfl fun ok => absurd bad ?_, ?_⟩
    · simp only [encodingOk, Bool.and_eq_true, Option.isSome_iff_ne_none] at ok
      obtain ⟨⟨⟨⟨hl, hf⟩, he⟩, hd⟩, hc⟩ := ok
      exact fun bad => bad.elim hl (·.elim hf (·.elim he (·.elim hd hc)))
    · intro l e d a hl he hd foreign x y u reply
      have body := triggerConfigBody_eq (s := s) (h := h) (enabled := enabled) (clear := clear) (n := n) hl he hd
      rw [configured_eq] at body
      have done {t : State} (ho : ¬ foreign) (ht : requalify l u = t) : exec i s = reply t :=
        serve_eq a (body.trans ((if_neg (mt triggerOrder_foreign.1 ho)).trans (by rw [← ht] <;> rfl)))
      refine ⟨fun ho => serve_eq a (body.trans (if_pos (triggerOrder_foreign.2 ho))),
        fun ho hc => done ho (requalify_resting (y := y) hc), fun c ho hc => ⟨fun late => done ho ?_, fun on early => done ho ?_⟩⟩
      · exact (requalify_qualifying (y := y) hc).trans (if_pos late)
      · exact (requalify_qualifying (y := y) hc).trans (if_neg fun late => late.elim on (Nat.not_lt.2 early))
  · intro time s hh u x keep
    have run : exec .syncCommitNotice s = .next (syncCommit time u) := congrArg Host.Outcome.next (onNotice_some hh rfl)
    refine ⟨fun hp => run.trans (congrArg _ ?_), fun p hp => run.trans (congrArg _ ?_)⟩
    · have hp : u.trigger.sync.pulse = none := hp
      simp only [syncCommit, hp]
      rw [activeLevel_eq] <;> rfl
    · have hp : u.trigger.sync.pulse = some p := hp
      simp only [syncCommit, hp]
      rfl
  · show execPulseEnd s = _
    simp only [execPulseEnd, hp, State.reached, decide_eq_true_eq, inactiveLevel_eq]
    rfl
  · intro h polarity width n s r
    refine ⟨fun hi hs bad => serve_refuseBadField hi hs rfl fun _ => ?_, fun p a hp low high => serve_eq a ?_⟩
    · unfold syncConfigBody
      split
      · rfl
      · next p hp => exact if_pos (bad.resolve_left (by rw [hp]; simp))
    · have range : ¬ (width.toNat < 1 ∨ 1000 < width.toNat) := by omega
      simp only [syncConfigBody, hp, if_neg range]
      rw [polarityCode_of_polarityOf hp, inactiveLevel_eq]
      cases s.trigger.sync.pulse <;> rfl

end Sys2Proof.Machine
end


section
/-! PROOFS. Halt is entered and left (O51). -/

namespace Sys2Proof.Machine

section
variable {s t : State} {h : Header} {n : SessionIx}

theorem anyOpen_iff : s.anyOpen = true ↔ ∃ m, (s.session m).isSome = true := by
  simp [State.anyOpen, allSessions]

/-- A request's session is OPEN. -/
theorem anyOpen_of_boundSession (hs : boundSession h s = some n) : s.anyOpen = true := by
  refine anyOpen_iff.2 ⟨n, ?_⟩
  unfold boundSession at hs
  split at hs
  · cases hs
  · split at hs
    · next k hk =>
      split at hs
      · rw [← Option.some.inj hs, hk] <;> rfl
      · cases hs
    · cases hs

/-- R109, R113: what halt entry hands over. -/
def haltEntered (c : HaltCause) (n : Option SessionIx) (s t : State) : State :=
  (t.withTrigger { t.trigger with halted := some ⟨c, s.clock.rig⟩ }).withNotices (t.notices ++
    [.haltEntry .schedule (some s.clock.rig), .haltEntry .cycleUnit (some s.clock.rig),
     .haltEntry .applyEngine (some s.clock.rig), .haltEntry .claimUnit (some s.clock.rig),
     .haltEntry .busController (some s.clock.rig)] ++
    if ∃ m, (s.session m).isSome = true then [.report .triggerUnit none (.haltChange
       { cause := some c, session := n, eventTime := s.clock.rig })] else [])

theorem enterHalt_eq (c : HaltCause) (hc : t.clock = s.clock) (ho : t.anyOpen = s.anyOpen) :
    enterHalt c t = haltEntered c c.session s t := by
  have same : (haltFrom c t).anyOpen = s.anyOpen := ho
  unfold haltEntered
  rw [← hc]
  cases hs : s.anyOpen with
  | false =>
    rw [if_neg (mt anyOpen_iff.2 (by simp [hs])), List.append_nil]
    exact haltReport_closed (same.trans hs) (some c) c.session
  | true =>
    rw [if_pos (anyOpen_iff.1 hs)]
    refine (haltReport_open (same.trans hs) (some c) c.session).trans ?_
    rfl

theorem exec_haltMonitorTimerExpiry {v : Nat} (hm : s.trigger.monitor = .qualifying v) : exec .haltMonitorTimerExpiry s =
    .next (if s.elapsed v then if (s.withMonitor .asserted).isHalted then s.withMonitor .asserted
      else enterHalt .line (s.withMonitor .asserted) else s) := by
  show execHaltMonitorTimerExpiry s = _
  simp only [execHaltMonitorTimerExpiry, hm]
  rfl

theorem isHalted_iff : s.isHalted = true ↔ s.trigger.halted ≠ none := Option.isSome_iff_ne_none

/-- R110: the reply about a part that was HALTED already. -/
theorem haltReply_eq (entered : Bool) (x : Halted) : haltReply entered (some x) =
    doneWith (wFlag entered ++ u8 1 ++ u8 (haltCauseCode x.cause) ++ u8 1 ++ u48 x.time) := rfl

end

/-- Settles O51. -/
theorem haltIsEnteredAndLeft : Obligations.HaltIsEnteredAndLeft := by
  intro s enter monitor
  refine ⟨?_, rfl, fun v hm => ?_, fun h n a => ⟨fun hh => ?_, fun x hh => ?_⟩,
    fun h n a => ⟨fun hh => ?_, fun hh hm => ?_, fun hh hm => ?_⟩⟩
  · show execHaltLineAssert s = _
    unfold execHaltLineAssert
    cases hm : s.trigger.monitor <;> rfl
  · have run := exec_haltMonitorTimerExpiry hm
    have halted : (s.withMonitor .asserted).isHalted = s.isHalted := rfl
    refine ⟨fun early => run.trans (congrArg _ ?_), fun due hh => run.trans (congrArg _ ?_), fun due hh => run.trans (congrArg _ ?_)⟩
    · exact if_neg (by simp [State.elapsed, Nat.not_le.2 early])
    · rw [if_pos (by simpa [State.elapsed] using due), if_neg fun e => isHalted_iff.1 (halted ▸ e) hh]
      exact enterHalt_eq .line rfl rfl
    · rw [if_pos (by simpa [State.elapsed] using due), if_pos (halted.trans (isHalted_iff.2 hh))] <;> rfl
  · refine serve_eq a ?_
    simp only [haltNowBody, hh, haltReply_eq]
    rw [enterHalt_eq (s := s) (.request n) rfl rfl]
    rfl
  · refine serve_eq a ?_
    simp only [haltNowBody, hh, haltReply_eq]
    rfl
  · refine serve_eq a ?_
    simp only [resumeBody, hh]
  · refine serve_eq a ?_
    obtain ⟨x, hx⟩ := Option.ne_none_iff_exists'.1 hh
    simp only [resumeBody, hx]
    split
    · next e => exact absurd e hm
    · rfl
    · rfl
  · refine serve_eq a ?_
    have still : (s.withTrigger { s.trigger with halted := none }).anyOpen = true := anyOpen_of_boundSession a.session
    unfold resumeBody
    split
    · next e => exact absurd e hh
    · split
      · rw [haltReport_open still] <;> rfl
      · next e => exact absurd (e.symm.trans hm) nofun
      · next e => exact absurd (e.symm.trans hm) nofun

end Sys2Proof.Machine
end


section
/-! PROOFS. Changes of a slot's state (O52) and the slot's lines, timers and failures (O53). -/

namespace Sys2Proof.Machine

section
variable {s : State} {k : SlotIx} {y : Slot} {f : FaultReason}

theorem slot_putSlot (s : State) (k : SlotIx) (y : Slot) : (s.withSlot k y).slot k = y :=
  (State.slot_withSlot ..).trans (if_pos rfl)

/-! ### A new state -/

/-- R117: the record with its state time. -/
def Slot.at (y : Slot) (s : State) : Slot := { y with stateTime := s.clock.rig }

/-- R131. -/
def slotChanged (k : SlotIx) (held : Bool) (y : Slot) (s : State) : Notice :=
  .report .slotController none (slotChangeOf k (s.slot k).state held (y.at s) s.clock.rig)

theorem enterState_eq (k : SlotIx) (held : Bool) (y : Slot) (s : State) : enterState k held y s =
    (s.withSlot k (y.at s)).withNotices (s.notices ++ [slotChanged k held y s]) := rfl

/-- R121: who is told that a slot has left a powered state. -/
def leftNotices (k : SlotIx) (s : State) : List Notice :=
  [.slotLeftPowered k] ++
    (if (s.slot k).state = .ready then [.slotLeftReady k] ++
      (match s.engine.work with
        | some w => if w.slots.any (fun y => y.slot = k) then [.engineSlotLost k w.take] else []
        | none => []) else [])

theorem leavePowered_eq (k : SlotIx) (s : State) :
    leavePowered k s = (s.withModule k Module.off).withNotices (s.notices ++ leftNotices k s) := by
  unfold leavePowered leftNotices
  cases hw : s.engine.work with
  | none =>
    split
    · exact congrArg (s.withModule k Module.off).withNotices (List.append_assoc ..)
    · rfl
  | some w =>
    dsimp only
    split
    · split
      · show (s.withModule k Module.off).withNotices (((s.notices ++ [_]) ++ [_]) ++ [_]) = _
        rw [List.append_assoc, List.append_assoc] <;> rfl
      · exact congrArg (s.withModule k Module.off).withNotices (List.append_assoc ..)
    · rfl

theorem moveTo_unpowered (y : Slot) (h : (s.slot k).state.powered = false) : moveTo k y s =
    (s.withSlot k (y.at s)).withNotices (s.notices ++ [slotChanged k false y s]) := by
  rw [moveTo, h] <;> rfl

theorem moveTo_powered (y : Slot) (h : (s.slot k).state.powered = true) : moveTo k y s =
    ((s.withSlot k (y.at s)).withModule k Module.off).withNotices (s.notices ++ leftNotices k s ++ [slotChanged k false y s]) := by
  rw [moveTo, if_pos h, leavePowered_eq] <;> rfl

theorem slots_moveTo (k : SlotIx) (y : Slot) (s : State) : (moveTo k y s).slots = s.slots.put k (y.at s) := by
  cases h : (s.slot k).state.powered with
  | false => rw [moveTo_unpowered y h] <;> rfl
  | true => rw [moveTo_powered y h] <;> rfl

theorem slot_moveTo (k : SlotIx) (y : Slot) (s : State) : (moveTo k y s).slot k = y.at s := by
  rw [State.slot, slots_moveTo, Table.get_put, if_pos rfl]

theorem slot_identify (k : SlotIx) (s : State) : (identify k s).slot k =
    ({ s.slot k with state := .identifying, powerTimer := none, ident := (s.slot k).ident + 1 } : Slot).at s :=
  slot_putSlot s k _

/-! ### Power-up -/

/-- R119: the slot is POWERING and its inputs have not been looked at. -/
def poweredUp (k : SlotIx) (rail : Rail) (s : State) : State :=
  let z := (s.slot k).toPowering rail (s.instant powerTime)
  ((s.withSlot k (z.at s)).withModule k Module.fresh).withNotices (s.notices ++ [slotChanged k false z s, .slotPowered k])

theorem powerUp_eq (k : SlotIx) (rail : Rail) (s : State) : powerUp k rail s = takeAsserted k (poweredUp k rail s) := by
  refine congrArg (takeAsserted k) ?_
  exact congrArg ((s.withSlot k (((s.slot k).toPowering rail (s.instant powerTime)).at s)).withModule k Module.fresh).withNotices
    (List.append_assoc ..)

theorem slot_poweredUp (k : SlotIx) (rail : Rail) (s : State) : (poweredUp k rail s).slot k =
    ((s.slot k).toPowering rail (s.instant powerTime)).at s := slot_putSlot s k _

/-- R120: an overcurrent on a powered slot ends in FAULT without power. -/
def OvercurrentFault (k : SlotIx) (t : State) : Prop :=
  (t.slot k).state = .fault ∧ (t.slot k).fault = some .overcurrent ∧ (t.slot k).enable = none

theorem takeOvercurrent_powered (h : (s.slot k).state.powered = true) : OvercurrentFault k (takeOvercurrent k s) := by
  rw [takeOvercurrent, if_pos h, faultSlot, OvercurrentFault, slot_moveTo]
  exact ⟨rfl, rfl, rfl⟩

theorem takeAsserted_none (hp : (s.slot k).powerGood = false) (ho : (s.slot k).overcurrent = false) :
    takeAsserted k s = s := by simp only [takeAsserted, hp, ho]

theorem takeAsserted_powerGood (hs : (s.slot k).state = .powering) (hp : (s.slot k).powerGood = true)
    (ho : (s.slot k).overcurrent = false) : takeAsserted k s = identify k s := by
  simp only [takeAsserted, hp, ho, takePowerGood, hs, if_true]

/-- R122: whichever input is taken first, an overcurrent ends in FAULT. -/
theorem takeAsserted_overcurrent (hs : (s.slot k).state = .powering) (ho : (s.slot k).overcurrent = true) :
    OvercurrentFault k (takeAsserted k s) := by
  unfold takeAsserted
  dsimp only
  rw [ho]
  cases hp : (s.slot k).powerGood with
  | false => exact takeOvercurrent_powered (by rw [hs] <;> rfl)
  | true =>
    let t := s.withFree (s.free + 1)
    have hs : (t.slot k).state = .powering := hs
    dsimp only
    split
    · have fault := takeOvercurrent_powered (s := t) (k := k) (by rw [hs] <;> rfl)
      rwa [takePowerGood, if_neg (by rw [fault.1]; nofun)]
    · rw [takePowerGood, if_pos hs]
      refine takeOvercurrent_powered ?_
      rw [slot_identify] <;> rfl

end

/-- Settles O52. -/
theorem slotsChangeState : Obligations.SlotsChangeState := by
  intro k s x change off bare
  refine ⟨?_, rfl, fun f => rfl, ?_, ?_⟩
  · intro y z t
    refine ⟨(only_moveTo (by simp) (by simp) (by simp) k y).2 (.refl _ s), slots_moveTo k y s, fun h => ?_, fun h => ?_⟩
    · have run : t = _ := moveTo_unpowered y h
      rw [run]
      exact ⟨rfl, rfl⟩
    · have run : t = _ := moveTo_powered y h
      rw [run]
      refine ⟨rfl, ?_⟩
      show s.notices ++ leftNotices k s ++ _ = _
      rw [leftNotices, ← List.append_assoc s.notices]
      rfl
  · intro rail z t u
    have run : t = takeAsserted k u := powerUp_eq k rail s
    have slot : u.slot k = z := slot_poweredUp k rail s
    have state : (u.slot k).state = .powering := by rw [slot]
    have good : (u.slot k).powerGood = x.powerGood := by rw [slot]
    have over' : (u.slot k).overcurrent = x.overcurrent := by rw [slot]
    exact ⟨fun hp ho => run.trans (takeAsserted_none (good.trans hp) (over'.trans ho)),
      fun hp ho => run.trans (takeAsserted_powerGood state (good.trans hp) (over'.trans ho)),
      fun ho => run ▸ takeAsserted_overcurrent state (over'.trans ho)⟩
  · unfold judge
    rfl

/-! ### Lines, timers and failures -/

section
variable {s : State} {k : SlotIx}

theorem identified_iff {x : SlotState} : x.identified = true ↔ x = .identifying ∨ x = .ready := by
  cases x <;> simp [SlotState.identified]

theorem powered_iff {x : SlotState} : x.powered = true ↔ x = .powering ∨ x = .identifying ∨ x = .ready := by
  cases x <;> simp [SlotState.powered]

/-- R117, R118, R129: a change of reading by the slot's state. -/
theorem takeReading_table (k : SlotIx) (s : State) :
    let x := s.slot k
    (x.state = .empty → x.reading ≠ .vacant → takeReading k s = settle k s) ∧
    (x.state = .settling → takeReading k s = s.withSlot k { x with settleTimer := some (s.clock.uptime + 50000) }) ∧
    (x.state.powered = true → x.reading = .vacant → takeReading k s = moveTo k x.toEmpty s) ∧
    (x.state.powered = true → x.reading ≠ .vacant → takeReading k s = settle k s) ∧
    (x.state = .fault → x.reading = .vacant → takeReading k s = moveTo k x.toEmpty s) ∧
    (x.state = .fault → x.reading ≠ .vacant → takeReading k s = s) ∧
    (x.state = .disabled → takeReading k s = s) := by
  intro x
  have powered (h : x.state.powered = true) :
      takeReading k s = if x.reading = .vacant then moveTo k x.toEmpty s else settle k s := by
    obtain h | h | h := powered_iff.1 h <;> simp only [takeReading, x] at h ⊢ <;> simp only [h]
  refine ⟨fun h hr => ?_, fun h => ?_, fun h hr => (powered h).trans (if_pos hr), fun h hr => (powered h).trans (if_neg hr),
    fun h hr => ?_, fun h hr => ?_, fun h => ?_⟩
  · simp only [takeReading, show (s.slot k).state = .empty from h]
    exact if_neg hr
  · unfold takeReading
    dsimp only
    split
    case h_2 => rfl
    all_goals next e => exact absurd (e.symm.trans h) (by decide)
  · simp only [takeReading, show (s.slot k).state = .fault from h]
    exact if_pos hr
  · simp only [takeReading, show (s.slot k).state = .fault from h]
    exact if_neg hr
  · simp only [takeReading, show (s.slot k).state = .disabled from h]

theorem withSlot_withSlot (s : State) (k : SlotIx) (x y : Slot) : (s.withSlot k x).withSlot k y = s.withSlot k y := by
  refine congrArg s.withSlots (Table.ext_get fun j => ?_)
  show ((s.slots.put k x).put k y).get j = _
  simp only [Table.get_put]
  split <;> rfl

end

/-- Settles O53. -/
theorem slotLinesFollowTheTable : Obligations.SlotLinesFollowTheTable := by
  intro k s x empty
  refine ⟨?_, fun v hs ht => ?_, ?_, fun v hs ht => ?_, ?_, ?_, fun hh => ?_⟩
  · intro sense r y u i
    have slot : u.slot k = y := slot_putSlot s k y
    refine ⟨fun same => congrArg Host.Outcome.next (if_pos same), fun changed => ?_⟩
    have run : exec i s = .next (takeReading k u) := congrArg Host.Outcome.next (if_neg changed)
    obtain ⟨fromEmpty, settling, gone, moved, faultGone, fault, disabled⟩ := takeReading_table k u
    rw [slot] at fromEmpty settling gone moved faultGone fault disabled
    have emptied : moveTo k y.toEmpty u = empty u := by
      show _ = moveTo k (u.slot k).toEmpty u
      rw [slot]
    refine ⟨fun h hr => run.trans (congrArg _ (fromEmpty h hr)), fun h => run.trans (congrArg _ ((settling h).trans ?_)),
      fun h hr => run.trans (congrArg _ ((gone h hr).trans emptied)), fun h hr => run.trans (congrArg _ (moved h hr)),
      fun h hr => run.trans (congrArg _ ((faultGone h hr).trans emptied)), fun h hr => run.trans (congrArg _ (fault h hr)),
      fun h => run.trans (congrArg _ (disabled h))⟩
    exact withSlot_withSlot ..
  · show execSettleTimerExpiry k s = _
    simp only [execSettleTimerExpiry, show (s.slot k).state = .settling from hs, show (s.slot k).settleTimer = some v from ht,
      State.elapsed, decide_eq_true_eq]
  · intro u
    have slot : u.slot k = { x with powerGood := true } := slot_putSlot ..
    have state : (u.slot k).state = x.state := by rw [slot]
    show Host.Outcome.next (takePowerGood k u) = _
    rw [takePowerGood, state]
  · show execPowerGoodTimerExpiry k s = _
    simp only [execPowerGoodTimerExpiry, show (s.slot k).state = .powering from hs, show (s.slot k).powerTimer = some v from ht,
      State.elapsed, decide_eq_true_eq]
  · intro u
    exact congrArg Host.Outcome.next (if_congr identified_iff rfl rfl)
  · intro asserted u
    have slot : u.slot k = { x with overcurrent := asserted } := slot_putSlot ..
    have state : (u.slot k).state = x.state := by rw [slot]
    show Host.Outcome.next (if asserted then takeOvercurrent k u else u) = _
    rw [takeOvercurrent, state]
    cases asserted <;> simp
  · intro u
    refine congrArg Host.Outcome.next (onNotice_some hh (congrArg some ?_))
    exact if_congr identified_iff rfl rfl

end Sys2Proof.Machine
end


section
/-! PROOFS. Descriptors and identification. -/

namespace Sys2Proof.Machine

/-! ### Descriptors -/

theorem foldl_add_toNat (b : List Byte) (a : Byte) : (b.foldl (· + ·) a).toNat = (a.toNat + (b.map (·.toNat)).sum) % 256 := by
  induction b generalizing a with
  | nil =>
    have bound : a.toNat < 256 := a.isLt
    rw [List.map_nil, List.sum_nil, Nat.add_zero, Nat.mod_eq_of_lt bound] <;> rfl
  | cons x b ih =>
    rw [List.foldl_cons, ih, BitVec.toNat_add, List.map_cons, List.sum_cons]
    omega

/-- R124, R137: the sum of all bytes modulo 256. -/
theorem sumsToZero_iff {b : List Byte} : sumsToZero b = true ↔ (b.map (·.toNat)).sum % 256 = 0 := by
  have sum : (b.foldl (· + ·) 0).toNat = (b.map (·.toNat)).sum % 256 := by
    rw [foldl_add_toNat]
    exact congrArg (· % 256) (Nat.zero_add _)
  rw [sumsToZero, beq_iff_eq, ← sum]
  exact ⟨fun e => congrArg BitVec.toNat e, fun e => BitVec.eq_of_toNat_eq e⟩

theorem channelKindOf_isSome {b : Byte} : (channelKindOf b).isSome = true ↔ b.toNat ≤ 2 := by
  unfold channelKindOf
  generalize b.toNat = v
  split
  · simp
  · simp
  · simp
  · next h0 h1 h2 =>
    have : v ≠ 0 ∧ v ≠ 1 ∧ v ≠ 2 := ⟨h0, h1, h2⟩
    simp only [Option.isSome_none, Bool.false_eq_true, false_iff]
    omega

/-- R124: the checks of a channel entry. -/
theorem entryOk_iff {e : DescEntry} : entryOk e = true ↔ e.kind.toNat ≤ 2 ∧ e.lower ≤ e.safe ∧ e.safe ≤ e.upper ∧
    (e.kind.toNat = 2 → e.lower = 0 ∧ e.upper = 1) ∧ e.tolerance ≤ 32767 := by
  simp only [entryOk, Bool.and_eq_true, Bool.or_eq_true, decide_eq_true_eq, channelKindOf_isSome, bne_iff_ne, ne_eq,
    Classical.or_iff_not_imp_left, Decidable.not_not, and_assoc]

/-- R124: the family rail code stands for the rail the slot is on. -/
theorem railOfCode_iff {b : Byte} {rail : Option Rail} : railOfCode b = rail ∧ rail ≠ none ↔
    b.toNat = 0 ∧ rail = some .v12 ∨ b.toNat = 1 ∧ rail = some .v24 := by
  unfold railOfCode
  split
  · next h => exact ⟨fun both => .inl ⟨h, both.1.symm⟩, fun one => one.elim (fun e => by simp [e.2]) fun e => by omega⟩
  · next h => exact ⟨fun both => .inr ⟨h, both.1.symm⟩, fun one => one.elim (fun e => by omega) fun e => by simp [e.2]⟩
  · next h0 h1 =>
    refine ⟨fun ⟨e, h⟩ => absurd e.symm h, fun h => ?_⟩
    obtain ⟨e, -⟩ | ⟨e, -⟩ := h
    · exact absurd e h0
    · exact absurd e h1

theorem readDescriptor_valid {b : List Byte} {rail : Option Rail} :
    let d := readDescriptor b rail
    d.valid = true ↔ (b.map (·.toNat)).sum % 256 = 0 ∧ 1 ≤ d.count ∧ d.count ≤ 8 ∧
      (d.railCode.toNat = 0 ∧ rail = some .v12 ∨ d.railCode.toNat = 1 ∧ rail = some .v24) ∧
      ∀ e ∈ d.entries, e.kind.toNat ≤ 2 ∧ e.lower ≤ e.safe ∧ e.safe ≤ e.upper ∧
        (e.kind.toNat = 2 → e.lower = 0 ∧ e.upper = 1) ∧ e.tolerance ≤ 32767 := by
  intro d
  show (sumsToZero b && decide (1 ≤ d.count) && decide (d.count ≤ 8) &&
    decide (railOfCode d.railCode = rail ∧ rail ≠ none) && d.entries.all entryOk) = true ↔ _
  simp only [Bool.and_eq_true, decide_eq_true_eq, sumsToZero_iff, List.all_eq_true, entryOk_iff, railOfCode_iff, and_assoc]

/-! ### Identification -/

section
variable {s : State} {k : SlotIx} {d : Descriptor}

theorem identify_eq (k : SlotIx) (s : State) :
    let y : Slot := { s.slot k with state := .identifying, powerTimer := none, ident := (s.slot k).ident + 1 }
    identify k s = (s.withSlot k (y.at s)).withNotices (s.notices ++
      [slotChanged k false y s, .busRequest (.slotController k) (.describe k ((s.slot k).ident + 1))]) :=
  congrArg (s.withSlot k _).withNotices (List.append_assoc ..)

/-- R126: the slot is READY and the Claim Unit is told. -/
theorem becomeReady_eq (k : SlotIx) (d : Descriptor) (held : Option HeldValues) (s : State) :
    let y : Slot := { s.slot k with state := .ready, held := false, descriptor := some d }
    becomeReady k d held s = (s.withSlot k (y.at s)).withNotices (s.notices ++
      [slotChanged k held.isSome y s, .slotReady k d held]) :=
  congrArg (s.withSlot k _).withNotices (List.append_assoc ..)

theorem exec_describeReply {ident : Nat} {bytes : List Byte}
    (hh : headNotice (.busToSlot k) s = some (.describeReply k ident bytes)) : exec (.describeReply k) s =
      .next (if (s.slot k).state = .identifying ∧ (s.slot k).ident = ident then
        takeDescriptor k bytes (dropNotice (.busToSlot k) s) else dropNotice (.busToSlot k) s) :=
  congrArg Host.Outcome.next (onNotice_some hh rfl)

/-- R123 to R125: a descriptor is judged. -/
theorem takeDescriptor_table (k : SlotIx) (bytes : List Byte) (s : State) :
    let x := s.slot k
    let d := readDescriptor bytes x.rail
    let v := s.withSlot k { x with descriptor := some d }
    (d.valid = false → takeDescriptor k bytes s = faultSlot k .badDescriptor v) ∧
    (d.valid = true → x.held = true → takeDescriptor k bytes s = post
      (.busRequest (.slotController k) (.readback k (.held x.ident) (List.range d.count))) v) ∧
    (d.valid = true → x.held = false → takeDescriptor k bytes s = becomeReady k d none v) := by
  intro x d v
  have run : takeDescriptor k bytes s = if !d.valid then faultSlot k .badDescriptor v
    else if x.held then post (.busRequest (.slotController k) (.readback k (.held x.ident) (List.range d.count))) v
    else becomeReady k d none v := rfl
  rw [run]
  refine ⟨fun hd => ?_, fun hd hh => ?_, fun hd hh => ?_⟩
  · rw [hd] <;> rfl
  · rw [hd, hh] <;> rfl
  · rw [hd, hh] <;> rfl

end

end Sys2Proof.Machine
end


section
/-! PROOFS. What the Claim Unit takes when a slot is disabled, and the slot requests (O54). -/

namespace Sys2Proof.Machine

/-! ### The notices of a lane -/

/-- The notices of a lane, the oldest first. -/
def laneOf (l : Lane) (s : State) : List Notice := s.notices.filter fun n => noticeLane n = l

section
variable {s t : State} {l : Lane} {k : SlotIx}

theorem headNotice_eq (l : Lane) (s : State) : headNotice l s = (laneOf l s).head? := List.head?_filter.symm

theorem filter_eraseP {α : Type} (p : α → Bool) (xs : List α) : (xs.eraseP p).filter p = (xs.filter p).tail := by
  induction xs with
  | nil => rfl
  | cons x xs ih =>
    cases h : p x with
    | true => rw [List.eraseP_cons_of_pos h, List.filter_cons_of_pos h, List.tail_cons]
    | false =>
      have h : ¬ p x = true := by simp [h]
      rw [List.eraseP_cons_of_neg h, List.filter_cons_of_neg h, List.filter_cons_of_neg h, ih]

theorem laneOf_dropNotice (l : Lane) (s : State) : laneOf l (dropNotice l s) = (laneOf l s).tail := filter_eraseP _ _

theorem laneOf_append {ns : List Notice} (h : t.notices = s.notices ++ ns) (hn : ∀ n ∈ ns, noticeLane n ≠ l) :
    laneOf l t = laneOf l s := by
  have none : ns.filter (fun n => noticeLane n = l) = [] := List.filter_eq_nil_iff.2 fun n hm => by simpa using hn n hm
  rw [laneOf, h, List.filter_append, none, List.append_nil] <;> rfl

theorem laneOf_sessionReport (hl : ∀ line, l ≠ .report line) (line : ReportLine) (n : SessionIx) (r : Report) (s : State) :
    laneOf l (sessionReport line n r s) = laneOf l s := by
  unfold sessionReport
  split
  · exact laneOf_append (ns := [_]) rfl fun m hm => by
      rw [List.mem_singleton.1 hm]
      exact (hl line).symm
  · rfl

theorem laneOf_grantPass (hl : ∀ line, l ≠ .report line) (s : State) : laneOf l (grantPass s) = laneOf l s := by
  have pass (es : List WaitEntry) : ∀ u, laneOf l (es.foldl grantEntry u) = laneOf l u := by
    induction es with
    | nil => exact fun _ => rfl
    | cons e es ih =>
      intro u
      refine (ih _).trans ?_
      unfold grantEntry
      split
      · exact laneOf_sessionReport hl ..
      · rfl
  exact pass _ s

/-! ### A slot's channels become ABSENT -/

/-- R3: the CLAIM_RESULTs and the losses that are handed over. -/
theorem makeAbsent_parts (k : SlotIx) (s : State) :
    (∀ c, (makeAbsent k s).channel c = if slotOfChan c = k then none else s.channel c) ∧
    ∃ results, (∀ n ∈ results, ∃ line owner r, n = .report line owner r) ∧ (makeAbsent k s).notices = s.notices ++ results ++
      if lostChannels k s = [] then [] else [.lostToAssembler (lostChannels k s), .lostToSchedule (lostChannels k s)] := by
  let v := changeChannels (fun c x => if slotOfChan c = k then none else some x) s
  obtain ⟨claims, notices⟩ := dropAbsentWaits_parts (goneChannels k s) v
  have run := makeAbsent_eq k s
  have told : (makeAbsent k s).claims = (dropAbsentWaits (goneChannels k s) v).claims := by
    rw [run]
    dsimp only
    split <;> rfl
  refine ⟨fun c => ?_, v.claims.waits.filterMap (absentResult (goneChannels k s) v), fun n hn => ?_, ?_⟩
  · have kept : (makeAbsent k s).channel c = v.channel c := by rw [State.channel, told, claims, State.channel]
    rw [kept, channel_changeChannels]
    split <;> cases s.channel c <;> rfl
  · obtain ⟨e, -, he⟩ := List.mem_filterMap.1 hn
    unfold absentResult at he
    split at he
    · exact ⟨_, _, _, (Option.some.inj he).symm⟩
    · cases he
  · have same : v.notices = s.notices := rfl
    rw [run, ← same, ← notices]
    dsimp only
    split
    · exact (List.append_nil _).symm
    · rfl

theorem laneOf_makeAbsent (j k : SlotIx) (s : State) :
    laneOf (.slotToClaim k) (makeAbsent j s) = laneOf (.slotToClaim k) s := by
  obtain ⟨-, results, reports, notices⟩ := makeAbsent_parts j s
  refine laneOf_append (notices.trans (List.append_assoc ..)) fun n hn => ?_
  obtain hn | hn := List.mem_append.1 hn
  · obtain ⟨line, owner, r, rfl⟩ := reports n hn
    exact nofun
  · split at hn
    · cases hn
    · obtain rfl | hn := List.mem_cons.1 hn
      · exact nofun
      · rw [List.mem_singleton.1 hn]
        exact nofun

/-! ### The Claim Unit takes what it was told of a slot -/

theorem drainClaims_empty (h : laneOf (.slotToClaim k) s = []) (fuel : Nat) : drainClaims fuel k s = s := by
  have head : headNotice (.slotToClaim k) s = none := by rw [headNotice_eq, h] <;> rfl
  cases fuel with
  | zero => rfl
  | succ f => simp only [drainClaims, head]

/-- R3: when all that stands before it has been taken, the loss of the slot is. -/
theorem drainClaims_last (h : laneOf (.slotToClaim k) s = [.slotLeftReady k]) (fuel : Nat) :
    drainClaims (fuel + 1) k s = makeAbsent k (dropNotice (.slotToClaim k) s) := by
  have head : headNotice (.slotToClaim k) s = some (.slotLeftReady k) := by rw [headNotice_eq, h] <;> rfl
  simp only [drainClaims, head]
  refine drainClaims_empty ?_ fuel
  rw [laneOf_makeAbsent, laneOf_dropNotice, h] <;> rfl

/-- Assumption 24: whatever stands before it, the loss of the slot is taken in the same event. -/
theorem drainClaims_absent (before : List Notice) (fuel : Nat) (hf : before.length < fuel) (s : State)
    (h : laneOf (.slotToClaim k) s = before ++ [.slotLeftReady k]) :
    ∀ c, slotOfChan c = k → (drainClaims fuel k s).channel c = none := by
  induction before generalizing fuel s with
  | nil =>
    obtain ⟨f, rfl⟩ := Nat.exists_eq_succ_of_ne_zero (Nat.ne_of_gt hf)
    intro c hc
    rw [drainClaims_last h f, (makeAbsent_parts ..).1, if_pos hc]
  | cons n before ih =>
    obtain ⟨f, rfl⟩ := Nat.exists_eq_succ_of_ne_zero (Nat.ne_of_gt (Nat.zero_lt_of_lt hf))
    have short : before.length < f := by simpa using hf
    have head : headNotice (.slotToClaim k) s = some n := by rw [headNotice_eq, h] <;> rfl
    have rest : laneOf (.slotToClaim k) (dropNotice (.slotToClaim k) s) = before ++ [.slotLeftReady k] := by
      rw [laneOf_dropNotice, h] <;> rfl
    have lane : noticeLane n = .slotToClaim k := by
      have found := List.find?_some head
      exact of_decide_eq_true found
    simp only [drainClaims, head]
    split
    · next j d held e =>
      exact ih f short _ ((laneOf_grantPass (fun _ e => by cases e) _).trans rest)
    · exact ih f short _ ((laneOf_makeAbsent ..).trans rest)
    · next ready left =>
      cases n with
      | slotReady j d held => exact absurd rfl (ready j d held)
      | slotLeftReady j => exact absurd rfl (left j)
      | busRequest r _ => cases r <;> cases lane
      | _ => cases lane

end

end Sys2Proof.Machine
end


section
/-! PROOFS. Slots are identified and take requests (O54). -/

namespace Sys2Proof.Machine

section
variable {s t : State} {k : SlotIx} {n : SessionIx} {y : Slot}

/-! ### SLOT_RESET and SLOT_ENABLE -/

theorem resetSlot_eq (k : SlotIx) (s : State) :
    resetSlot k s = if (s.slot k).reading = .partialSeat then settle k s else judge k s := by
  unfold resetSlot judge
  cases (s.slot k).reading <;> rfl

/-- The code of the state that a slot is judged into. -/
def judgedCode (r : Reading) (p : Nat) : Nat :=
  match r with | .vacant => 0 | .partialSeat => p | .seatedLow => 2 | .seatedHigh => 2

theorem judgedCode_eq (r : Reading) (p : SlotState) : slotStateCode (judgedState r p) = judgedCode r (slotStateCode p) := by
  cases r <;> rfl

/-- R126 for a slot whose record is known. -/
theorem becomeReady_slot {x : Slot} (h : s.slot k = x) (d : Descriptor) (held : Option HeldValues) :
    let y : Slot := { x with state := .ready, held := false, descriptor := some d }
    becomeReady k d held s = (s.withSlot k (y.at s)).withNotices (s.notices ++
      [.report .slotController none (slotChangeOf k x.state held.isSome (y.at s) s.clock.rig), .slotReady k d held]) := by
  subst h
  exact becomeReady_eq k d held s

/-! ### SLOT_DISABLE -/

theorem slotHeldByOther_iff : slotHeldByOther k n s = true ↔
    ∃ c y m, slotOfChan c = k ∧ s.channel c = some y ∧ y.owner = some m ∧ m ≠ n := by
  simp only [slotHeldByOther, List.any_eq_true, mem_slotChannels]
  constructor
  · rintro ⟨c, hc, h⟩
    split at h
    · next x hx =>
      obtain ⟨m, hm, hn⟩ := (Option.any_eq_true _ _).1 h
      exact ⟨c, x, m, hc, hx, hm, of_decide_eq_true hn⟩
    · cases h
  · rintro ⟨c, x, m, hc, hx, hm, hn⟩
    exact ⟨c, hc, by simp [hx, hm, hn]⟩

/-- R3: without another owner, what a slot loses is what the session owns there. -/
theorem lostChannels_of_owner (own : ¬ ∃ c y m, slotOfChan c = k ∧ s.channel c = some y ∧ y.owner = some m ∧ m ≠ n) :
    lostChannels k s = (allChannels.filter fun c => slotOfChan c = k && s.owns n c).map fun c => ⟨c, n⟩ := by
  rw [← List.filterMap_eq_map, List.filterMap_filter, lostChannels]
  refine List.filterMap_congr fun c _ => ?_
  by_cases hc : slotOfChan c = k
  · rw [if_pos hc]
    cases ho : s.owns n c with
    | true =>
      obtain ⟨x, p, hx, hp⟩ := owns_iff.1 ho
      simp [hc, hx, Channel.owner, hp]
    | false =>
      have none : ((s.channel c).bind fun x => x.owner.map fun n => (⟨c, n⟩ : LostChannel)) = none := by
        refine Option.bind_eq_none_iff.2 fun x hx => Option.map_eq_none_iff.2 ?_
        cases hm : x.owner with
        | none => rfl
        | some m =>
          obtain ⟨o, hp, rfl⟩ := Option.map_eq_some_iff.1 hm
          by_cases e : o.owner = n
          · exact absurd ((owns_iff (n := n)).2 ⟨x, o.policy, hx, by rw [hp, ← e]⟩) (by simp [ho])
          · exact absurd ⟨c, x, o.owner, hc, hx, hm, e⟩ own
      rw [none]
      simp
  · simp [hc]

theorem lostChannels_of_claims (h : t.claims = s.claims) (k : SlotIx) : lostChannels k t = lostChannels k s := by
  simp only [lostChannels, State.channel, h]

theorem mem_leftNotices {x : Notice} (h : x ∈ leftNotices k s) :
    x = .slotLeftPowered k ∨ x = .slotLeftReady k ∨ ∃ take, x = .engineSlotLost k take := by
  unfold leftNotices at h
  obtain h | h := List.mem_append.1 h
  · exact .inl (List.mem_singleton.1 h)
  · split at h
    · obtain h | h := List.mem_append.1 h
      · exact .inr (.inl (List.mem_singleton.1 h))
      · split at h
        · split at h
          · exact .inr (.inr ⟨_, List.mem_singleton.1 h⟩)
          · cases h
        · cases h
    · cases h

/-- R121: a slot that leaves READY tells the Claim Unit last of all. -/
theorem laneOf_leftReady (h : (s.slot k).state = .ready) :
    laneOf (.slotToClaim k) (moveTo k y s) = laneOf (.slotToClaim k) s ++ [.slotLeftReady k] := by
  have left : (leftNotices k s).filter (fun n => noticeLane n = .slotToClaim k) = [.slotLeftReady k] := by
    unfold leftNotices
    rw [if_pos h]
    split
    · split <;> simp [noticeLane]
    · simp [noticeLane]
  rw [moveTo_powered y (by rw [h] <;> rfl)]
  show (s.notices ++ leftNotices k s ++ [slotChanged k false y s]).filter _ = _
  rw [List.filter_append, List.filter_append, left]
  exact List.append_nil _

theorem disableSlot_ready (h : (s.slot k).state = .ready) : disableSlot k s =
    drainClaims (moveTo k (s.slot k).toDisabled s).notices.length k (moveTo k (s.slot k).toDisabled s) := if_pos h

theorem disableSlot_other (h : (s.slot k).state ≠ .ready) : disableSlot k s = moveTo k (s.slot k).toDisabled s := if_neg h

theorem moveTo_frame (k : SlotIx) (y : Slot) (s : State) : OnlyChanges [.slots, .modules, .notices] s (moveTo k y s) :=
  (only_moveTo (by simp) (by simp) (by simp) k y).2 (.refl _ s)

theorem disableSlot_frame (h : (s.slot k).state = .ready) :
    OnlyChanges [.claims, .notices] (moveTo k (s.slot k).toDisabled s) (disableSlot k s) := by
  rw [disableSlot_ready h]
  exact (only_drainClaims (by simp) (by simp) ..).2 (.refl _ _)

/-- R128: the slot's channels are ABSENT, whatever the Claim Unit had still to take. -/
theorem disableSlot_absent (h : (s.slot k).state = .ready) {c : ChanIx} (hc : slotOfChan c = k) :
    (disableSlot k s).channel c = none := by
  rw [disableSlot_ready h]
  have lane := laneOf_leftReady (y := (s.slot k).toDisabled) h
  refine drainClaims_absent (laneOf (.slotToClaim k) s) _ ?_ _ lane c hc
  have length := congrArg List.length lane
  rw [List.length_append, List.length_singleton] at length
  have bound : (laneOf (.slotToClaim k) (moveTo k (s.slot k).toDisabled s)).length ≤ _ := List.length_filter_le _ _
  omega

/-- R128 with nothing on its way to the Claim Unit: the slot's loss is taken as SLOT_LEFT_READY is. -/
theorem disableSlot_atOnce (h : (s.slot k).state = .ready) (hh : headNotice (.slotToClaim k) s = none) :
    disableSlot k s = makeAbsent k (dropNotice (.slotToClaim k) (moveTo k (s.slot k).toDisabled s)) ∧
    exec (.slotLeftReady k) (moveTo k (s.slot k).toDisabled s) = .next (disableSlot k s) := by
  have empty : laneOf (.slotToClaim k) s = [] := List.head?_eq_none_iff.1 ((headNotice_eq ..).symm.trans hh)
  have lane := laneOf_leftReady (y := (s.slot k).toDisabled) h
  rw [empty, List.nil_append] at lane
  have head : headNotice (.slotToClaim k) (moveTo k (s.slot k).toDisabled s) = some (.slotLeftReady k) := by
    rw [headNotice_eq, lane] <;> rfl
  have some : (moveTo k (s.slot k).toDisabled s).notices.length ≠ 0 := by
    rw [moveTo_powered _ (by rw [h] <;> rfl)]
    simp
  obtain ⟨f, hf⟩ := Nat.exists_eq_succ_of_ne_zero some
  have run : disableSlot k s = makeAbsent k (dropNotice (.slotToClaim k) (moveTo k (s.slot k).toDisabled s)) := by
    rw [disableSlot_ready h, hf]
    exact drainClaims_last lane f
  exact ⟨run, run ▸ congrArg Host.Outcome.next (onNotice_some head rfl)⟩

/-- A notice of lost channels among those that SLOT_DISABLE hands over without losses was there before. -/
theorem mem_notices_moveTo {x : Notice} (hp : (s.slot k).state.powered = true) (hx : x ∈ (moveTo k y s).notices)
    (lost : (∃ l, x = .lostToAssembler l) ∨ ∃ l, x = .lostToSchedule l) : x ∈ s.notices := by
  rw [moveTo_powered y hp] at hx
  obtain hx | hx := List.mem_append.1 (show x ∈ s.notices ++ leftNotices k s ++ [slotChanged k false y s] from hx)
  · obtain hx | hx := List.mem_append.1 hx
    · exact hx
    · obtain ⟨l, rfl⟩ | ⟨l, rfl⟩ := lost <;> obtain e | e | ⟨take, e⟩ := mem_leftNotices hx <;> cases e
  · obtain ⟨l, rfl⟩ | ⟨l, rfl⟩ := lost <;> cases List.mem_singleton.1 hx

/-- R128: the checks of SLOT_DISABLE. -/
theorem slotDisableBody_eq {h : Header} {slot : Byte} (hk : slotOf slot = some k) : slotDisableBody h slot n s =
    if (s.slot k).state = .disabled then refuse h (.slotDisable slot) .slotState s
    else if slotHeldByOther k n s then refuse h (.slotDisable slot) .inUse s
    else answer h (.slotDisable slot) (doneWith []) (disableSlot k s) := by
  simp only [slotDisableBody, hk]

end

/-- Settles O54. -/
theorem slotsIdentifyAndTakeRequests : Obligations.SlotsIdentifyAndTakeRequests := by
  refine ⟨?_, ?_, ?_, fun h slot n s _ => ?_, fun b rail => ⟨rfl, rfl, rfl, rfl, rfl, readDescriptor_valid⟩⟩
  · intro k s x t
    have run : t = _ := identify_eq k s
    refine ⟨(only_identify (by simp) (by simp) k).2 (.refl _ s), ?_, ?_⟩ <;> rw [run] <;> rfl
  · intro k ident bytes s hh x u d v
    have run := exec_describeReply hh
    obtain ⟨bad, held, good⟩ := takeDescriptor_table k bytes u
    refine ⟨fun other => run.trans (congrArg _ (if_neg fun both => other.elim (· both.1) (· both.2))), fun hs hi => ?_⟩
    have taken := run.trans (congrArg _ (if_pos ⟨hs, hi⟩))
    refine ⟨fun hv => taken.trans (congrArg _ (bad hv)), fun hv hx => ?_, fun hv hx => ?_⟩
    · subst hi
      exact taken.trans (congrArg _ (held hv hx))
    · have slot : v.slot k = { x with descriptor := some d } := slot_putSlot u k _
      refine ⟨_, taken.trans (congrArg _ ((good hv hx).trans (becomeReady_slot slot d none))), ?_, ?_⟩
      · refine (congrArg State.slots (withSlot_withSlot u k _ _)).trans ?_
        show s.slots.put k _ = s.slots.put k _
        rw [← hx] <;> rfl
      · rw [show x.state = _ from hs] <;> rfl
  · intro k ident values s hh x
    have run : exec (.heldReadbackReply k) s = .next (if x.state = .identifying ∧ x.ident = ident ∧ x.held = true then
        match x.descriptor with
        | some d => becomeReady k d (some ⟨values, s.clock.rig⟩) (dropNotice (.busToSlot k) s)
        | none => dropNotice (.busToSlot k) s
      else dropNotice (.busToSlot k) s) := congrArg Host.Outcome.next (onNotice_some hh rfl)
    refine ⟨fun other => run.trans (congrArg _ (if_neg fun all => ?_)), fun d hs hi hx hd => ?_⟩
    · obtain ⟨hs, hi, hx⟩ := all
      exact other.elim (· hs) (·.elim (· hi) fun e => by simp [hx] at e)
    · have ready := run.trans (congrArg _ ((if_pos ⟨hs, hi, hx⟩).trans (by rw [hd])))
      refine ⟨_, ready.trans (congrArg _ (becomeReady_slot (s := dropNotice (.busToSlot k) s) (k := k) (x := x) rfl d (some ⟨values, s.clock.rig⟩))), ?_, ?_⟩
      · rw [hd] <;> rfl
      · rw [show x.state = _ from hs] <;> rfl
  · intro reset disable enable state
    refine ⟨fun hs => ⟨fun a => serve_eq a ?_, fun a => serve_eq a ?_, fun a => serve_eq a ?_⟩, fun k hk => ?_⟩
    · simp only [slotResetBody, hs] <;> rfl
    · simp only [slotDisableBody, hs] <;> rfl
    · simp only [slotEnableBody, hs] <;> rfl
    intro x
    refine ⟨fun a => ⟨fun hf => serve_eq a ?_, fun hf => serve_eq a ?_⟩, fun a => ⟨fun hd => serve_eq a ?_, fun hd => serve_eq a ?_⟩,
      fun a => ?_⟩
    · simp only [slotResetBody, hk]
      exact if_pos hf
    · simp only [slotResetBody, hk, judgedCode_eq, resetSlot_eq]
      exact if_neg (not_not.2 hf)
    · simp only [slotEnableBody, hk]
      exact if_pos hd
    · simp only [slotEnableBody, hk, judgedCode_eq]
      exact if_neg (not_not.2 hd)
    · intro foreign gone
      have lift {u : State} (h : slotDisableBody h slot n s = u) : exec (.slotDisable _ slot) s = .next u := serve_eq a h
      have body := slotDisableBody_eq (h := h) (n := n) (s := s) hk
      have taken (hd : x.state ≠ .disabled) (own : ¬ foreign) :
          slotDisableBody h slot n s = answer h disable (doneWith []) (disableSlot k s) :=
        body.trans ((if_neg hd).trans (if_neg (mt slotHeldByOther_iff.1 own)))
      refine ⟨fun hd => lift (body.trans (if_pos hd)),
        fun hd hf => lift (body.trans ((if_neg hd).trans (if_pos (slotHeldByOther_iff.2 hf)))),
        fun hd hr own => lift ((taken hd own).trans (by rw [disableSlot_other hr] <;> rfl)), fun hr own => ?_⟩
      have frame := disableSlot_frame hr
      have hp : (s.slot k).state.powered = true := by rw [show (s.slot k).state = .ready from hr] <;> rfl
      refine ⟨disableSlot k s, lift (taken (by rw [hr]; nofun) own), frame .slots (by simp), frame .modules (by simp),
        fun c hc => disableSlot_absent hr hc, fun hh => ?_⟩
      intro lost
      obtain ⟨run, left⟩ := disableSlot_atOnce hr hh
      obtain ⟨channel, results, reports, notices⟩ :=
        makeAbsent_parts k (dropNotice (.slotToClaim k) (moveTo k (s.slot k).toDisabled s))
      have claims : (dropNotice (.slotToClaim k) (moveTo k (s.slot k).toDisabled s)).claims = s.claims := moveTo_frame k x.toDisabled s .claims (by simp)
      have same : lostChannels k (dropNotice (.slotToClaim k) (moveTo k (s.slot k).toDisabled s)) = lost :=
        (lostChannels_of_claims claims k).trans (lostChannels_of_owner own)
      rw [same] at notices
      rw [run]
      refine ⟨run ▸ left, fun c hc => ?_, fun some => ⟨_, notices.trans (by rw [if_neg some])⟩, fun none l hl => ?_⟩
      · refine (channel c).trans ((if_neg hc).trans ?_)
        rw [State.channel, claims] <;> rfl
      · rw [notices, if_pos none, List.append_nil] at hl
        have old {x : Notice} (hx : x ∈ (dropNotice (.slotToClaim k) (moveTo k (s.slot k).toDisabled s)).notices ++ results)
            (lost : (∃ l, x = .lostToAssembler l) ∨ ∃ l, x = .lostToSchedule l) : x ∈ s.notices := by
          obtain hx | hx := List.mem_append.1 hx
          · exact mem_notices_moveTo hp (List.mem_of_mem_eraseP hx) lost
          · obtain ⟨line, owner, r, rfl⟩ := reports x hx
            obtain ⟨l, e⟩ | ⟨l, e⟩ := lost <;> cases e
        exact hl.imp (fun h => old h (.inl ⟨l, rfl⟩)) fun h => old h (.inr ⟨l, rfl⟩)

end Sys2Proof.Machine
end


section
/-! PROOFS. Requests on the module bus and what a module does with them (O58). -/

namespace Sys2Proof.Machine

/-! ### Bytes -/

/-- R137: the check byte makes the sum of all bytes 0 modulo 256. -/
theorem withCheck_spec (b : List Byte) : ∃ check, withCheck b = b ++ [check] ∧ ((b ++ [check]).map (·.toNat)).sum % 256 = 0 := by
  refine ⟨_, rfl, sumsToZero_iff.1 ?_⟩
  rw [sumsToZero, beq_iff_eq, List.foldl_append]
  show b.foldl (· + ·) 0 + (0 - b.foldl (· + ·) 0) = 0
  generalize b.foldl (· + ·) (0 : Byte) = x
  bv_omega

theorem flatMap_u8 (idx : List Nat) : idx.flatMap u8 = idx.map fun i => BitVec.ofNat 8 i := by
  induction idx with
  | nil => rfl
  | cons i idx ih => exact congrArg (BitVec.ofNat 8 i :: ·) ih

theorem safeAllBytes_eq (l : List (Option Int)) : safeAllBytes l = l.flatMap fun v =>
    match v with
    | some x => [0] ++ i16 x
    | none => [1, 0, 0] := by
  refine congrArg (fun f => l.flatMap f) (funext fun v => ?_)
  cases v <;> rfl

/-! ### Modules -/

section
variable {m : Module}

theorem find?_of_only {α : Type} {xs : List α} {p : α → Bool} {x : α} (hx : x ∈ xs) (hp : p x = true)
    (only : ∀ y ∈ xs, p y = true → y = x) : xs.find? p = some x := by
  obtain ⟨y, hy⟩ := Option.isSome_iff_exists.1 (List.find?_isSome.2 ⟨x, hx, hp⟩)
  rw [hy, only y (List.mem_of_find?_eq_some hy) (List.find?_some hy)]

/-- R73: what the strobe makes of an output. -/
theorem strobe_drives (now : Nat) (j : Fin 8) : (m.strobe now).drives.get j =
    match m.staged.find? fun i => i.index = j.val with
    | some i => (m.drives.get j).latch i now
    | none => m.drives.get j := Table.get_tab ..

/-- R143: what a DRIVE_SAFE makes of an output. -/
theorem driveSafe_drives (values : List (Nat × Int)) (j : Fin 8) : (m.driveSafe values).drives.get j =
    match values.find? fun v => v.1 = j.val with
    | some v => .value v.2
    | none => m.drives.get j := Table.get_tab ..

/-- R144: what a SAFE_ALL makes of an output. -/
theorem safeAll_drives (k : SlotIx) (values : List (Option Int)) (j : Fin 8) : (m.safeAll k values).drives.get j =
    match values.getD (k.val * 8 + j.val) none with
    | some v => .value v
    | none => .stored := Table.get_tab ..

end

/-- Settles O58. -/
theorem moduleBusRequestsHaveTheirBytesAndEffects : Obligations.ModuleBusRequestsHaveTheirBytesAndEffects := by
  refine ⟨fun values k => ?_, fun m => ⟨fun items => rfl, fun now => ⟨rfl, rfl, fun j => ⟨fun other => ?_, fun i hi hj only => ?_⟩⟩,
    fun values => ⟨?_, rfl, fun j => ⟨fun other => ?_, fun v hv only => ?_⟩⟩, rfl,
    fun k values => ⟨rfl, rfl, fun j => ⟨fun v hv => ?_, fun other => ?_⟩⟩⟩⟩
  · intro sent
    refine ⟨fun ident => withCheck_spec _, fun take items => withCheck_spec _, fun f idx => ?_, fun vs => withCheck_spec _,
      withCheck_spec _, fun l hl => ?_, fun none => ?_⟩
    · rw [← flatMap_u8]
      exact withCheck_spec _
    · subst hl
      obtain ⟨check, run, sum⟩ := withCheck_spec (u8 0x06 ++ safeAllBytes l)
      refine ⟨check, run.trans ?_, ?_⟩
      · rw [safeAllBytes_eq] <;> rfl
      · rw [safeAllBytes_eq] at sum
        exact sum
    · subst none
      rfl
  · have none : (m.staged.find? fun i => i.index = j.val) = none := List.find?_eq_none.2 fun i hi => by simpa using other i hi
    rw [strobe_drives, none]
  · have found : (m.staged.find? fun i => i.index = j.val) = some i :=
      find?_of_only hi (decide_eq_true hj) fun x hx e => only x hx (of_decide_eq_true e)
    rw [strobe_drives, found] <;> rfl
  · refine List.filter_congr fun i _ => ?_
    rw [Bool.eq_iff_iff]
    simp only [Bool.not_eq_true', List.any_eq_false, decide_eq_true_eq, List.mem_map, not_exists, not_and]
  · have none : (values.find? fun v => v.1 = j.val) = none := List.find?_eq_none.2 fun v hv e =>
      other (List.mem_map.2 ⟨v, hv, of_decide_eq_true e⟩)
    rw [driveSafe_drives, none]
  · have found : (values.find? fun v => v.1 = j.val) = some (j.val, v) :=
      find?_of_only hv (decide_eq_true rfl) fun w hw e => by
        obtain ⟨a, b⟩ := w
        obtain rfl : a = j.val := of_decide_eq_true e
        rw [only b hw]
    rw [driveSafe_drives, found]
  · rw [safeAll_drives, List.getD_eq_getElem?_getD, hv] <;> rfl
  · have none : values.getD (k.val * 8 + j.val) none = none := by
      rw [List.getD_eq_getElem?_getD]
      cases h : values[k.val * 8 + j.val]? with
      | none => rfl
      | some v =>
        cases v with
        | none => rfl
        | some v => exact absurd h (other v)
    rw [safeAll_drives, none]

end Sys2Proof.Machine
end


section
/-! PROOFS. The bus is granted in its order (O56). -/

namespace Sys2Proof.Machine

section
variable {s : State} {x : Txn} {b : Bus}

/-! ### An attempt -/

/-- The transaction in progress when an attempt begins. -/
def attemptOf (x : Txn) (attempt : Nat) (s : State) : InProgress :=
  { txn := x, attempt := attempt, attemptNo := s.bus.attempts + 1, began := s.clock.uptime, wire := txnBytes x none
    safeValues := none }

/-- R65, R142: the bytes of an attempt go out and reach the modules. -/
theorem beginAttempt_parts (x : Txn) (attempt : Nat) (s : State) :
    let t := beginAttempt x attempt s
    OnlyChanges [.bus, .modules] s t ∧
    t.bus = { s.bus with attempts := s.bus.attempts + 1, current := some (attemptOf x attempt s) } ∧
    ModulesHear x (s.bus.attempts + 1) s t := by
  intro t
  let v := s.withBus { s.bus with attempts := s.bus.attempts + 1, current := some (attemptOf x attempt s) }
  have reaches : OnlyChanges [.modules] v t := (only_transactionReaches (by simp) x _).2 (.refl _ v)
  refine ⟨(only_beginAttempt (by simp) (by simp) x attempt).2 (.refl _ s), reaches .bus (by simp), fun k => ?_⟩
  have hears := transactionReaches_hears x (s.bus.attempts + 1) v k
  exact hears

/-! ### The engine's mark -/

theorem markInProgress_frame (x : Txn) (s : State) : OnlyChanges [.engine] s (markInProgress x s) :=
  (only_markInProgress (by simp) x).2 (.refl _ s)

theorem markInProgress_other (h : ∀ k n items, x ≠ .stage k n items) : markInProgress x s = s := by
  unfold markInProgress
  split
  · next k n items => exact absurd rfl (h k n items)
  · rfl
  · rfl
  · rfl
  · rfl
  · rfl

/-- R64: the mark of a slot whose STAGE is granted. -/
theorem markInProgress_stage {k : SlotIx} {n : Nat} {items : List StageItem} {w : Work} (hw : s.engine.work = some w)
    (hn : w.take = n) (hp : w.phase = .staging) : (markInProgress (.stage k n items) s).engine =
      { s.engine with work := some { w with
        slots := w.slots.map fun y => if y.slot = k then { y with mark := .inProgress } else y } } := by
  have on : workIn n .staging s = some w := (workIn_staging hw).trans (if_pos ⟨hn.symm, hp⟩)
  simp only [markInProgress, on]
  rfl

/-! ### Granting -/

theorem grantBus_busy (h : s.bus.current ≠ none) : grantBus s = s := by
  obtain ⟨p, hp⟩ := Option.ne_none_iff_exists'.1 h
  simp only [grantBus, hp]

/-- R136: with no COMMIT request held the oldest request of the highest class is granted. -/
theorem grantBus_idle (hi : s.bus.current = none) (hc : s.bus.commit = none) : grantBus s =
    match popRequest s.bus with
    | some (x, b) => startTransaction x (s.withBus b)
    | none => s := by
  have served : serveCommit s = s := by simp only [serveCommit, hc]
  simp only [grantBus, hi, served] <;> rfl

theorem issueStrobe_eq (c : CommitReq) (s : State) : issueStrobe c s =
    ((s.withBus { s.bus with commit := none }).withModules (Table.tab fun k =>
      if (s.module k).powered then (s.module k).strobe s.clock.uptime else s.module k)).withNotices
    (s.notices ++ [.commitAnswer (.strobe s.clock.rig (s.bus.safeQ.contains .safeAll))] ++
      (if c.sync then [.syncCommit s.clock.rig] else [])) := by
  unfold issueStrobe
  dsimp only
  split
  · rfl
  · rw [List.append_nil] <;> rfl

/-- R136, R141: a held COMMIT request is served first. -/
theorem grantBus_commit {c : CommitReq} (hi : s.bus.current = none) (hc : s.bus.commit = some c) :
    grantBus s = grantBus (issueStrobe c s) := by
  have idle : (issueStrobe c s).bus.current = none := by rw [issueStrobe_eq]; exact hi
  have served : (issueStrobe c s).bus.commit = none := by rw [issueStrobe_eq] <;> rfl
  rw [grantBus_idle idle served]
  simp only [grantBus, hi, serveCommit, hc] <;> rfl

/-- R138: a SAFE_ALL asks for its values. -/
theorem grantSafeAll_alone (h : s.bus.commit = none) : grantSafeAll s = post .safeAllValues s := by
  have none : (post .safeAllValues s).bus.commit = none := h
  simp only [grantSafeAll, none]

/-- R136: what the grant of a request does. -/
structure Granted (x : Txn) (s : State) (b : Bus) (t : State) : Prop where
  frame : OnlyChanges [.bus, .modules, .engine, .notices] s t
  bus : t.bus = { b with attempts := s.bus.attempts + 1, current := some (attemptOf x 1 s) }
  hears : ModulesHear x (s.bus.attempts + 1) s t
  notices : t.notices = s.notices ++ (if x = .safeAll then [.safeAllValues] else [])
  engine : (∀ k n items, x ≠ .stage k n items) → t.engine = s.engine
  marked : ∀ k n items, x = .stage k n items → ∀ w, s.engine.work = some w → w.take = n → w.phase = .staging →
    t.engine = { s.engine with work := some { w with
      slots := w.slots.map fun y => if y.slot = k then { y with mark := .inProgress } else y } }

theorem startTransaction_granted (hb : b.attempts = s.bus.attempts) (hc : b.commit = none) (x : Txn) :
    Granted x s b (startTransaction x (s.withBus b)) := by
  obtain ⟨began, bus, hears⟩ := beginAttempt_parts x 1 (s.withBus b)
  obtain ⟨w, hw⟩ : ∃ w, w = beginAttempt x 1 (s.withBus b) := ⟨_, rfl⟩
  rw [← hw] at began bus hears
  have marked := markInProgress_frame x w
  obtain ⟨u, hu⟩ : ∃ u, u = markInProgress x w := ⟨_, rfl⟩
  rw [← hu] at marked
  have notices : u.notices = s.notices := (marked .notices (by simp)).trans (began .notices (by simp))
  have engine : w.engine = s.engine := began .engine (by simp)
  have busU : u.bus = w.bus := marked .bus (by simp)
  have modules : u.modules = w.modules := marked .modules (by simp)
  have commit : u.bus.commit = none := by rw [busU, bus]; exact hc
  obtain ⟨ns, run, asked⟩ : ∃ ns, startTransaction x (s.withBus b) = postAll ns u ∧
      ns = if x = .safeAll then [.safeAllValues] else [] := by
    refine ⟨_, ?_, rfl⟩
    unfold startTransaction
    dsimp only
    rw [← hw, ← hu]
    split
    · exact grantSafeAll_alone commit
    · rw [postAll, List.append_nil] <;> rfl
  have frame := (only_startTransaction (ps := [.bus, .modules, .engine, .notices]) (by simp) (by simp) (by simp) (by simp) x).2
    ((only_withBus (by simp) b).2 (.refl _ s))
  rw [run] at frame ⊢
  refine ⟨frame, ?_, fun k => ?_, ?_, fun other => ?_, fun k n items hx y hy hn hp => ?_⟩
  · have same : attemptOf x 1 (s.withBus b) = attemptOf x 1 s := by
      simp only [attemptOf, State.withBus_bus, hb]
      rfl
    rw [← hb, ← same]
    exact busU.trans bus
  · rw [← hb]
    have same : (postAll ns u).module k = w.module k := congrArg (Table.get · k) modules
    rw [same]
    exact hears k
  · rw [← asked, ← notices] <;> rfl
  · show u.engine = _
    rw [hu, markInProgress_other other, engine]
  · subst hx
    show u.engine = _
    rw [hu, markInProgress_stage (engine ▸ hy) hn hp, engine]

end

/-- Settles O56. -/
theorem busGrantsInItsOrder : Obligations.BusGrantsInItsOrder := by
  intro s
  refine ⟨grantBus_busy, fun c hi hc => ?_, fun hi hc => ?_⟩
  · rw [grantBus_commit hi hc, issueStrobe_eq]
  · intro t granted
    have idle : t = _ := grantBus_idle hi hc
    have grants {x : Txn} {b : Bus} (hb : b.attempts = s.bus.attempts) (hn : b.commit = none)
        (hp : popRequest s.bus = some (x, b)) : granted x b := by
      have run : t = startTransaction x (s.withBus b) := by rw [idle, hp]
      obtain ⟨frame, bus, hears, notices, engine, marked⟩ := startTransaction_granted hb hn x
      rw [← run] at frame bus hears notices engine marked
      exact ⟨frame, bus, hears, notices, engine, marked⟩
    refine ⟨fun h1 h2 h3 h4 => ?_, fun x q h1 => grants rfl hc ?_, fun x q h1 h2 => grants rfl hc ?_,
      fun x q h1 h2 h3 => grants rfl hc ?_, fun x q h1 h2 h3 h4 => grants rfl hc ?_⟩
    · rw [idle]
      simp only [popRequest, h1, h2, h3, h4]
    · simp only [popRequest, h1]
    · simp only [popRequest, h1, h2]
    · simp only [popRequest, h1, h2, h3]
    · simp only [popRequest, h1, h2, h3, h4]

end Sys2Proof.Machine
end


section
/-! PROOFS. Transactions end by their rules (O57). -/

namespace Sys2Proof.Machine

section
variable {s : State} {p : InProgress} {k : SlotIx} {x : Txn} {bytes : List Byte}

/-! ### The form of a reply -/

theorem rd8_zero_iff {v : Byte} (h : bytes.length ≠ 0) : rd8 bytes 0 = v ↔ bytes.head? = some v := by
  cases bytes with
  | nil => exact absurd rfl h
  | cons b bs => simp [rd8]

/-- R145: the length of the reply and its count, by the transaction. -/
def ReplyFits (x : Txn) (bytes : List Byte) : Prop :=
  match x with
  | .describe _ _ => bytes.length = 99
  | .readback _ _ idx => bytes.length = 3 + 2 * idx.length ∧ (rd8 bytes 1).toNat = idx.length
  | _ => bytes.length = 2

/-- R137: a reply of the right form with an agreeing check byte. -/
theorem goodReply_iff (hk : x.slot = some k) : goodReply x bytes = true ↔
    (bytes.map (·.toNat)).sum % 256 = 0 ∧ bytes.head? = some (BitVec.ofNat 8 (txnCode x)) ∧ ReplyFits x bytes := by
  have form : (bytes.length = replyLength x ∧ countAgrees x bytes = true ↔ ReplyFits x bytes) ∧ replyLength x ≠ 0 := by
    cases x with
    | describe j i => exact ⟨⟨And.left, fun h => ⟨h, rfl⟩⟩, by simp [replyLength]⟩
    | stage j n items => exact ⟨⟨And.left, fun h => ⟨h, rfl⟩⟩, by simp [replyLength]⟩
    | readback j f idx => exact ⟨and_congr_right' decide_eq_true_iff, by simp [replyLength]⟩
    | driveSafe j vs => exact ⟨⟨And.left, fun h => ⟨h, rfl⟩⟩, by simp [replyLength]⟩
    | abandon => cases hk
    | safeAll => cases hk
  obtain ⟨fits, some⟩ := form
  simp only [goodReply, Bool.and_eq_true, decide_eq_true_eq, sumsToZero_iff, and_assoc]
  refine and_congr_right fun _ => ⟨fun ⟨code, length, count⟩ => ?_, fun ⟨code, h⟩ => ?_⟩
  · exact ⟨(rd8_zero_iff (by rw [length]; exact some)).1 code, fits.1 ⟨length, count⟩⟩
  · obtain ⟨length, count⟩ := fits.2 h
    exact ⟨(rd8_zero_iff (by rw [length]; exact some)).2 code, length, count⟩

/-! ### The end of an attempt -/

/-- The bus is IDLE with some notices handed over, and R136 applies. -/
def idleWith (b : Bus) (ns : List Notice) (s : State) : State :=
  grantBus ((s.withBus { b with current := none }).withNotices (s.notices ++ ns))

theorem endTransaction_eq (b : Bus) (ns : List Notice) (s : State) :
    endTransaction (postAll ns (s.withBus b)) = idleWith b ns s := rfl

theorem noReply_first (h : p.attempt = 1) (k : SlotIx) (s : State) : noReply p k s =
    beginAttempt p.txn 2 (s.withBus { s.bus with retries := s.bus.retries.put k (min (s.bus.retries.get k + 1) 65535) }) := if_pos h

theorem noReply_second (h : p.attempt ≠ 1) (k : SlotIx) (s : State) : noReply p k s =
    idleWith { s.bus with failures := s.bus.failures.put k (min (s.bus.failures.get k + 1) 65535) }
      (failureNotices p.txn ++ [.busFailure k]) s := if_neg h

/-- R137: what a lacking reply leads to. -/
theorem noReply_parts (h : p.attempt = 1) (k : SlotIx) (s : State) :
    let t := noReply p k s
    OnlyChanges [.bus, .modules] s t ∧
    t.bus = { s.bus with
      retries := s.bus.retries.put k (min (s.bus.retries.get k + 1) 65535)
      attempts := s.bus.attempts + 1, current := some (attemptOf p.txn 2 s) } ∧
    ModulesHear p.txn (s.bus.attempts + 1) s t := by
  intro t
  have run : t = _ := noReply_first h k s
  rw [run]
  obtain ⟨frame, bus, hears⟩ := beginAttempt_parts p.txn 2
    (s.withBus { s.bus with retries := s.bus.retries.put k (min (s.bus.retries.get k + 1) 65535) })
  exact ⟨((only_withBus (by simp) _).2 (.refl _ s)).trans frame, bus, hears⟩

theorem exec_moduleReply (hp : s.bus.current = some p) (hk : p.txn.slot = some k) (n : Nat) (bytes : List Byte) :
    exec (.moduleReply n bytes) s = .next (if p.attemptNo = n then takeReply p k bytes s else s) := by
  show execModuleReply n bytes s = _
  simp only [execModuleReply, hp, hk]

theorem exec_replyTimeout (hp : s.bus.current = some p) (hk : p.txn.slot = some k) :
    exec .replyTimeout s = .next (if s.elapsed (p.began + replyTimeout) then noReply p k s else s) := by
  show execReplyTimeout s = _
  simp only [execReplyTimeout, hp, hk]

end

/-- Settles O57. -/
theorem transactionsEndByTheirRules : Obligations.TransactionsEndByTheirRules := by
  intro p s hp idle
  refine ⟨?_, fun broadcast => ?_⟩
  · intro k hk failed lacking
    have failedNotices : failureNotices p.txn ++ [.busFailure k] = failed := by
      simp only [failed]
      cases p.txn with
      | readback j f idx => cases f <;> rfl
      | _ => rfl
    have lacks {i : Instr} (run : exec i s = .next (noReply p k s)) : lacking i := by
      refine ⟨fun first => ?_, fun second => ?_⟩
      · obtain ⟨frame, bus, hears⟩ := noReply_parts first k s
        exact ⟨_, run, frame, bus, hears⟩
      · rw [run, noReply_second second, failedNotices] <;> rfl
    refine ⟨?_, fun late => lacks ?_, fun early => ?_⟩
    · intro bytes values right answers
      have good : goodReply p.txn bytes = true ↔ right := by
        rw [goodReply_iff hk]
        simp only [right, ReplyFits] <;> cases p.txn <;> rfl
      have answered : answerNotices p.txn bytes = answers := by
        simp only [answers]
        cases p.txn with
        | readback j f idx => cases f <;> rfl
        | _ => rfl
      have taken : exec (.moduleReply p.attemptNo bytes) s = .next (takeReply p k bytes s) :=
        (exec_moduleReply hp hk p.attemptNo bytes).trans (congrArg _ (if_pos rfl))
      refine ⟨fun h => taken.trans (congrArg _ ((if_pos (good.2 h)).trans ?_)),
        fun h => lacks (taken.trans (congrArg _ (if_neg (mt good.1 h)))), fun n hn => ?_⟩
      · rw [answered]
        rfl
      · exact (exec_moduleReply hp hk n bytes).trans (congrArg _ (if_neg hn.symm))
    · exact (exec_replyTimeout hp hk).trans (congrArg _ (if_pos (decide_eq_true late)))
    · exact (exec_replyTimeout hp hk).trans (congrArg _ (if_neg fun e => absurd (of_decide_eq_true e) (Nat.not_le.2 early)))
  · have none : endTransaction s = idle s.bus [] := by
      show _ = grantBus ((s.withBus { s.bus with current := none }).withNotices (s.notices ++ []))
      rw [List.append_nil] <;> rfl
    show execBroadcastEnd s = _
    obtain h | ⟨h, values⟩ := broadcast
    · simp only [execBroadcastEnd, hp, h, none]
    · simp only [execBroadcastEnd, hp, h, Option.isSome_iff_ne_none.2 values, if_true, none]

end Sys2Proof.Machine
end


section
/-! PROOFS. The bus controller takes requests (O55). -/

namespace Sys2Proof.Machine

/-! ### A STAGE that waits -/

theorem mem_takeWhile_iff {α : Type} {p : α → Bool} {xs : List α} {x : α} : x ∈ xs.takeWhile p ↔
    ∃ front back, xs = front ++ [x] ++ back ∧ ∀ y ∈ front ++ [x], p y = true := by
  constructor
  · intro hx
    obtain ⟨front, rest, split⟩ := List.append_of_mem hx
    refine ⟨front, rest ++ xs.dropWhile p, ?_, fun y hy => List.mem_takeWhile_imp (p := p) (l := xs) ?_⟩
    · refine (List.takeWhile_append_dropWhile (p := p) (l := xs)).symm.trans ?_
      rw [split]
      simp
    · rw [split]
      exact List.mem_append.2 ((List.mem_append.1 hy).imp_right fun h => by rw [List.mem_singleton.1 h]; exact .head _)
  · rintro ⟨front, back, rfl, h⟩
    rw [List.takeWhile_append_of_pos h]
    exact List.mem_append_left _ (List.mem_append_right _ (List.mem_singleton.2 rfl))

section
variable {s : State} {q : Requester} {k : SlotIx} {t : Txn} {n : Notice}

theorem driveSafeFor_isSome : (t.driveSafeFor k).isSome = true ↔ ∃ vs, t = .driveSafe k vs := by
  cases t with
  | driveSafe j vs =>
    unfold Txn.driveSafeFor
    dsimp only
    split
    · next e => exact ⟨fun _ => ⟨vs, e ▸ rfl⟩, fun _ => rfl⟩
    · next e => exact ⟨nofun, fun ⟨_, h⟩ => absurd (Txn.driveSafe.inj h).1 e⟩
  | _ => simp [Txn.driveSafeFor]

theorem drivesSafe_iff : n.drivesSafe k (!s.isHalted) = true ↔
    (∃ r vs, n = .busRequest r (.driveSafe k vs)) ∨ (∃ time, n = .haltEntry .busController time) ∧ s.trigger.halted = none := by
  have running : (!s.isHalted) = true ↔ s.trigger.halted = none := by simp [State.isHalted]
  cases n with
  | busRequest r t =>
    refine driveSafeFor_isSome.trans ⟨fun ⟨vs, e⟩ => .inl ⟨r, vs, e ▸ rfl⟩, fun h => ?_⟩
    obtain ⟨r', vs, e⟩ | ⟨⟨time, e⟩, -⟩ := h
    · exact ⟨vs, (Notice.busRequest.inj e).2⟩
    · cases e
  | haltEntry b time =>
    cases b with
    | busController => exact running.trans ⟨fun h => .inr ⟨⟨time, rfl⟩, h⟩, fun h => h.elim (fun ⟨_, _, e⟩ => by cases e) (·.2)⟩
    | _ => simp [Notice.drivesSafe]
  | _ => simp [Notice.drivesSafe]

/-- R16, R136: what a STAGE for the slot stands behind. -/
def StandsBehind (s : State) (l : Lane) (k : SlotIx) : Prop := ∃ front y back, s.notices = front ++ [y] ++ back ∧
  (∀ z ∈ front ++ [y], noticeLane z ≠ l) ∧
  ((∃ r vs, y = .busRequest r (.driveSafe k vs)) ∨ (∃ time, y = .haltEntry .busController time) ∧ s.trigger.halted = none)

theorem stageMustWait_iff {l : Lane} : stageMustWait l t s = true ↔ ∃ k take items, t = .stage k take items ∧ StandsBehind s l k := by
  rw [stageMustWait_eq_true]
  refine exists_congr fun k => exists_congr fun take => exists_congr fun items => and_congr_right fun _ => ?_
  simp only [mem_takeWhile_iff, Bool.decide_eq_true, drivesSafe_iff, decide_eq_true_eq]
  constructor
  · rintro ⟨y, ⟨front, back, e, h⟩, drives⟩
    exact ⟨front, y, back, e, h, drives⟩
  · rintro ⟨front, y, back, e, h, drives⟩
    exact ⟨y, ⟨front, back, e, h⟩, drives⟩

/-! ### Taking a request -/

theorem exec_busRequest (hh : headNotice (requesterLane q) s = some (.busRequest q t)) : exec (.busRequest q) s =
    .next (if stageMustWait (requesterLane q) t s then s else takeBusRequest t (dropNotice (requesterLane q) s)) := by
  cases hw : stageMustWait (requesterLane q) t s with
  | true => exact congrArg Host.Outcome.next (onNotice_left hh (if_pos hw))
  | false => exact congrArg Host.Outcome.next (onNotice_some hh (if_neg (Bool.eq_false_iff.1 hw)))

theorem takeBusRequest_live (h : ∀ k, t.slot = some k → s.bus.live.get k = true) :
    takeBusRequest t s = grantBus (s.withBus (s.bus.enqueue t)) := by
  unfold takeBusRequest
  cases hk : t.slot with
  | none => rfl
  | some k => simp [h k hk]

theorem takeBusRequest_lost (hk : t.slot = some k) (h : s.bus.live.get k = false) :
    takeBusRequest t s = postAll (slotLostNotices t) s := by
  unfold takeBusRequest
  simp [hk, h]

end

/-! ### Queues -/

theorem mergeDriveSafe_new {k : SlotIx} {vs : List (Nat × Int)} {q : List Txn} (h : ∀ old, .driveSafe k old ∉ q) :
    mergeDriveSafe k vs q = q ++ [.driveSafe k vs] := by
  refine if_neg fun e => ?_
  obtain ⟨t, ht, some⟩ := List.any_eq_true.1 e
  obtain ⟨old, rfl⟩ := driveSafeFor_isSome.1 some
  exact h old ht

theorem map_notDriveSafe {k : SlotIx} {vs : List (Nat × Int)} {q : List Txn} (h : ∀ x, .driveSafe k x ∉ q) :
    (q.map fun t => match t.driveSafeFor k with
      | some old => .driveSafe k (mergeValues old vs)
      | none => t) = q := by
  refine (List.map_congr_left fun t ht => ?_).trans (List.map_id _)
  split
  · next old e =>
    obtain ⟨x, rfl⟩ := driveSafeFor_isSome.1 (Option.isSome_iff_exists.2 ⟨old, e⟩)
    exact absurd ht (h x)
  · rfl

/-- R135: a DRIVE_SAFE is merged with the one that waits for its slot. -/
theorem mergeDriveSafe_waiting {k : SlotIx} {vs old : List (Nat × Int)} {front back : List Txn}
    (hf : ∀ x, .driveSafe k x ∉ front) (hb : ∀ x, .driveSafe k x ∉ back) :
    mergeDriveSafe k vs (front ++ [.driveSafe k old] ++ back) = front ++ [.driveSafe k (mergeValues old vs)] ++ back := by
  have waits : ((front ++ [Txn.driveSafe k old] ++ back).any fun t => (t.driveSafeFor k).isSome) = true :=
    List.any_eq_true.2 ⟨.driveSafe k old, by simp, driveSafeFor_isSome.2 ⟨old, rfl⟩⟩
  refine (if_pos waits).trans ?_
  rw [List.map_append, List.map_append]
  refine congrArg₂ (· ++ ·) (congrArg₂ (· ++ ·) (map_notDriveSafe hf) ?_) (map_notDriveSafe hb)
  simp [Txn.driveSafeFor]

section
variable {older newer : List (Nat × Int)}

theorem mergeValues_keys (older newer : List (Nat × Int)) : (mergeValues older newer).map (·.1) =
    older.map (·.1) ++ (newer.filter fun v => v.1 ∉ older.map (·.1)).map (·.1) := by
  rw [mergeValues, List.map_append, List.map_map]
  refine congrArg₂ (· ++ ·) (List.map_congr_left fun v _ => ?_) (congrArg _ (List.filter_congr fun w _ => ?_))
  · show ((newer.find? fun w => w.1 = v.1).getD v).1 = v.1
    cases h : newer.find? fun w => w.1 = v.1 with
    | none => rfl
    | some w =>
      have found := List.find?_some h
      exact of_decide_eq_true found
  · rw [Bool.eq_iff_iff]
    simp only [Bool.not_eq_true', List.any_eq_false, decide_eq_true_eq, List.mem_map, not_exists, not_and]

/-- R135: the newer value of a channel replaces the older. -/
theorem mem_mergeValues (hn : (newer.map (·.1)).Nodup) {v : Nat × Int} :
    v ∈ mergeValues older newer ↔ v ∈ newer ∨ v ∈ older ∧ v.1 ∉ newer.map (·.1) := by
  rw [mergeValues, List.mem_append, List.mem_map, List.mem_filter]
  constructor
  · rintro (⟨o, ho, rfl⟩ | ⟨hv, -⟩)
    · cases h : newer.find? fun w => w.1 = o.1 with
      | none => exact .inr ⟨ho, fun e => by
          obtain ⟨w, hw, e⟩ := List.mem_map.1 e
          exact absurd (decide_eq_true e) (by simpa using List.find?_eq_none.1 h w hw)⟩
      | some w => exact .inl (List.mem_of_find?_eq_some h)
    · exact .inl hv
  · rintro (hv | ⟨ho, other⟩)
    · by_cases old : ∃ o ∈ older, o.1 = v.1
      · obtain ⟨o, ho, e⟩ := old
        refine .inl ⟨o, ho, ?_⟩
        rw [find?_of_only hv (decide_eq_true e.symm) fun w hw h =>
          List.inj_on_of_nodup_map hn hw hv ((of_decide_eq_true h).trans e)] <;> rfl
      · refine .inr ⟨hv, ?_⟩
        simpa using fun a b hab e => old ⟨(a, b), hab, e⟩
    · refine .inl ⟨v, ho, ?_⟩
      rw [List.find?_eq_none.2 fun w hw e => other (List.mem_map.2 ⟨w, hw, of_decide_eq_true e⟩)] <;> rfl

end

theorem joinOnce_eq (t : Txn) (q : List Txn) : joinOnce t q = if t ∈ q then q else q ++ [t] := by
  simp only [joinOnce, List.contains_iff_mem]

/-! ### A slot leaves its powered state -/

section
variable {s : State} {k : SlotIx}

theorem withdrawNaming_parts (k : SlotIx) (s : State) :
    (withdrawNaming k s).bus = { s.bus with
      commit := if s.bus.commit.any (fun c => c.slots.contains k) then none else s.bus.commit } ∧
    (∀ n ∈ s.notices, n ∈ (withdrawNaming k s).notices) ∧
    (∀ c, s.bus.commit = some c → k ∈ c.slots → .commitAnswer .slotLost ∈ (withdrawNaming k s).notices) := by
  unfold withdrawNaming
  cases hc : s.bus.commit with
  | none => exact ⟨congrArg (fun c => ({ s.bus with commit := c } : Bus)) hc, fun _ h => h, fun _ e => absurd e (by simp)⟩
  | some c =>
    by_cases named : c.slots.contains k = true
    · simp only [Option.any_some, if_pos named]
      exact ⟨rfl, fun n hn => List.mem_append_left _ hn, fun _ _ _ => List.mem_append_right _ (List.mem_singleton.2 rfl)⟩
    · simp only [Option.any_some, if_neg named]
      refine ⟨congrArg (fun c => ({ s.bus with commit := c } : Bus)) hc, fun _ h => h, fun c' e hk => ?_⟩
      obtain rfl := Option.some.inj e
      exact absurd (List.contains_iff_mem.2 hk) named

/-- R139: the requests for the slot are removed and their requesters told. -/
theorem takeLeftPowered_live (h : s.bus.live.get k = true) : takeLeftPowered k s =
    withdrawNaming k (postAll ((queuedFor k s.bus).flatMap slotLostNotices) (s.withBus (s.bus.without k))) := if_pos h

theorem mem_queuedFor {t : Txn} {b : Bus} : t ∈ queuedFor k b ↔
    (t ∈ b.safeQ ∨ t ∈ b.applyQ ∨ t ∈ b.identifyQ ∨ t ∈ b.readbackQ) ∧ t.slot = some k := by
  simp [queuedFor, or_and_right]

end

/-- Settles O55. -/
theorem busTakesRequests : Obligations.BusTakesRequests := by
  refine ⟨?_, fun b k vs => ?_, ?_, fun k s hh => congrArg Host.Outcome.next (onNotice_some hh rfl), ?_,
    fun time s hh => congrArg Host.Outcome.next (onNotice_some hh rfl), fun c s hh live => ?_, fun c s hh ⟨k, hk, lost⟩ => ?_⟩
  · intro q t s hh u behind waits
    have run := exec_busRequest hh
    have must : stageMustWait (requesterLane q) t s = true ↔ waits := stageMustWait_iff
    have taken (h : ¬ waits) : exec (.busRequest q) s = .next (takeBusRequest t u) :=
      run.trans (congrArg _ (if_neg (mt must.1 h)))
    refine ⟨fun h => run.trans (congrArg _ (if_pos (must.2 h))), fun h live => (taken h).trans (congrArg _ (takeBusRequest_live live)),
      fun k take items h ht lost => (taken h).trans (congrArg _ ?_), fun k e idx ht lost => (taken ?_).trans (congrArg _ ?_),
      fun k hk lost notStage notCapture => (taken ?_).trans (congrArg _ ?_)⟩
    · subst ht
      exact takeBusRequest_lost (s := u) rfl lost
    · rintro ⟨k', take, items, e, -⟩
      exact absurd (ht.symm.trans e) nofun
    · subst ht
      exact takeBusRequest_lost (s := u) rfl lost
    · rintro ⟨k', take, items, e, -⟩
      obtain rfl : k' = k := by
        rw [e] at hk
        exact Option.some.inj hk
      exact notStage take items e
    · rw [takeBusRequest_lost (s := u) hk lost]
      have none : slotLostNotices t = [] := by
        unfold slotLostNotices
        split
        · next j n items => exact absurd (by rw [← Option.some.inj hk]) (notStage n items)
        · next j e idx => exact absurd (by rw [← Option.some.inj hk]) (notCapture e idx)
        all_goals rfl
      rw [none, postAll, List.append_nil] <;> rfl
  · refine ⟨fun n items => rfl, fun n => rfl, fun n idx => rfl, fun n idx => rfl, ?_, ?_, fun new => ?_,
      fun old front back e hf hb => ⟨mergeValues old vs, ?_, mergeValues_keys old vs, fun hn _ v => mem_mergeValues hn⟩⟩
    · show { b with applyQ := joinOnce .abandon b.applyQ } = _
      rw [joinOnce_eq]
      split <;> rfl
    · show { b with safeQ := joinOnce .safeAll b.safeQ } = _
      rw [joinOnce_eq]
      split <;> rfl
    · show { b with safeQ := mergeDriveSafe k vs b.safeQ } = _
      rw [mergeDriveSafe_new new]
    · show { b with safeQ := mergeDriveSafe k vs b.safeQ } = _
      rw [e, mergeDriveSafe_waiting hf hb]
  · intro w s hh u
    have run : exec .withdrawal s = .next (takeWithdrawal w u) := congrArg Host.Outcome.next (onNotice_some hh rfl)
    refine ⟨fun take hw => run.trans (by rw [hw] <;> rfl), fun es hw => run.trans (by rw [hw] <;> rfl),
      fun take c hw hc ht => run.trans (congrArg _ ?_), fun take hw other => run.trans (congrArg _ ?_)⟩
    · have hc : u.bus.commit = some c := hc
      simp only [hw, takeWithdrawal, hc]
      exact if_pos ht
    · subst hw
      unfold takeWithdrawal
      dsimp only
      split
      · next c hc => exact if_neg (other c hc)
      · rfl
  · intro k s hh u other
    have run : exec (.leftPoweredNotice k) s = .next (takeLeftPowered k u) := congrArg Host.Outcome.next (onNotice_some hh rfl)
    refine ⟨fun dead => run.trans (congrArg _ (if_neg (Bool.eq_false_iff.1 dead))), fun live => ⟨_, run, ?_⟩⟩
    have frame : OnlyChanges [.bus, .notices] s (takeLeftPowered k u) :=
      (only_takeLeftPowered (by simp) (by simp) k).2 ((only_dropNotice (by simp) _).2 (.refl _ s))
    have told := takeLeftPowered_live (s := u) (k := k) live
    obtain ⟨bus, kept, answered⟩ := withdrawNaming_parts k
      (postAll ((queuedFor k u.bus).flatMap slotLostNotices) (u.withBus (u.bus.without k)))
    rw [← told] at bus kept answered
    have lost {t : Txn} {n : Notice} (ht : t ∈ queuedFor k s.bus) (hn : n ∈ slotLostNotices t) :
        n ∈ (takeLeftPowered k u).notices :=
      kept n (List.mem_append_right _ (List.mem_flatMap.2 ⟨t, ht, hn⟩))
    refine ⟨frame, bus, fun n items h => lost (mem_queuedFor.2 ⟨.inr (.inl h), rfl⟩) (List.mem_singleton.2 rfl),
      fun e idx h => lost (mem_queuedFor.2 ⟨.inr (.inr (.inr h)), rfl⟩) (List.mem_singleton.2 rfl), answered⟩
  · refine congrArg Host.Outcome.next (onNotice_some hh (congrArg some (if_pos ?_)))
    exact List.all_eq_true.2 live
  · refine congrArg Host.Outcome.next (onNotice_some hh (congrArg some (if_neg fun e => ?_)))
    exact absurd ((List.all_eq_true.1 e k hk).symm.trans lost) nofun

end Sys2Proof.Machine
end


section
/-! PROOFS. Reports are held, numbered, handed over, retransmitted and retired (O59). -/

namespace Sys2Proof.Machine

/-! ### A frame handed to its Link Port -/

section
variable {s t : State} {n : SessionIx} {o : Outstanding} {k : Session}

/-- R172: the session's report of that sequence still waits at the Link Port. -/
def stillWaits (l : LinkId) (n : SessionIx) (o : Outstanding) (s : State) : Prop :=
  ∃ f ∈ (s.link l).reports, f.session = n ∧ f.seq = o.seq

theorem stillWaits_iff {l : LinkId} :
    ((s.link l).reports.any fun f => f.session = n && f.seq = o.seq) = true ↔ stillWaits l n o s := by
  simp [stillWaits]

theorem handFrame_waiting (hk : s.session n = some k) (hw : stillWaits k.link n o s) : handFrame n o s = s := by
  simp only [handFrame, hk]
  exact if_pos (stillWaits_iff.2 hw)

theorem handFrame_queued (hk : s.session n = some k) (hw : ¬ stillWaits k.link n o s) : handFrame n o s =
    startSending k.link (s.withLink k.link
      { s.link k.link with reports := (s.link k.link).reports ++ [⟨o.uid, n, o.seq, o.report⟩] }) := by
  simp only [handFrame, hk]
  exact if_neg fun h => hw (stillWaits_iff.1 h)

theorem handFrame_closed (hk : s.session n = none) : handFrame n o s = s := by simp only [handFrame, hk]

theorem link_handFrame_congr (hs : s.session n = t.session n) (hl : ∀ l, s.link l = t.link l) (l : LinkId) :
    (handFrame n o s).link l = (handFrame n o t).link l := by
  cases hk : t.session n with
  | none => rw [handFrame_closed (hs.trans hk), handFrame_closed hk, hl]
  | some k =>
    have same : stillWaits k.link n o s ↔ stillWaits k.link n o t := by rw [stillWaits, stillWaits, hl]
    by_cases hw : stillWaits k.link n o t
    · rw [handFrame_waiting (hs.trans hk) (same.2 hw), handFrame_waiting hk hw, hl]
    · rw [handFrame_queued (hs.trans hk) (mt same.1 hw), handFrame_queued hk hw, startSending_link, startSending_link,
        hl k.link]
      by_cases e : l = k.link
      · subst e
        simp only [State.link_withLink_self]
      · simp only [State.link_withLink_ne _ _ _ e, hl]

theorem handFrame_parts (n : SessionIx) (o : Outstanding) (s : State) : OnlyChanges [.linkA, .linkB] s (handFrame n o s) :=
  (only_handFrame (by simp) (by simp) n o).2 (.refl _ s)

theorem session_handFrame (m : SessionIx) : (handFrame n o s).session m = s.session m :=
  congrArg (·.records.get m) (handFrame_parts n o s .sessions (by simp))

/-- The frames of a list of reports are handed over in its order. -/
def handFrames (n : SessionIx) (os : List Outstanding) (s : State) : State := os.foldl (fun v o => handFrame n o v) s

theorem link_handFrames_congr {os : List Outstanding} (hs : s.session n = t.session n) (hl : ∀ l, s.link l = t.link l)
    (l : LinkId) : (handFrames n os s).link l = (handFrames n os t).link l := by
  induction os generalizing s t with
  | nil => exact hl l
  | cons o os ih =>
    exact ih ((session_handFrame n).trans (hs.trans (session_handFrame n).symm)) (link_handFrame_congr hs hl)

end

/-! ### The lists at rest -/

section
variable {s t : State} {n : SessionIx}

/-- R176 step 2: an OVERRUN is due, now or once a report has been promoted. -/
abbrev overrunDue (x : ReportLists) : Prop := 0 < x.dropped ∧ (x.held.length < 32 ∨ x.outstanding.length < 8)

/-- The held reports with the OVERRUN that joins them. -/
def withOverrun (x : ReportLists) (now : Nat) : List Report :=
  x.held ++ if overrunDue x then [.overrun x.dropped now] else []

/-- The reports that find room among the outstanding ones. -/
def promotedOf (x : ReportLists) (now : Nat) : List Report := (withOverrun x now).take (8 - x.outstanding.length)

/-- R176: one state follows from another by bringing the lists of a session to rest. -/
structure Settles (n : SessionIx) (s t : State) : Prop where
  held : (t.lists n).held = (withOverrun (s.lists n) s.clock.rig).drop (8 - (s.lists n).outstanding.length)
  dropped : (t.lists n).dropped = if overrunDue (s.lists n) then 0 else (s.lists n).dropped
  nextSeq : (t.lists n).nextSeq = nextReportSeq^[(promotedOf (s.lists n) s.clock.rig).length] (s.lists n).nextSeq
  promoted : ∃ new, (t.lists n).outstanding = (s.lists n).outstanding ++ new ∧
    new.map (·.report) = promotedOf (s.lists n) s.clock.rig ∧
    new.map (·.seq) = (List.range new.length).map (fun i => nextReportSeq^[i] (s.lists n).nextSeq) ∧
    (∀ o ∈ new, o.timer = .sending ∧ o.retransmissions = 0) ∧ ∀ l, t.link l = (handFrames n new s).link l

/-- R176: neither step applies. -/
theorem Settles.atRest (hh : (s.lists n).held = [] ∨ 8 ≤ (s.lists n).outstanding.length) (hd : ¬ overrunDue (s.lists n)) :
    Settles n s s := by
  have all : withOverrun (s.lists n) s.clock.rig = (s.lists n).held := by rw [withOverrun, if_neg hd, List.append_nil]
  have noneTaken : promotedOf (s.lists n) s.clock.rig = [] := by
    rw [promotedOf, all]
    rcases hh with hh | hh
    · rw [hh, List.take_nil]
    · rw [Nat.sub_eq_zero_of_le hh, List.take_zero]
  refine ⟨?_, (if_neg hd).symm, by rw [noneTaken, List.length_nil, Function.iterate_zero_apply], [],
    (List.append_nil _).symm, noneTaken.symm, rfl, fun _ h => absurd h List.not_mem_nil, fun _ => rfl⟩
  rw [all]
  rcases hh with hh | hh
  · rw [hh, List.drop_nil]
  · rw [Nat.sub_eq_zero_of_le hh, List.drop_zero]

/-- The lists after the head of the held list has become outstanding. -/
def promotedLists (r : Report) (rest : List Report) (uid : Nat) (x : ReportLists) : ReportLists :=
  { x with held := rest, outstanding := x.outstanding ++ [⟨uid, x.nextSeq, r, 0, .sending⟩],
           nextSeq := nextReportSeq x.nextSeq }

theorem promote_parts (n : SessionIx) (r : Report) (rest : List Report) (s : State) :
    OnlyChanges [.reports, .linkA, .linkB] s (promote n r rest s) :=
  (only_promote (by simp) (by simp) (by simp) n r rest).2 (.refl _ s)

theorem lists_promote (r : Report) (rest : List Report) (m : SessionIx) : (promote n r rest s).lists m =
    if n = m then promotedLists r rest s.reports.nextUid (s.lists n) else s.lists m := by
  rw [promote, State.lists, reports_handFrame]
  exact State.lists_withLists s n m _

theorem link_promote (r : Report) (rest : List Report) (l : LinkId) : (promote n r rest s).link l =
    (handFrame n ⟨s.reports.nextUid, (s.lists n).nextSeq, r, 0, .sending⟩ s).link l := by
  let x := s.withLists n (promotedLists r rest s.reports.nextUid (s.lists n))
  let u := x.withReports { x.reports with nextUid := s.reports.nextUid + 1 }
  exact link_handFrame_congr (s := u) (t := s) rfl (fun l => by cases l <;> rfl) l

theorem session_promote (r : Report) (rest : List Report) (m : SessionIx) : (promote n r rest s).session m = s.session m :=
  congrArg (·.records.get m) (promote_parts n r rest s .sessions (by simp))

theorem clock_promote (r : Report) (rest : List Report) : (promote n r rest s).clock = s.clock :=
  promote_parts n r rest s .clock (by simp)

section
variable {r : Report} {rest : List Report} {x : ReportLists} {uid now : Nat}

theorem overrunDue_promotedLists (hh : x.held = r :: rest) (hl : x.held.length ≤ 32) (ho : x.outstanding.length < 8) :
    overrunDue (promotedLists r rest uid x) ↔ overrunDue x := by
  rw [hh] at hl
  exact ⟨fun d => ⟨d.1, .inr ho⟩, fun d => ⟨d.1, .inl hl⟩⟩

theorem withOverrun_promotedLists (hh : x.held = r :: rest) (hl : x.held.length ≤ 32) (ho : x.outstanding.length < 8) :
    withOverrun x now = r :: withOverrun (promotedLists r rest uid x) now := by
  simp only [withOverrun, overrunDue_promotedLists hh hl ho, hh, List.cons_append]
  rfl

theorem length_promotedLists : (promotedLists r rest uid x).outstanding.length = x.outstanding.length + 1 :=
  List.length_append

theorem room_succ (ho : x.outstanding.length < 8) : 8 - x.outstanding.length = (8 - (x.outstanding.length + 1)) + 1 := by
  omega

theorem promotedOf_promotedLists (hh : x.held = r :: rest) (hl : x.held.length ≤ 32) (ho : x.outstanding.length < 8) :
    promotedOf x now = r :: promotedOf (promotedLists r rest uid x) now := by
  rw [promotedOf, promotedOf, withOverrun_promotedLists hh hl ho, room_succ ho, length_promotedLists, List.take_succ_cons]

end

/-- R176 step 1. -/
theorem Settles.of_promote {r : Report} {rest : List Report} (hh : (s.lists n).held = r :: rest)
    (hl : (s.lists n).held.length ≤ 32) (ho : (s.lists n).outstanding.length < 8)
    (h : Settles n (promote n r rest s) t) : Settles n s t := by
  obtain ⟨held, dropped, nextSeq, new, outs, reports, seqs, fresh, links⟩ := h
  rw [lists_promote, if_pos rfl, clock_promote] at held nextSeq reports
  rw [lists_promote, if_pos rfl] at dropped outs seqs
  have taken := promotedOf_promotedLists (now := s.clock.rig) (uid := s.reports.nextUid) hh hl ho
  refine ⟨?_, dropped.trans ?_, ?_, ⟨s.reports.nextUid, (s.lists n).nextSeq, r, 0, .sending⟩ :: new, ?_, ?_, ?_, ?_, fun l => ?_⟩
  · rw [held, withOverrun_promotedLists hh hl ho, room_succ ho, length_promotedLists, List.drop_succ_cons]
  · simp only [overrunDue_promotedLists hh hl ho]
    rfl
  · rw [nextSeq, taken, List.length_cons, Function.iterate_succ_apply]
    rfl
  · rw [outs]
    exact List.append_assoc _ _ _
  · rw [taken, ← reports]
    rfl
  · rw [List.length_cons, List.range_succ_eq_map, List.map_cons, List.map_cons, List.map_map, seqs]
    rfl
  · exact List.forall_mem_cons.2 ⟨⟨rfl, rfl⟩, fresh⟩
  · rw [links l]
    exact link_handFrames_congr ((session_promote r rest n).trans (session_handFrame n).symm) (link_promote r rest) l

theorem lists_makeOverrun : (makeOverrun n s).lists n = { s.lists n with
    held := (s.lists n).held ++ [.overrun (s.lists n).dropped s.clock.rig], dropped := 0 } := by simp [makeOverrun]

theorem overrunDue_makeOverrun : ¬ overrunDue ((makeOverrun n s).lists n) := fun d => by
  rw [lists_makeOverrun] at d
  exact absurd d.1 (Nat.lt_irrefl 0)

theorem withOverrun_makeOverrun (hd : overrunDue (s.lists n)) :
    withOverrun ((makeOverrun n s).lists n) s.clock.rig = withOverrun (s.lists n) s.clock.rig := by
  rw [withOverrun, if_neg overrunDue_makeOverrun, withOverrun, if_pos hd, lists_makeOverrun, List.append_nil]

theorem promotedOf_makeOverrun (hd : overrunDue (s.lists n)) :
    promotedOf ((makeOverrun n s).lists n) s.clock.rig = promotedOf (s.lists n) s.clock.rig := by
  rw [promotedOf, withOverrun_makeOverrun hd, lists_makeOverrun, promotedOf]

/-- R176 step 2. -/
theorem Settles.of_makeOverrun (hd : overrunDue (s.lists n)) (h : Settles n (makeOverrun n s) t) : Settles n s t := by
  obtain ⟨held, dropped, nextSeq, new, outs, reports, seqs, fresh, links⟩ := h
  have clock : (makeOverrun n s).clock = s.clock := rfl
  rw [clock, promotedOf_makeOverrun hd] at nextSeq reports
  rw [clock, withOverrun_makeOverrun hd] at held
  rw [if_neg overrunDue_makeOverrun] at dropped
  rw [lists_makeOverrun] at held dropped nextSeq outs seqs
  refine ⟨held, ?_, nextSeq, new, outs, reports, seqs, fresh, fun l => (links l).trans ?_⟩
  · rw [dropped, if_pos hd]
  · exact link_handFrames_congr (s := makeOverrun n s) (t := s) rfl (fun l => by cases l <;> rfl) l

/-! ### The loop -/

theorem settleLoop_promote {r : Report} {rest : List Report} (fuel : Nat) (hh : (s.lists n).held = r :: rest)
    (ho : (s.lists n).outstanding.length < 8) : settleLoop (fuel + 1) n s = settleLoop fuel n (promote n r rest s) := by
  simp only [settleLoop, hh]
  exact if_pos ho

theorem settleLoop_makeOverrun (fuel : Nat) (hh : (s.lists n).held = [] ∨ 8 ≤ (s.lists n).outstanding.length)
    (hd : overrunDue (s.lists n)) : settleLoop (fuel + 1) n s = settleLoop fuel n (makeOverrun n s) := by
  rw [settleLoop]
  cases held : (s.lists n).held with
  | nil => exact if_pos hd.1
  | cons r rest =>
    have full : ¬ (s.lists n).outstanding.length < 8 := Nat.not_lt.2 (hh.resolve_left fun e => by rw [held] at e; cases e)
    exact (if_neg full).trans (if_pos (by rw [← held]; simpa using ⟨hd.1, hd.2.resolve_right full⟩))

theorem settleLoop_atRest (fuel : Nat) (hh : (s.lists n).held = [] ∨ 8 ≤ (s.lists n).outstanding.length)
    (hd : ¬ overrunDue (s.lists n)) : settleLoop (fuel + 1) n s = s := by
  rw [settleLoop]
  cases held : (s.lists n).held with
  | nil => exact if_neg fun d => hd ⟨d, .inl (by rw [held]; exact Nat.zero_lt_succ 31)⟩
  | cons r rest =>
    have full : ¬ (s.lists n).outstanding.length < 8 := Nat.not_lt.2 (hh.resolve_left fun e => by rw [held] at e; cases e)
    refine (if_neg full).trans (if_neg fun d => hd ?_)
    rw [← held] at d
    simp only [Bool.and_eq_true, decide_eq_true_eq] at d
    exact ⟨d.1, .inl d.2⟩

/-- R176: with fuel for every promotion and for the OVERRUN the lists come to rest. -/
theorem settles_settleLoop (fuel : Nat) (ho : (s.lists n).outstanding.length ≤ 8) (hl : (s.lists n).held.length ≤ 32)
    (enough : (promotedOf (s.lists n) s.clock.rig).length + (if overrunDue (s.lists n) then 1 else 0) ≤ fuel) :
    Settles n s (settleLoop fuel n s) := by
  induction fuel generalizing s with
  | zero =>
    have notDue : ¬ overrunDue (s.lists n) := fun d => by rw [if_pos d] at enough; omega
    refine .atRest ?_ notDue
    rw [promotedOf, withOverrun, if_neg notDue, List.append_nil, List.length_take] at enough
    rw [← List.length_eq_zero_iff]
    omega
  | succ fuel ih =>
    by_cases moves : (s.lists n).held ≠ [] ∧ (s.lists n).outstanding.length < 8
    · obtain ⟨r, rest, hh⟩ := List.exists_cons_of_ne_nil moves.1
      have lists : (promote n r rest s).lists n = promotedLists r rest s.reports.nextUid (s.lists n) := by
        rw [lists_promote, if_pos rfl]
      rw [settleLoop_promote fuel hh moves.2]
      refine .of_promote hh hl moves.2 (ih ?_ ?_ ?_)
      · rw [lists, length_promotedLists]
        exact moves.2
      · rw [hh] at hl
        rw [lists]
        exact Nat.le_of_succ_le hl
      · rw [promotedOf_promotedLists (uid := s.reports.nextUid) hh hl moves.2, List.length_cons] at enough
        rw [lists, clock_promote]
        simp only [overrunDue_promotedLists hh hl moves.2]
        omega
    · have stays : (s.lists n).held = [] ∨ 8 ≤ (s.lists n).outstanding.length := by
        by_contra h
        exact moves ⟨fun e => h (.inl e), Nat.not_le.1 fun e => h (.inr e)⟩
      by_cases due : overrunDue (s.lists n)
      · rw [settleLoop_makeOverrun fuel stays due]
        refine .of_makeOverrun due (ih ?_ ?_ ?_)
        · rw [lists_makeOverrun]
          exact ho
        · rw [lists_makeOverrun, List.length_append]
          rcases stays with hh | full
          · rw [hh]
            exact Nat.le_of_ble_eq_true rfl
          · exact due.2.resolve_right (Nat.not_lt.2 full)
        · rw [if_pos due] at enough
          rw [if_neg overrunDue_makeOverrun]
          exact (congrArg List.length (promotedOf_makeOverrun due)).trans_le (Nat.le_of_succ_le_succ enough)
      · rw [settleLoop_atRest fuel stays due]
        exact .atRest stays due

theorem settles_settleLists (ho : (s.lists n).outstanding.length ≤ 8) (hl : (s.lists n).held.length ≤ 32) :
    Settles n s (settleLists n s) := by
  refine settles_settleLoop 10 ho hl ?_
  have few : (promotedOf (s.lists n) s.clock.rig).length ≤ 8 := by
    rw [promotedOf, List.length_take]
    omega
  split <;> omega

theorem lists_settleLoop_ne {m : SessionIx} (h : m ≠ n) (fuel : Nat) : (settleLoop fuel n s).lists m = s.lists m := by
  induction fuel generalizing s with
  | zero => rfl
  | succ fuel ih =>
    have other (x : ReportLists) : (if n = m then x else s.lists m) = s.lists m := if_neg h.symm
    rw [settleLoop]
    repeat' split
    · rw [ih, lists_promote, other]
    · rw [ih, makeOverrun, State.lists_withLists, other]
    · rfl
    · rw [ih, makeOverrun, State.lists_withLists, other]
    · rfl

end

end Sys2Proof.Machine
end


section
/-! PROOFS. Reports are sent until they are acknowledged (O59). -/

namespace Sys2Proof.Machine

section
variable {s : State} {n : SessionIx} {k : Session} {x : ReportLists} {seq : Nat}

/-! ### Taking reports in -/

theorem takeReport_torn (r : Report) (h : (s.lists n).torn = true) : takeReport n r s = s := if_pos h

theorem takeReport_held (r : Report) (h : (s.lists n).torn = false) (room : (s.lists n).held.length < 32) :
    takeReport n r s = settleLists n (s.withLists n { s.lists n with held := (s.lists n).held ++ [r] }) :=
  (if_neg (Bool.eq_false_iff.1 h)).trans (if_pos room)

theorem takeHandover_session {i : Nat} (r : Report) (hk : s.session n = some k) :
    takeHandover (some (n, i)) r s = if i = k.incarnation then takeReport n r s else s := by
  simp only [takeHandover, hk]
  exact if_congr eq_comm rfl rfl

theorem takeReport_dropped (r : Report) (h : (s.lists n).torn = false) (full : 32 ≤ (s.lists n).held.length) :
    takeReport n r s = s.withLists n { s.lists n with dropped := min ((s.lists n).dropped + 1) 65535 } :=
  (if_neg (Bool.eq_false_iff.1 h)).trans (if_neg (Nat.not_lt.2 full))

/-! ### Retry timers -/

theorem startTimer_open (uid : Nat) (hk : s.session n = some k) : startTimer n uid s = s.withLists n { s.lists n with
    outstanding := (s.lists n).outstanding.map fun o => if o.uid = uid ∧ o.timer = .sending then
      { o with timer := .running (s.clock.uptime + k.retry * 1000) } else o } := by
  simp only [startTimer, hk, changeOutstanding]
  refine congrArg (fun os => s.withLists n { s.lists n with outstanding := os }) (List.map_congr_left fun o _ => ?_)
  by_cases hu : o.uid = uid
  · rw [if_pos hu]
    split
    · next e => rw [if_pos ⟨hu, e⟩] <;> rfl
    · next e => rw [if_neg fun h => by rw [e] at h; cases h.2]
    · next e => rw [if_neg fun h => by rw [e] at h; cases h.2]
  · rw [if_neg hu, if_neg fun h => hu h.1]

theorem retryExpiry_running {q : Half} {o : Outstanding} {t : Nat} (hk : s.session n = some k)
    (ho : ((s.lists n).outstanding.find? fun o => o.seq = q.toNat) = some o) (ht : o.timer = .running t) :
    exec (.retryExpiry n q) s = .next (if s.elapsed t then retryExpired n k o s else s) := by
  refine congrArg Host.Outcome.next ?_
  simp only [hk, ho, ht]

/-! ### Acknowledgement -/

theorem retiredBy_none {os : List Outstanding} (h : ∀ o ∈ os, o.seq ≠ seq) : retiredBy seq os = [] :=
  if_neg fun any => by
    obtain ⟨o, ho, e⟩ := List.any_eq_true.1 any
    exact h o ho (of_decide_eq_true e)

theorem retiredBy_split {front back : List Outstanding} {o : Outstanding} (ho : o.seq = seq) (hf : ∀ y ∈ front, y.seq ≠ seq) :
    retiredBy seq (front ++ [o] ++ back) = front ++ [o] := by
  have listed : ((front ++ [o] ++ back).any fun o => o.seq = seq) = true := List.any_eq_true.2 ⟨o, by simp, by simp [ho]⟩
  have place : (front ++ [o] ++ back).findIdx (fun o => o.seq = seq) = front.length := by
    rw [List.append_assoc, List.findIdx_append, if_neg]
    · simp [List.findIdx_cons, ho]
    · simpa [List.findIdx_lt_length] using hf
  rw [retiredBy, if_pos listed, place]
  exact List.take_left' (by simp)

theorem takeAck_unknown (h : ∀ o ∈ (s.lists n).outstanding, o.seq ≠ seq) : takeAck n seq s = s := if_pos (retiredBy_none h)

theorem takeAck_retires {front back : List Outstanding} {o : Outstanding} (hk : s.session n = some k)
    (hs : (s.lists n).outstanding = front ++ [o] ++ back) (ho : o.seq = seq) (hf : ∀ y ∈ front, y.seq ≠ seq) :
    takeAck n seq s = settleLists n ((s.withLists n { s.lists n with outstanding := back }).withLink k.link
      { s.link k.link with reports := (s.link k.link).reports.filter fun f =>
          !(f.session = n && (front ++ [o]).any fun y => y.uid = f.uid) }) := by
  have done := retiredBy_split (back := back) ho hf
  rw [takeAck, hs]
  simp only [done]
  rw [if_neg (by simp), List.drop_left, withdrawFrames, show (s.withLists n { s.lists n with outstanding := back }).session n =
    some k from hk]
  rfl

end

/-- Settles O59: the lists come to rest by induction on the loop, promotion by promotion, with the OVERRUN where it is
due. -/
theorem reportsAreSentUntilAcknowledged : Obligations.ReportsAreSentUntilAcknowledged := by
  refine ⟨?_, ?_, ?_, ?_, ?_, ?_, ?_, ?_⟩
  · intro line n i r k s hh hk u
    refine congrArg Host.Outcome.next (onNotice_some hh (congrArg some (takeHandover_session r hk)))
  · intro line r s hh wants
    refine congrArg Host.Outcome.next (onNotice_some hh (congrArg some ?_))
    have same : subscribed r = wants := by cases r <;> rfl
    rw [← same]
    rfl
  · intro n r s x
    exact ⟨takeReport_torn r, takeReport_held r, takeReport_dropped r⟩
  · intro n s x ho hl t room makes all next
    obtain ⟨held, dropped, nextSeq, new, promoted⟩ := settles_settleLists ho hl
    refine ⟨(only_settleLists (by simp) (by simp) (by simp) n).2 (.refl _ s), fun m hm => lists_settleLoop_ne hm 10,
      held, dropped, nextSeq, new, promoted⟩
  · intro n o k s hk j waits
    exact ⟨handFrame_waiting hk, handFrame_queued hk⟩
  · intro l n uid k s hh hk x
    exact congrArg Host.Outcome.next (onNotice_some hh (congrArg some (startTimer_open uid hk)))
  · intro n q k o t s hk ho ht x change
    have run := retryExpiry_running hk ho ht
    refine ⟨fun early => run.trans (congrArg _ (if_neg ?_)), fun now few => run.trans (congrArg _ ((if_pos ?_).trans ?_)),
      fun now many => run.trans (congrArg _ ((if_pos ?_).trans ?_))⟩
    · simpa [State.elapsed] using early
    · simpa [State.elapsed] using now
    · exact if_pos few
    · simpa [State.elapsed] using now
    · exact if_neg (Nat.not_lt.2 many)
  · intro l n i seq k s hh hk u x
    have run : exec (.ack l) s = .next (if k.incarnation = i then takeAck n seq u else u) := by
      refine congrArg Host.Outcome.next (onNotice_some hh ?_)
      simp only [show (dropNotice (.ack l) s).session n = some k from hk]
      rfl
    refine ⟨fun other => run.trans (congrArg _ ?_), fun front o back hi hs ho hf => run.trans (congrArg _ ?_)⟩
    · rcases other with hi | unknown
      · exact if_neg (Ne.symm hi)
      · exact (if_congr Iff.rfl (takeAck_unknown (s := u) unknown) rfl).trans (ite_self _)
    · exact (if_pos hi.symm).trans (takeAck_retires (s := u) hk hs ho hf)

end Sys2Proof.Machine
end


section
/-! PROOFS. DEVICE_RESET, and what every reset leaves (O60). -/

namespace Sys2Proof.Machine

section
variable {p : Pins} {s t y : State} {k : SlotIx}

/-! ### The slots after a reset -/

/-- R132, R133: what every reset leaves of a slot. -/
structure SlotWiped (p : Pins) (k : SlotIx) (x : Slot) : Prop where
  stateTime : x.stateTime = 0
  descriptor : x.descriptor = none
  fault : x.fault = none
  reading : x.reading = readingOf (p.sense.get k)

/-- R132: a slot whose rail is off. -/
structure SlotOff (p : Pins) (now : Nat) (k : SlotIx) (x : Slot) : Prop where
  rail : x.rail = none
  enable : x.enable = none
  held : x.held = false
  vacant : readingOf (p.sense.get k) = .vacant → x.state = .empty
  fitted : readingOf (p.sense.get k) ≠ .vacant → x.state = .settling ∧ x.settleTimer = some (now + 50000)

theorem slotWiped_afterReset (ident now : Nat) : SlotWiped p k (Slot.afterReset p k ident now) := by
  simp only [Slot.afterReset]
  split <;> exact ⟨rfl, rfl, rfl, rfl⟩

theorem slotOff_afterReset (ident now : Nat) : SlotOff p now k (Slot.afterReset p k ident now) := by
  simp only [Slot.afterReset]
  split
  · next vacant => exact ⟨rfl, rfl, rfl, fun _ => rfl, fun h => absurd vacant h⟩
  · next fitted => exact ⟨rfl, rfl, rfl, fun h => absurd h fitted, fun _ => ⟨rfl, rfl⟩⟩

theorem slotWiped_heldAfterReset (x : Slot) : SlotWiped p k (Slot.heldAfterReset p k x) := ⟨rfl, rfl, rfl, rfl⟩

/-- R133: which slots are kept powered. -/
theorem heldSlot_iff : heldSlot p s k = true ↔
    ∃ r, (s.slot k).enable = some r ∧ railFor (readingOf (p.sense.get k)) = some r ∧ p.powerGood.get k = true := by
  rw [heldSlot, heldThrough]
  cases h : (s.slot k).enable with
  | none => simp
  | some r =>
    simp only [Option.isSome_some, Bool.true_and, Bool.and_eq_true, decide_eq_true_eq]
    exact ⟨fun ⟨e, good⟩ => ⟨r, rfl, e.symm, good⟩, fun ⟨_, e, fits, good⟩ => ⟨e.trans fits.symm, good⟩⟩

/-! ### A reset that switches every rail off -/

theorem queueResetSafeAll_asserted (h : p.haltAsserted = true) : queueResetSafeAll p s = s.withBus (s.bus.enqueue .safeAll) :=
  if_pos h

theorem queueResetSafeAll_released (h : p.haltAsserted = false) : queueResetSafeAll p s = s := if_neg (Bool.eq_false_iff.1 h)

/-- R134: the bus after a reset. -/
structure BusWiped (b : Bus) : Prop where
  commit : b.commit = none
  applyQ : b.applyQ = []
  readbackQ : b.readbackQ = []
  counts : ∀ k, b.retries.get k = 0 ∧ b.failures.get k = 0

/-- R132, R134: what a reset leaves that switches every rail off. -/
structure Unpowered (p : Pins) (s t : State) : Prop where
  frame : OnlyChanges [.slots, .modules, .bus, .notices] (afterReset p s) t
  bus : BusWiped t.bus
  slots : ∀ k, t.slot k = Slot.afterReset p k (s.slot k).ident s.clock.uptime
  live : ∀ k, t.bus.live.get k = false
  modules : ∀ k, (t.module k).powered = false
  notices : t.notices = if p.haltAsserted then [.safeAllValues] else []
  identifyQ : t.bus.identifyQ = []
  released : p.haltAsserted = false → t.bus.current = none
  asserted : p.haltAsserted = true → ∃ q, t.bus.current = some q ∧ q.txn = .safeAll

theorem slot_afterReset : (afterReset p s).slot k = Slot.afterReset p k (s.slot k).ident s.clock.uptime := by
  simp [afterReset, State.slot]

theorem module_afterReset : (afterReset p s).module k = Module.off := by simp [afterReset, State.module, State.reset]

theorem unpowered_resetUnpowered (p : Pins) (s : State) : Unpowered p s (resetUnpowered p s) := by
  have wiped : ∀ k : SlotIx, (Bus.reset.retries.get k = 0 ∧ Bus.reset.failures.get k = 0) ∧ Bus.reset.live.get k = false :=
    fun k => by simp [Bus.reset]
  cases h : p.haltAsserted with
  | false =>
    have same : resetUnpowered p s = afterReset p s := by
      rw [resetUnpowered, queueResetSafeAll_released h, grantBus_idle rfl rfl]
      rfl
    rw [same]
    exact ⟨.refl _ _, ⟨rfl, rfl, rfl, fun k => (wiped k).1⟩, fun _ => slot_afterReset, fun k => (wiped k).2,
      fun k => by rw [module_afterReset] <;> rfl, by rw [h] <;> rfl, rfl, fun _ => rfl, fun e => absurd (h.symm.trans e) nofun⟩
  | true =>
    have granted := startTransaction_granted (s := queueResetSafeAll p (afterReset p s)) (b := (afterReset p s).bus)
      (by rw [queueResetSafeAll_asserted h] <;> rfl) rfl .safeAll
    have same : resetUnpowered p s =
        startTransaction .safeAll ((queueResetSafeAll p (afterReset p s)).withBus (afterReset p s).bus) := by
      rw [resetUnpowered, queueResetSafeAll_asserted h, grantBus_idle rfl rfl]
      rfl
    rw [← same, queueResetSafeAll_asserted h] at granted
    have kept : OnlyChanges [.slots, .modules, .bus, .notices] (afterReset p s) (resetUnpowered p s) := fun q hq => by
      by_cases e : q = .engine
      · subst e
        exact granted.engine (by simp)
      · refine (((only_withBus (by simp) _).2 (.refl _ _)).trans granted.frame) q fun hm => hq ?_
        simp only [List.mem_cons, List.not_mem_nil, or_false] at hm ⊢
        simp_all
    refine ⟨kept, ?_, fun k => ?_, fun k => ?_, fun k => ?_, ?_, ?_, fun e => absurd (h.symm.trans e) nofun, fun _ => ?_⟩
    · rw [granted.bus]
      exact ⟨rfl, rfl, rfl, fun k => (wiped k).1⟩
    · exact (congrArg (Table.get · k) (granted.frame .slots (by simp))).trans slot_afterReset
    · rw [granted.bus]
      exact (wiped k).2
    · rw [granted.hears k]
      exact (congrArg Module.powered (ite_self _)).trans (congrArg Module.powered (module_afterReset (p := p) (s := s)))
    · rw [granted.notices, h]
      rfl
    · rw [granted.bus]
      rfl
    · rw [granted.bus]
      exact ⟨_, rfl, rfl⟩

/-! ### A held reset -/

/-- R133, R134: what a held reset leaves. -/
structure HeldThrough (p : Pins) (s v : State) : Prop where
  frame : OnlyChanges [.slots, .modules, .bus, .notices] (afterReset p s) v
  bus : BusWiped v.bus
  slots : ∀ k, v.slot k = if heldSlot p s k then Slot.heldAfterReset p k (s.slot k)
    else Slot.afterReset p k (s.slot k).ident s.clock.uptime
  live : ∀ k, v.bus.live.get k = heldSlot p s k
  modules : ∀ k, v.module k = if heldSlot p s k then (s.module k).abandon else Module.off
  notices : v.notices = []
  current : ∃ q, v.bus.current = some q ∧ q.txn = .abandon
  safeQ : v.bus.safeQ = if p.haltAsserted then [.safeAll] else []
  describes : ∀ k, heldSlot p s k = true → .describe k (v.slot k).ident ∈ v.bus.identifyQ

theorem slot_keepPowered : (keepPowered p s t).slot k = if heldSlot p s k then Slot.heldAfterReset p k (s.slot k)
    else Slot.afterReset p k (s.slot k).ident s.clock.uptime := by
  simp [keepPowered, State.slot]

theorem module_keepPowered : (keepPowered p s t).module k = if heldSlot p s k then (s.module k).abandon else Module.off := by
  simp [keepPowered, State.module]

/-- The DESCRIBEs of the kept slots join the queue, and nothing else changes. -/
theorem bus_queueDescribes (ks : List SlotIx) (u : State) : (ks.foldl queueDescribe u).bus =
    { u.bus with identifyQ := u.bus.identifyQ ++ ks.map fun k => .describe k (u.slot k).ident } := by
  induction ks generalizing u with
  | nil => rw [List.foldl_nil, List.map_nil, List.append_nil]
  | cons k ks ih =>
    rw [List.foldl_cons, ih, List.map_cons, List.append_cons]
    rfl

theorem queueDescribes_frame (ks : List SlotIx) (u : State) : OnlyChanges [.bus] u (ks.foldl queueDescribe u) := by
  rw [only_foldl _ _ fun v k => only_queueDescribe (by simp) k]
  exact .refl _ u

theorem bus_queueResetSafeAll : (queueResetSafeAll p t).bus = if p.haltAsserted then t.bus.enqueue .safeAll else t.bus := by
  unfold queueResetSafeAll
  split <;> rfl

theorem heldThrough_resetHeld (p : Pins) (s : State) : HeldThrough p s (resetHeld p s) := by
  obtain ⟨began, bus, hears⟩ := beginAttempt_parts .abandon 1 (keepPowered p s (afterReset p s))
  obtain ⟨w, hw⟩ : ∃ w, w = beginAttempt .abandon 1 (keepPowered p s (afterReset p s)) := ⟨_, rfl⟩
  obtain ⟨ks, hks⟩ : ∃ ks, ks = allSlots.filter (heldSlot p s) := ⟨_, rfl⟩
  have run : resetHeld p s = ks.foldl queueDescribe (queueResetSafeAll p w) := by rw [hw, hks] <;> rfl
  rw [← hw] at began bus hears
  have queued : OnlyChanges [.bus] w (resetHeld p s) := by
    rw [run]
    exact ((only_queueResetSafeAll (by simp) p).2 (.refl _ w)).trans (queueDescribes_frame ks _)
  have slot (k : SlotIx) : (resetHeld p s).slot k = _ :=
    (congrArg (Table.get · k) ((queued .slots (by simp)).trans (began .slots (by simp)))).trans slot_keepPowered
  have busNow : (resetHeld p s).bus = { Bus.reset with
      attempts := s.bus.attempts + 1, live := Table.tab (heldSlot p s)
      current := some (attemptOf .abandon 1 (keepPowered p s (afterReset p s)))
      safeQ := if p.haltAsserted then [.safeAll] else []
      identifyQ := ks.map fun k => .describe k ((queueResetSafeAll p w).slot k).ident } := by
    rw [run, bus_queueDescribes, bus_queueResetSafeAll, bus]
    cases p.haltAsserted <;> rfl
  have sameSlots : (resetHeld p s).slots = (queueResetSafeAll p w).slots := by
    rw [run]
    exact queueDescribes_frame ks _ .slots (by simp)
  have kept : OnlyChanges [.slots, .modules, .bus, .notices] (afterReset p s) (keepPowered p s (afterReset p s)) := by
    simp [keepPowered]
  refine ⟨(kept.trans (began.mono (by simp))).trans (queued.mono (by simp)), ?_, slot, fun k => ?_, fun k => ?_, ?_, ?_, ?_,
    fun k hk => ?_⟩
  · rw [busNow]
    exact ⟨rfl, rfl, rfl, fun k => by simp [Bus.reset]⟩
  · rw [busNow]
    exact Table.get_tab _ _
  · refine (congrArg (Table.get · k) (queued .modules (by simp))).trans ((hears k).trans ?_)
    rw [module_keepPowered]
    split <;> split <;> rfl
  · exact (queued .notices (by simp)).trans (began .notices (by simp))
  · rw [busNow]
    exact ⟨_, rfl, rfl⟩
  · rw [busNow]
  · rw [busNow, State.slot, sameSlots]
    exact List.mem_map.2 ⟨k, by rw [hks]; exact List.mem_filter.2 ⟨List.mem_finRange k, hk⟩, rfl⟩

end

/-- Settles O60: every block but the slots, the modules and the bus is at its after-reset value, and a held reset differs
from the others in the slots that it keeps powered and in what the bus serves. -/
theorem resetsLeaveTheirValues : Obligations.ResetsLeaveTheirValues := by
  refine ⟨fun h kind n s => ?_, fun pins s => ?_, fun p s => ?_⟩
  · intro r stands stop
    refine ⟨fun hi hs he hk => serve_refuseBadField hi hs he fun _ => ?_, fun k a hk hp => serve_eq a ?_, fun k q a hk hp => serve_eq a ?_⟩
    · simp only [deviceResetBody, hk] <;> rfl
    · simp only [deviceResetBody, hk, hp] <;> rfl
    · simp only [deviceResetBody, hk, hp] <;> rfl
  · refine ⟨fun h => congrArg Host.Outcome.next (if_neg (Bool.eq_false_iff.1 h)),
      fun h hp => congrArg Host.Outcome.next ((if_pos h).trans ?_), fun h hp => congrArg Host.Outcome.next ((if_pos h).trans ?_)⟩
    · simp only [hp]
    · simp only [hp]
  · have off := unpowered_resetUnpowered p s
    have held := heldThrough_resetHeld p s
    refine ⟨resetUnpowered p s, resetHeld p s, rfl, rfl, rfl, ?_⟩
    intro lists line kept
    refine ⟨fun y hy => ?_, off.notices, held.notices, off.identifyQ, off.released, off.asserted, held.current, held.safeQ,
      fun k hk => ?_⟩
    · have frame : OnlyChanges [.slots, .modules, .bus, .notices] (afterReset p s) y := by
        rcases hy with rfl | rfl
        · exact off.frame
        · exact held.frame
      have bus : BusWiped y.bus := by
        rcases hy with rfl | rfl
        · exact off.bus
        · exact held.bus
      have slot (k : SlotIx) : SlotWiped p k (y.slot k) := by
        rcases hy with rfl | rfl
        · rw [off.slots]
          exact slotWiped_afterReset _ _
        · rw [held.slots]
          split
          · exact slotWiped_heldAfterReset _
          · exact slotWiped_afterReset _ _
      have clock : y.clock = (afterReset p s).clock := frame .clock (by simp)
      have claims : y.claims = (afterReset p s).claims := frame .claims (by simp)
      have trigger : y.trigger = (afterReset p s).trigger := frame .trigger (by simp)
      refine ⟨by rw [clock] <;> rfl, by rw [clock] <;> rfl, fun c => ?_, by rw [claims] <;> rfl, by rw [claims] <;> rfl,
        frame .assembler (by simp), frame .schedule (by simp), frame .cycles (by simp), frame .engine (by simp),
        frame .sessions (by simp), frame .reports (by simp), by rw [trigger] <;> rfl, by rw [trigger] <;> rfl,
        by rw [trigger] <;> rfl, by rw [trigger] <;> rfl, by rw [trigger] <;> rfl, fun l => ?_, bus.commit, bus.applyQ,
        bus.readbackQ, bus.counts,
        fun k => ⟨(slot k).stateTime, (slot k).descriptor, (slot k).fault, (slot k).reading⟩, fun k hk => ?_⟩
      · rw [State.channel, claims]
        simp [afterReset, State.reset]
      · cases l
        · exact frame .linkA (by simp)
        · exact frame .linkB (by simp)
      · have isOff : SlotOff p s.clock.uptime k (y.slot k) ∧ y.bus.live.get k = false ∧ (y.module k).powered = false := by
          by_cases isT : y = resetUnpowered p s
          · rw [isT]
            exact ⟨by rw [off.slots]; exact slotOff_afterReset _ _, off.live k, off.modules k⟩
          · have notKept : heldSlot p s k = false := Bool.eq_false_iff.2 fun h => hk.resolve_left isT (heldSlot_iff.1 h)
            rw [hy.resolve_left isT]
            refine ⟨?_, by rw [held.live, notKept], ?_⟩
            · rw [held.slots, notKept]
              exact slotOff_afterReset _ _
            · rw [held.modules, notKept]
              rfl
        obtain ⟨slotOff, live, powered⟩ := isOff
        exact ⟨slotOff.rail, slotOff.enable, slotOff.held, live, powered, slotOff.vacant, slotOff.fitted⟩
    · have stays : heldSlot p s k = true := heldSlot_iff.2 hk
      have slot : (resetHeld p s).slot k = Slot.heldAfterReset p k (s.slot k) := (held.slots k).trans (if_pos stays)
      have module : (resetHeld p s).module k = (s.module k).abandon := (held.modules k).trans (if_pos stays)
      have described := held.describes k stays
      rw [slot] at described ⊢
      rw [module]
      exact ⟨rfl, rfl, rfl, rfl, (held.live k).trans stays, rfl, rfl, rfl, described⟩

end Sys2Proof.Machine
end
